-- ==== Sys2Proof/Word.lean ====
section
/-!
DEFINITION. The word types of the KM4816 and the sparse table every register file, memory and array of the model is held in.
Registers are 32 bits wide (00 R13); machine coordinates are 32-bit signed integers of 1 nm (00 R17).
-/
namespace Sys2Proof

/-- A byte of DRAM, NOR or a message. -/
abbrev Byte := BitVec 8
/-- A register (00 R13). -/
abbrev Word := BitVec 32
/-- An entry of the tile map, the correction grids or the handoff store (19 R511). -/
abbrev DWord := BitVec 64

/-- A sparse table: key and value pairs, keys strictly rising, no value equal to what an unlisted key reads as. -/
abbrev Tab (α : Type) := List (Nat × α)

end Sys2Proof
end

