-- ==== Sys2Proof/Syntax.lean ====
section
/-!
DEFINITION. The commands of the KM4816: one constructor per row of spec/opcode_table.json, with what the outside world brings.
-/
namespace Sys2Proof

/-- What a host writes to a register: one word, or the two words of a 64-bit access (02 R45; 19 R513). -/
inductive RegData where
  | word (v : Word)
  | pair (lo hi : Word)
  deriving DecidableEq, Repr

/-- Its length in bytes. -/
def RegData.bytes : RegData → Nat
  | .word _ => 4
  | .pair .. => 8

/-- What a failed self-test names (14 R401, R403, R418): a block without spares, a loop slot, a power-loop slot, an uncorrectable word in a row of one of
the unit's own SRAM arrays, or a spare row of an array; with the index that LAST_FAIL shows. -/
inductive KatPart where
  | block (index : BitVec 16)
  | loopSlot (s : Fin 160)
  | powerSlot (s : Fin 56)
  | sram (array : Fin 384) (row : Word)
  | spareRow (array : Fin 384) (row : Fin 4)
  deriving DecidableEq, Repr

/-- A failed self-test: what failed, and the number of the block tested (14 R428 LAST_FAIL.BLOCK). -/
structure KatFail where
  part : KatPart
  block : BitVec 8
  deriving DecidableEq, Repr

/-- What the checks at cycle 1,200 of a frame find (14 R399, R402): units whose frame guard fails, and the first item in which the standby's
outputs differ, with its lane, port or index. `nodes`: errors that have appeared in the field correction store, by head and node, and whether its codes
cannot correct them (04 R122). -/
structure FrameCheck where
  guardA : Bool := false
  guardB : Bool := false
  diverge : Option (Fin 5 × BitVec 8) := none
  nodes : List (Fin 48 × Fin 4225 × Bool) := []
  deriving DecidableEq, Repr

/-- The commands, in the order of the table. -/
inductive Instr where
  /-- POWER_ON_RESET (02 R62). PORST_N low resets both dies and loses all state except OTP. -/
  | powerOnReset
  /-- BROWN_OUT (20 R522). VDD_CORE or VDDIO stays below its brown-out threshold for 2 µs and acts as POR. -/
  | brownOut
  /-- PLL_LOCK (02 R69). The PLLs lock after POR, the time base starts and the device enters ROM. -/
  | pllLock
  /-- ROM_SELF_TEST_DONE (14 R398). A unit completes its ROM pass of known-answer tests and SRAM patrol; a failing unit enters FAILED. -/
  | romSelfTestDone (unit : Fin 2) (fails : List KatFail)
  /-- DDR_TRAINING_DONE (12 R355). DDR5 training completes, CFG fields take their trained values and zero-writing starts after POR. -/
  | ddrTrainingDone (ok : Bool) (density : Fin 2) (rfmReq : Bool) (raaimt : BitVec 8) (res : List (BitVec 8))
  /-- DRAM_ZERO_DONE (02 R69). Zero-writing of DRAM, or training alone after DEV_RESET, completes and the device enters WAIT_IMAGE. -/
  | dramZeroDone
  /-- PPR_HARDEN_DONE (12 R379). ROM completes the hard post-package repair of one row marked for hardening. -/
  | pprHardenDone
  /-- DEV_RESET (02 R62). A write of the key to SYS.DEV_RESET starts a controlled stop followed by ROM, keeping DRAM and the PCIe endpoint. -/
  | devReset (val : Word)
  /-- CONTROLLED_STOP (02 R63). At the first frame boundary after its cause, edges and power go to 0, LE outputs are deasserted and heads park. -/
  | controlledStop
  /-- CONTROLLED_STOP_END (02 R63). The controlled stop ends when all heads report parked or after 400 frames. -/
  | controlledStopEnd
  /-- PCIE_LINK_DOWN (02 R49). PERST_N, hot reset, link disable or link loss resets the endpoint only and records LINK_DOWN. -/
  | pcieLinkDown
  /-- PCIE_LINK_UP (02 R49). The PCIe link returns and the endpoint answers again for re-enumeration. -/
  | pcieLinkUp (width : Fin 9) (speed : Fin 5)
  /-- MSIX_ENABLE (02 R49). The host sets MSI-X Enable and every asserted, unmasked vector sends one message. -/
  | msixEnable (fnMask : Bool)
  /-- MSIX_UNMASK (02 R60). Unmasking a vector sends a message held pending while masked. -/
  | msixUnmask (vector : Fin 64)
  /-- D3HOT_ENTRY (02 R50). A transition to D3hot in ARMED or RUNNING sends the device to FAULT_LATCHED with HOST_D3. -/
  | d3hotEntry
  /-- D0_RETURN (02 R50). The function returns to D0 and keeps all state. -/
  | d0Return
  /-- BAD_ACCESS (02 R45). A misaligned, wrongly sized or unmapped BAR0 access completes harmlessly and is recorded. -/
  | badAccess (addr : BitVec 26) (write : Bool) (len : Nat)
  /-- BAR2_WRITE (02 R47). A host write to the DRAM window reaches DRAM, except for bytes in the device region or beyond capacity. -/
  | bar2Write (ofs : BitVec 36) (data : List Byte)
  /-- BAR2_READ (02 R47). A host read of the DRAM window returns DRAM contents or 0xFF bytes. -/
  | bar2Read (ofs : BitVec 36) (len : Nat)
  /-- REGISTER_WRITE (00 R12). A write to a register field that has no behaviour of its own takes effect by its access code. -/
  | registerWrite (addr : BitVec 26) (val : RegData)
  /-- ERR_CLR (02 R53). A write of ERR_CLR clears ERR_INFO and ERR_ADDR of the page. -/
  | errClr (page : BitVec 26) (val : Word)
  /-- SOFT_RESET (02 R54). A write of SOFT_RESET resets the block or is refused according to page and state. -/
  | softReset (page : BitVec 26) (val : Word)
  /-- PAGE_LOCK (02 R53). A write of LOCK = 1 locks the page until device reset. -/
  | pageLock (page : BitVec 26) (val : Word)
  /-- PAGE_ENABLE (19 R510). A write of PAGE_CTRL.ENABLE enables or disables a block, or is refused on pages that cannot be disabled. -/
  | pageEnable (page : BitVec 26) (val : Word)
  /-- EVT_FORCE (02 R52). A write to EVT_FORCE sets event bits as if they occurred and writes forced records. -/
  | evtForce (page : BitVec 26) (val : Word)
  /-- EVT_RAW_CLEAR (02 R60). A W1C write to EVT_RAW clears events and resends the vector's message if it is still asserted. -/
  | evtRawClear (page : BitVec 26) (val : Word)
  /-- EVT_EN_WRITE (02 R60). A write to EVT_EN changes enables and resends the message if the vector is still asserted. -/
  | evtEnWrite (page : BitVec 26) (val : Word)
  /-- SHADOW_POINT_WRITE (02 R57). A write of SHADOW_CTRL.POINT selects the commit point and releases writes held under HOLD. -/
  | shadowPointWrite (page : BitVec 26) (val : Word)
  /-- SHADOW_RELEASE (02 R58). A write to SYS.SHADOW_RELEASE moves every held page to FRAME or LAYER in one cycle. -/
  | shadowRelease (val : Word)
  /-- HOLDOFF_EXPIRE (02 R61). The holdoff interval of a vector ends and a deferred message is sent once. -/
  | holdoffExpire (vector : Fin 64)
  /-- IMG_GO (02 R66). A write of the key to BOOT.IMG_GO in WAIT_IMAGE copies the image and starts verification. -/
  | imgGo (val : Word)
  /-- IMAGE_VERIFY_DONE (02 R67). Verification ends with acceptance and CAL_LOAD, or with a failure code and return to WAIT_IMAGE. -/
  | imageVerifyDone
  /-- CAL_LOAD_DONE (16 R464). CAL_LOAD finishes loading calibration records and the device enters IDLE. -/
  | calLoadDone
  /-- ENROLL (02 R68). ENROLL_CMD with OP 1 enrols a builder key digest in an empty slot, or is refused. -/
  | enroll (val : Word)
  /-- REVOKE (02 R68). ENROLL_CMD with OP 2 revokes a key slot, or is refused. -/
  | revoke (val : Word)
  /-- ENROLL_DONE (02 R68). The OTP change of an enrolment or revocation completes and ENROLL_STAT becomes done. -/
  | enrollDone
  /-- ARM (02 R71). SYS_CMD ARM in IDLE moves the device to ARMED if its preconditions hold at the boundary. -/
  | arm (val : Word)
  /-- START (02 R71). SYS_CMD START in ARMED enters RUNNING and starts the sequencer at entry 0. -/
  | start (val : Word)
  /-- STOP (02 R71). SYS_CMD STOP in RUNNING stops before the next layer opens and returns to ARMED. -/
  | stop (val : Word)
  /-- ABORT (02 R71). SYS_CMD ABORT runs a controlled stop and enters IDLE, leaving an open layer aborted. -/
  | abort (val : Word)
  /-- DISARM (02 R71). SYS_CMD DISARM in ARMED returns the device to IDLE. -/
  | disarm (val : Word)
  /-- SYS_CMD_EFFECT (02 R71). A pending accepted command takes effect at its boundary and CMD_STAT reports its final result. -/
  | sysCmdEffect
  /-- HOST_KICK (02 R74). A write to HOST_KICK restarts the host watchdog. -/
  | hostKick (val : Word)
  /-- HOST_WDOG_WRITE (02 R74). A write to HOST_WDOG sets TIMEOUT and ACTION and restarts the watchdog. -/
  | hostWdogWrite (val : Word)
  /-- WDOG (02 R74). The host watchdog expires and acts as STOP or as ABORT followed by FAULT_LATCHED. -/
  | wdog
  /-- FAULT_LATCH_ENTRY (02 R73). A fault cause enters FAULT_LATCHED at the next frame boundary and records the lowest cause code. -/
  | faultLatchEntry
  /-- MP_LOCKSTEP (02 R73). MP0 and MP1 diverge and the device latches with cause MP_LOCKSTEP. -/
  | mpLockstep
  /-- ISO_LOST (02 R73). No isolated die state is received for 8 frames and the device latches with cause ISO_LOST. -/
  | isoLost
  /-- FRAME_BOUNDARY (01 R37). A link frame boundary starts the frame: unit choice, reconciliation, commits and the frame's real-time computation. -/
  | frameBoundary (cmdOk : Bool) (check : FrameCheck)
  /-- OPEN_LAYER (01 R42). A layer opens at the first frame boundary after recoat end with a ready, valid descriptor. -/
  | openLayer
  /-- LAYER_BOUNDARY (01 R39). The layer closes at the first frame boundary with all work exposed and the sequencer at layer close. -/
  | layerBoundary
  /-- NOP (03 R84). The NOP entry completes with no effect. -/
  | nop
  /-- LAYER_OPEN (03 R84). The LAYER_OPEN entry waits in the layer-wait step until a layer opens. -/
  | layerOpen
  /-- EXPOSE (03 R539). The EXPOSE entry starts the streams of the open layer on every vector engine. -/
  | expose
  /-- LAYER_CLOSE (03 R84). The LAYER_CLOSE entry waits for the layer boundary. -/
  | layerClose
  /-- AUX_START (10 R321). The AUX_START entry starts a move on the masked auxiliary axes. -/
  | auxStart
  /-- AUX_WAIT (10 R324). The AUX_WAIT entry waits for DONE on the masked axes. -/
  | auxWait
  /-- DELAY (03 R84). The DELAY entry waits ARG1 frames. -/
  | delay
  /-- DELAY_DONE (03 R84). The frames of a DELAY entry elapse and the entry completes. -/
  | delayDone
  /-- OUT_SET (17 R486). The OUT_SET entry changes the masked bits of DO_OUT. -/
  | outSet
  /-- IN_WAIT (03 R84). The IN_WAIT entry waits for DI inputs to match the given values. -/
  | inWait
  /-- WAIT_ENTRY_DONE (03 R84). The condition of an AUX_WAIT or IN_WAIT entry holds at a boundary and the entry completes. -/
  | waitEntryDone
  /-- EVENT (03 R84). The EVENT entry sets TABLE_EVENT with its tag and entry index. -/
  | event
  /-- JUMP (03 R85). The JUMP entry moves the sequencer to its target entry. -/
  | jump
  /-- BR_MORE (03 R84). The BR_MORE entry branches unless the layer closed last was marked LAST. -/
  | brMore
  /-- BR_RESUMED (03 R84). The BR_RESUMED entry branches when the run began after a STOP. -/
  | brResumed
  /-- END (03 R84). The END entry ends the job and the device enters ARMED at the next boundary. -/
  | endEntry
  /-- STALL (03 R87). The timeout of an AUX_WAIT or IN_WAIT entry expires and the sequencer stalls. -/
  | stall
  /-- CONTINUE (03 R87). A write of 0x434F to SEQ.CONTINUE restarts the stalled entry and its timeout. -/
  | continueEntry (val : Word)
  /-- CONTEXT_WINDOW_WRITE (03 R97). A write to the context table window enters the pending copy of its context. -/
  | contextWindowWrite (ofs : BitVec 15) (val : Word)
  /-- SEQ_TABLE_WRITE (03 R77). A write to the sequencer table window is accepted only in IDLE. -/
  | seqTableWrite (ofs : BitVec 16) (val : Word)
  /-- CTX_COMMIT (03 R97). A write to SEQ.CTX_COMMIT marks a context to commit at the next boundary of its kind. -/
  | ctxCommit (val : Word)
  /-- TBL_CHECK (03 R86). A write to TBL_CHECK validates the sequencer table and reports the first failure. -/
  | tblCheck (val : Word)
  /-- LQ_RESET (03 R111). LQ_CTRL.RESET in IDLE sets LQ_RD to 0. -/
  | lqReset (val : Word)
  /-- STREAM_RETRY (03 R92). A write to HDn.STREAM_RETRY fetches the failed record again. -/
  | streamRetry (head : Fin 48) (val : Word)
  /-- RECORD_FETCH_DONE (03 R93). A requested record burst arrives in the prefetch buffer, or is absent on an uncorrectable error. -/
  | recordFetchDone (head : Fin 48)
  /-- STREAM_RESUME (01 R23). A head held on an underrun resumes at the first frame boundary after the record arrives. -/
  | streamResume (head : Fin 48)
  /-- SAT_LIMIT_REACHED (04 R132). The saturation count reaches SAT_LIMIT and the slot falls back. -/
  | satLimitReached (slot : Fin 160)
  /-- COAST_EXPIRE (04 R133). A further missing frame after COAST_MAX moves the slot to CURRENT_PARK. -/
  | coastExpire (slot : Fin 160)
  /-- RECOVERED (04 R135). After RECOVER clean frames with the laser off, a slot returns to the primary law. -/
  | recovered (slot : Fin 160)
  /-- FE_FAULT (04 R142). FE_COUNT exceeds FE_TIME, the laser goes off, the head fails and its slots park. -/
  | feFault (slot : Fin 160)
  /-- PARK_REQ (04 R137). A write to HDn.PARK_REQ sends the head's slots to PARKING. -/
  | parkReq (head : Fin 48) (val : Word)
  /-- PARKED (04 R138). After 4 frames within PARK_TOL a parking slot becomes PARKED. -/
  | parked (slot : Fin 160)
  /-- PARK_TIMEOUT (04 R139). A slot not parked within PARK_TIME enters CURRENT_PARK and fails its head. -/
  | parkTimeout (slot : Fin 160)
  /-- SERVO_RESTART (04 R144). A write of 0x5253 to SERVO_RESTART starts the return of a faulted head. -/
  | servoRestart (head : Fin 48) (val : Word)
  /-- SERVO_HOLD_QUALIFIED (04 R144). The slots hold park within FE_LIM for 400 frames and the head may rejoin. -/
  | servoHoldQualified (head : Fin 48)
  /-- FC_GRID_WRITE (04 R123). A host write to a field-correction grid in IDLE clears FC_STAT.VALID. -/
  | fcGridWrite (ofs : BitVec 22) (val : Word)
  /-- FC_ACCEPT (04 R123). A write of 0x4643 to FC_ACCEPT sets FC_STAT.VALID again. -/
  | fcAccept (head : Fin 48) (val : Word)
  /-- TRACE_ARM (04 R151). A write to TRACE_ARM starts trace capture of a slot. -/
  | traceArm (page : Fin 10) (val : Word)
  /-- TRACE_FORCE (04 R151). A write to TRACE_FORCE triggers a slot's trace at once. -/
  | traceForce (page : Fin 10) (val : Word)
  /-- TRACE_DONE (04 R151). Capture stops after 4,096 − PRE samples past the trigger. -/
  | traceDone (slot : Fin 160)
  /-- TRACE_GAP (04 R152). A trace burst not accepted by the end of the next frame is dropped. -/
  | traceGap (slot : Fin 160)
  /-- DROP_FAIL (05 R185). DROP_COUNT reaches LIMIT or a span reaches FAIL_Q and the head is failed. -/
  | dropFail (head : Fin 48)
  /-- CAS_KEY_WRITE (05 R187). A write to FIRE.CAS_KEY in IDLE loads the cassette key. -/
  | casKeyWrite (word : Fin 8) (val : Word)
  /-- CAS_REREAD (05 R188). A write to HDn.CAS_REREAD reads the cassette record again. -/
  | casReread (head : Fin 48) (val : Word)
  /-- CAS_STEP_REACHED (05 R189). Unwritten cassette energy reaches CAS_STEP and the record is advanced. -/
  | casStepReached (head : Fin 48)
  /-- CAS_WRITE_FAIL (05 R189). A cassette write is not confirmed within CAS_TIMEOUT. -/
  | casWriteFail (head : Fin 48)
  /-- CAS_EXHAUSTED (05 R190). Cassette usage reaches LIMIT and the head fails at its next vector boundary. -/
  | casExhausted (head : Fin 48)
  /-- HOLD_LONG (06 R205). HOLD_FRAMES reaches HOLD_MAX and HOLD_LONG is recorded once. -/
  | holdLong (head : Fin 48)
  /-- TILE_MAP_WRITE (06 R209). A write to the tile map window is accepted only in IDLE. -/
  | tileMapWrite (ofs : BitVec 18) (val : Word)
  /-- TILE_EDIT_CMD (06 R209). A write of 0x5445 to TILE_EDIT_CMD stages one tile entry for the next boundary. -/
  | tileEditCmd (val : Word)
  /-- HEAD_FAIL (06 R210). A head is declared failed at a boundary and its remaining work is handed off. -/
  | headFail (head : Fin 48)
  /-- FAIL_REQ (06 R210). A keyed write to IBEX.FAIL_REQ fails a head at the next boundary. -/
  | failReq (val : Word)
  /-- REJOIN (06 R213). A write of 0x524A to HDn.REJOIN lets a failed head rejoin at a layer boundary. -/
  | rejoin (head : Fin 48) (val : Word)
  /-- STORE_RESUME (06 R217). Entries of a full handoff store free and stream reading resumes. -/
  | storeResume
  /-- PIN (07 R244). PIN_COUNT exceeds PIN_TIME and a pin event is recorded. -/
  | pin (slot : Fin 56)
  /-- FF_STALE (07 R249). The feed-forward age passes HOLD and the term decays toward 0. -/
  | ffStale (slot : Fin 56)
  /-- FRAME_START (08 R258). FV becomes active and a camera frame begins. -/
  | frameStart (port : Fin 12)
  /-- CAMERA_LINE (08 R261). A line of LV activity is received and measured against WIDTH. -/
  | cameraLine (port : Fin 12) (pixels : List (BitVec 16))
  /-- FRAME_END (08 R258). FV becomes inactive and the camera frame closes. -/
  | frameEnd (port : Fin 12)
  /-- FRAME_TIMEOUT (08 R259). No LV activity for FRAME_TMO closes the frame by timeout. -/
  | frameTimeout (port : Fin 12)
  /-- PCLK_LOST (08 R259). No PCLK edge for 1 µs clears PCLK_PRESENT. -/
  | pclkLost (port : Fin 12)
  /-- VM_FRAME_TAKE (08 R265). The pipeline takes the oldest via-memory frame when the in-line side is idle. -/
  | vmFrameTake (pipe : Fin 7)
  /-- RING_SLOT_CLAIM (08 R268). A waiting via-memory frame claims a ring slot that has become free. -/
  | ringSlotClaim (pipe : Fin 7)
  /-- FEATURE_RECORD_COMPLETE (08 R275). A feature record completes, crosses to the real-time plane and is copied to DRAM. -/
  | featureRecordComplete (pipe : Fin 7)
  /-- PIPELINE_FAIL (08 R277). An uncorrectable buffer error or a late record stops the pipeline. -/
  | pipelineFail (pipe : Fin 7) (cause : Fin 2)
  /-- DPC_LOADED (08 R271). The copy of a committed defect list completes. -/
  | dpcLoaded (pipe : Fin 7) (source : Fin 2)
  /-- CNT_CLEAR (08 R279). A write to a page's CNT_CLEAR clears its counters. -/
  | cntClear (addr : BitVec 26) (val : Word)
  /-- US_FRAME_RX (09 R292). An upstream frame of a lane is received and its critical and status blocks used. -/
  | usFrameRx (head : Fin 48) (start : BitVec 10) (groups : List (BitVec 10)) (rtd : Nat)
  /-- US_FRAME_MISSING (09 R295). An upstream frame is not valid by cycle 240 and its contents are missing. -/
  | usFrameMissing (head : Fin 48)
  /-- ACK_RX (09 R298). A valid management slot acknowledges outstanding messages. -/
  | ackRx (head : Fin 48) (slot : List (Option Byte))
  /-- CAP_DATA_RX (09 R304). A capability fragment is received and a complete block is accepted or refused. -/
  | capDataRx (head : Fin 48) (slot : List (Option Byte))
  /-- CAS_RECORD_RX (05 R188). A cassette record is received, checked, and confirms a pending write. -/
  | casRecordRx (head : Fin 48) (slot : List (Option Byte))
  /-- CAS_CHANGE_RX (09 R300). A head reports a cassette change and the record is read again. -/
  | casChangeRx (head : Fin 48) (slot : List (Option Byte))
  /-- HOST_MSG_RX (09 R302). A head's HOST message fills MSG_RX or is dropped when full. -/
  | hostMsgRx (head : Fin 48) (slot : List (Option Byte))
  /-- UNKNOWN_MSG_RX (09 R297). A message of unknown type is acknowledged, discarded and counted. -/
  | unknownMsgRx (head : Fin 48) (slot : List (Option Byte))
  /-- MGMT_RETRY (09 R298). RETRY_TMO expires and outstanding messages are resent, or the lane is lost after RETRY_MAX. -/
  | mgmtRetry (head : Fin 48)
  /-- MSG_TX_GO (09 R302). A write to MSG_TX_GO queues the HOST message to the head. -/
  | msgTxGo (head : Fin 48) (val : Word)
  /-- MSG_RX_FREE (09 R302). A write to MSG_RX_FREE frees the receive mailbox. -/
  | msgRxFree (head : Fin 48) (val : Word)
  /-- LANE_EN (09 R305). A write of LANE_CTRL.EN starts training or disables the lane. -/
  | laneEn (head : Fin 48) (val : Word)
  /-- RETRAIN (09 R305). A write of RETRAIN restarts training, as a loss in TRAIN, CAP or UP. -/
  | retrain (head : Fin 48) (val : Word)
  /-- TRAINING_DONE (09 R306). Sixteen aligned upstream training frames complete training and measure RTD. -/
  | trainingDone (head : Fin 48)
  /-- TRAIN_TIMEOUT (09 R306). Training not complete within 40,000 frames raises TRAIN_TIMEOUT once. -/
  | trainTimeout (head : Fin 48)
  /-- CAP_TIMEOUT (09 R305). No complete capability block within 800 frames faults the lane. -/
  | capTimeout (head : Fin 48)
  /-- LANE_LOST (09 R307). LOSS_FRAMES consecutive missing frames lose the lane and fail its head. -/
  | laneLost (head : Fin 48)
  /-- LOST_IDLE_END (09 R305). After 40 idle frames a lost lane returns to training. -/
  | lostIdleEnd (head : Fin 48)
  /-- LINK_ACCEPT (09 R309). A write of 0x4843 to LINK_ACCEPT accepts a changed head. -/
  | linkAccept (head : Fin 48) (val : Word)
  /-- AUX_TICK (10 R313). Every 8 frames the auxiliary engine computes profiles, currents, stall and homing. -/
  | auxTick
  /-- BRIDGE_FRAME_RX (10 R316). An upstream bridge frame is received with currents, voltages and driver status. -/
  | bridgeFrameRx (port : Fin 8) (start : BitVec 10) (groups : List (BitVec 10))
  /-- BRIDGE_FRAME_MISSING (10 R318). An upstream bridge frame is not valid by the end of its tick. -/
  | bridgeFrameMissing (port : Fin 8)
  /-- PORT_UP (10 R318). Sixteen valid upstream frames bring a bridge port UP. -/
  | portUp (port : Fin 8)
  /-- PORT_LOST (10 R318). LOSS_TICKS missing frames lose the bridge port. -/
  | portLost (port : Fin 8)
  /-- PORT_RESYNC (10 R318). After 8 ticks a lost port returns to SYNC. -/
  | portResync (port : Fin 8)
  /-- MOVE (10 R321). AX_CMD MOVE starts a move definition, or is refused. -/
  | move (axis : Fin 16) (val : Word)
  /-- HOME (10 R332). AX_CMD HOME starts homing in IDLE. -/
  | home (axis : Fin 16) (val : Word)
  /-- AX_STOP (10 R335). AX_CMD STOP ramps the axis to rest. -/
  | axStop (axis : Fin 16) (val : Word)
  /-- CLEAR_ERR (10 R337). AX_CMD CLEAR_ERR returns an axis from ERROR to IDLE once its cause has ended. -/
  | clearErr (axis : Fin 16) (val : Word)
  /-- MOVE_DONE (10 R324). The profile reaches its target at rest and DONE is set. -/
  | moveDone (axis : Fin 16)
  /-- STOP_AT_REST (10 R337). A ramp stop reaches rest and the axis leaves STOPPING. -/
  | stopAtRest (axis : Fin 16)
  /-- LIMIT_RELEASE (10 R327). A limit input holds inactive for DEBOUNCE and is released. -/
  | limitRelease (axis : Fin 16) (side : Fin 2)
  /-- INPUT_LOST (10 R328). DI levels missing for 2 frames stop the axis in ERROR. -/
  | inputLost (axis : Fin 16)
  /-- AXIS_STALL (10 R330). The load angle exceeds STALL_ANGLE for STALL_N ticks and the axis stalls. -/
  | axisStall (axis : Fin 16)
  /-- STANDBY_ENTRY (10 R320). An axis at rest for STBY_DELAY ramps to standby current. -/
  | standbyEntry (axis : Fin 16)
  /-- HOME_AT_REST (10 R332). A homing stop reaches rest and homing moves to its next step. -/
  | homeAtRest (axis : Fin 16)
  /-- HOME_BACK_OFF_DONE (10 R332). The home input holds released for DEBOUNCE during back-off. -/
  | homeBackOffDone (axis : Fin 16)
  /-- HOME_QUALIFIED_EDGE (10 R333). A home activation holds for DEBOUNCE in the slow seek and is latched. -/
  | homeQualifiedEdge (axis : Fin 16)
  /-- HOME_ZERO (10 R332). At rest after the latch the axis is zeroed and HOMED set. -/
  | homeZero (axis : Fin 16)
  /-- SWITCH_UNSTABLE (10 R334). Raw home transitions in the chatter window exceed CHAT_MAX and homing aborts. -/
  | switchUnstable (axis : Fin 16)
  /-- HOME_MAXDIST (10 R335). A seek or back-off travels HOME_MAXDIST and homing fails. -/
  | homeMaxdist (axis : Fin 16)
  /-- MATRIX_FRAME_START (11 R343). A matrix frame starts with fixed intensities, settings and any armed swap. -/
  | matrixFrameStart
  /-- ROW_SLOT_START (11 R341). A row slot starts with its row change and pulse window. -/
  | rowSlotStart (blankNs : Option Nat) (sinkUa : List Nat) (sinkMv : List Nat)
  /-- DIAG_UNAVAILABLE (11 R349). No qualifying slot in 256 matrix frames sets DIAG_UNAVAIL for the LED. -/
  | diagUnavailable (led : Fin 512)
  /-- LED_FRAME_WRITE (11 R345). A write to the LED frame memory is accepted only for an unarmed back buffer. -/
  | ledFrameWrite (ofs : BitVec 12) (val : Word)
  /-- LED_ARM (11 R346). LED_SWAP ARM arms the back buffer for a swap. -/
  | ledArm (val : Word)
  /-- LED_DISARM (11 R353). LED_SWAP DISARM clears ARMED. -/
  | ledDisarm (val : Word)
  /-- SYNC_EDGE (11 R346). A sync edge swaps or restarts the matrix according to SYNC_MODE. -/
  | syncEdge (active : Bool) (count : Fin 4096)
  /-- LAMP_TEMP_MEASURE (11 R351). Every 64 matrix frames T_LAMP is measured and SCALE derived. -/
  | lampTempMeasure (temp : BitVec 16)
  /-- DIAG_CLEAR (11 R353). A write to DIAG_CLEAR resets all lamp results and lifts short suppression. -/
  | diagClear (val : Word)
  /-- DRAM_REQUEST (12 R365). A request reaches the controller, is cut into fragments and scheduled. -/
  | dramRequest (addr : BitVec 36) (len : BitVec 16) (cls : Fin 4) (trace : Bool) (wr : Option (List Byte))
  /-- DRAM_READ_DONE (12 R360). A burst read is decoded as clean, corrected, poisoned or uncorrectable. -/
  | dramReadDone (sc : Fin 2) (syms : List (Fin 80))
  /-- DEV_MARKED (12 R361). MARK_N consecutive corrections on one device mark it on its subchannel. -/
  | devMarked (sc : Fin 2)
  /-- DRAM_WRITE (12 R364). A write reaches DRAM, partial writes by read-modify-write with poisoning. -/
  | dramWrite (sc : Fin 2)
  /-- REFRESH_DUE (12 R370). A refresh falls due and is issued, postponed or forced. -/
  | refreshDue (sc : Fin 2) (hot : Bool)
  /-- OWED_REFRESH (12 R371). With no class 0 fragment waiting, an owed refresh is issued. -/
  | owedRefresh (sc : Fin 2)
  /-- RFM (12 R373). A bank's activation count reaches RAAIMT and RFM is issued. -/
  | rfm (sc : Fin 2) (bank : Fin 32)
  /-- POWER_DOWN_ENTRY (12 R374). A subchannel idle for PD_IDLE cycles enters precharge power-down. -/
  | powerDownEntry (sc : Fin 2)
  /-- SCRUB_STEP (12 R375). The patrol scrub reads the next burst. -/
  | scrubStep (syms : List (Fin 80)) (counts : List Word)
  /-- PPR_REPAIR_DONE (12 R377). A soft post-package repair of a committed row completes and the row is written back. -/
  | pprRepairDone
  /-- HARDEN (12 R379). PPR_CMD OP 1 marks soft-repaired rows for hardening at the next DEV_RESET. -/
  | harden (val : Word)
  /-- CLEAR_PENDING (12 R380). PPR_CMD OP 2 clears pending repair entries. -/
  | clearPending (val : Word)
  /-- DMA_START (13 R392). CH_CMD START fetches the descriptor at CHAIN. -/
  | dmaStart (chan : Fin 32) (val : Word)
  /-- DMA_STOP (13 R392). CH_CMD STOP ends the channel after the fragment in progress. -/
  | dmaStop (chan : Fin 32) (val : Word)
  /-- RESUME (13 R392). CH_CMD RESUME re-executes the halted descriptor. -/
  | resume (chan : Fin 32) (val : Word)
  /-- SKIP (13 R392). CH_CMD SKIP continues at the halted descriptor's link read. -/
  | skip (chan : Fin 32) (val : Word)
  /-- DESCRIPTOR_FETCH_DONE (13 R384). A descriptor read completes and is checked before execution. -/
  | descriptorFetchDone (chan : Fin 32)
  /-- DESCRIPTOR_COMPLETE (13 R384). A descriptor's operation completes, writes status and raises DONE. -/
  | descriptorComplete (chan : Fin 32)
  /-- LINK_READ_DONE (13 R395). The LINK re-read continues the chain or leaves the channel in TAIL_WAIT. -/
  | linkReadDone (chan : Fin 32)
  /-- DMA_TRIGGER (13 R389). A trigger reaches a channel and starts, latches or is lost. -/
  | dmaTrigger (chan : Fin 32)
  /-- DMA_TIMER (13 R388). The channel timer of TIMER_US expires and produces a trigger. -/
  | dmaTimer (chan : Fin 32)
  /-- DOORBELL (13 R395). A write to DOORBELL re-reads the tail link or sets DB_PEND. -/
  | doorbell (chan : Fin 32) (val : Word)
  /-- KAT_PASS_DONE (14 R401). A pass of known-answer tests completes and any finding is classed. -/
  | katPassDone (unit : Fin 2) (fails : List KatFail)
  /-- SRAM_PATROL_READ (14 R404). The SRAM patrol checks a word and marks remap candidates. -/
  | sramPatrolRead (owner : Fin 3) (array : Fin 384) (row : Word) (result : Fin 3) (last : Bool)
  /-- DIRECTED_PASS_DONE (14 R400). A directed pass after a divergence completes and decides the outcome. -/
  | directedPassDone (failsA : List KatFail) (failsB : List KatFail)
  /-- BLEAT_RX (14 R406). A bleat of the other unit is received on a path. -/
  | bleatRx (unit : Fin 2) (path : Fin 2) (word : BitVec 64)
  /-- BLEAT_MISSED (14 R406). A bleat has not arrived by cycle 1,150 and is counted missed. -/
  | bleatMissed (unit : Fin 2) (path : Fin 2)
  /-- PATH_FAULT (14 R407). Three misses on one path while the other receives set a path fault. -/
  | pathFault (path : Fin 2)
  /-- PATH_OK (14 R407). A faulted path receives 400 consecutive bleats and is good again. -/
  | pathOk (path : Fin 2)
  /-- TAKEOVER_CLAIM (14 R408). Three misses on both paths make the standby claim takeover. -/
  | takeoverClaim
  /-- FAILOVER (14 R410). Control moves to the eligible standby at a frame boundary. -/
  | failover
  /-- RECOVERY_START (14 R413). A failed unit with no pending remap resets its real-time plane and starts a full pass. -/
  | recoveryStart (unit : Fin 2)
  /-- RECOVERY_PASS_DONE (14 R413). A recovery pass succeeds into SYNCING or fails and waits. -/
  | recoveryPassDone (unit : Fin 2) (fails : List KatFail)
  /-- RECOVERY_RETRY (14 R413). One second after a failed recovery the unit retries. -/
  | recoveryRetry (unit : Fin 2)
  /-- STATE_COPY_DONE (14 R414). The state copy to a syncing unit completes and comparison begins. -/
  | stateCopyDone (unit : Fin 2)
  /-- UNIT_STANDBY (14 R414). After 400 clean frames the unit enters STANDBY. -/
  | unitStandby (unit : Fin 2)
  /-- DWELL_END (14 R415). The reversion dwell lasts REV_DWELL and DEFER_LEFT is loaded. -/
  | dwellEnd
  /-- REV_DEFER (14 R416). A write to REV_DEFER lowers DEFER_LEFT during deferral. -/
  | revDefer (val : Word)
  /-- DIRECTED_PASS (14 R428). UNIT_CMD OP 1 starts a directed pass on both units. -/
  | directedPass (val : Word)
  /-- RETRY (14 R413). UNIT_CMD RETRY starts recovery at once. -/
  | retry (val : Word)
  /-- CLEAR_COUNTERS (14 R428). UNIT_CMD OP 3 clears the unit counters. -/
  | clearCounters (val : Word)
  /-- SPARE_ROW_READY (14 R419). The patrol copies a failing SRAM row into its spare and the entry becomes ready. -/
  | spareRowReady (entry : Fin 16)
  /-- REMAP_GO (14 R420). A write to REMAP_GO releases ready entries for the next layer boundary. -/
  | remapGo (val : Word)
  /-- REMAP_REQ (14 R421). A keyed REMAP_REQ retires a slot or pipeline through the remap queue. -/
  | remapReq (val : Word)
  /-- HEALTH (14 R426). The health report is written to the event recorder and mirrored. -/
  | health
  /-- TIME_INC_COMMIT (15 R431). A write to TIME_INC_HI commits the increment or refuses it. -/
  | timeIncCommit (val : Word)
  /-- SET (15 R432). TIME_CMD SET stages an absolute time for the next boundary. -/
  | set (val : Word)
  /-- ADD (15 R432). TIME_CMD ADD stages a signed step for the next boundary. -/
  | add (val : Word)
  /-- CAPTURE (15 R433). TIME_CMD CAPTURE copies time, frame count and cycle at once. -/
  | capture (val : Word)
  /-- CAPTURE_BOUNDARY (15 R432). TIME_CMD CAPTURE_BOUNDARY captures at the next frame boundary. -/
  | captureBoundary (val : Word)
  /-- TCMP_ARM (15 R437). A write of TCMPk.CTRL arms or disarms a compare unit. -/
  | tcmpArm (unit : Fin 8) (val : Word)
  /-- TCMP_FIRE (15 R437). Time reaches a compare target, the event is set and a periodic target advances. -/
  | tcmpFire (unit : Fin 8)
  /-- ETH_RX_FRAME (15 R439). A received Ethernet frame is timestamped into the ring or dropped. -/
  | ethRxFrame (port : Fin 2) (frame : List Byte) (fcs : Word) (runt : Bool)
  /-- TX_WR_WRITE (15 R439). A write of TX_WR queues transmit entries within the free space. -/
  | txWrWrite (port : Fin 2) (val : Word)
  /-- ETH_TX_DONE (15 R439). A transmit entry is sent and timestamped, or refused. -/
  | ethTxDone (port : Fin 2)
  /-- RX_RD_WRITE (15 R439). A write of RX_RD frees receive entries within the filled count. -/
  | rxRdWrite (port : Fin 2) (val : Word)
  /-- ETH_LINK_CHANGE (15 R438). An Ethernet port's PCS synchronisation changes. -/
  | ethLinkChange (port : Fin 2) (up : Bool)
  /-- MDIO_CMD (15 R451). A write to MDIO_CMD starts a management frame to a PHY. -/
  | mdioCmd (val : Word)
  /-- MDIO_DONE (15 R451). The MDIO frame completes. -/
  | mdioDone (data : BitVec 16)
  /-- EVR_WRITE (15 R445). The writer writes the next queued record to Keep or Wrap. -/
  | evrWrite
  /-- SNAP (15 R448). EVR_CMD SNAP copies the recorder pointers in one cycle. -/
  | snap (val : Word)
  /-- HK_CONVERSION (16 R452). A housekeeping channel is converted in its slot of the round. -/
  | hkConversion (value : BitVec 16) (raw : BitVec 16)
  /-- SUPPLY (16 R453). A supply outside its window for 3 rounds is reported. -/
  | supply (chan : Fin 16)
  /-- THERM_LEVEL_CHANGE (16 R455). A temperature condition becomes active or inactive and LEVEL changes. -/
  | thermLevelChange
  /-- SENSOR_BROKEN_LONG (16 R457). After 125 broken rounds LEVEL is taken as at least THROTTLE. -/
  | sensorBrokenLong
  /-- THROTTLE_STEP (16 R459). THR_LEVEL rises or falls by one after its 4-round interval. -/
  | throttleStep
  /-- THRESHOLD_WRITE (16 R456). A write of a temperature threshold is accepted or refused. -/
  | thresholdWrite (which : Fin 3) (val : Word)
  /-- RUN_START (16 R467). CAL_CMD RUN_START begins a calibration run for one head and type. -/
  | runStart (val : Word)
  /-- RUN_SUBMIT (16 R467). CAL_CMD RUN_SUBMIT accepts a candidate record as run 1 or run 2. -/
  | runSubmit (val : Word)
  /-- CAL_RECORD_WRITTEN (16 R468). The accepted record is programmed and read back, or WRITE_FAIL is raised. -/
  | calRecordWritten (readBack : Option (List Byte))
  /-- RUN_CANCEL (16 R469). CAL_CMD RUN_CANCEL ends a run without writing. -/
  | runCancel (val : Word)
  /-- RELOAD (16 R464). CAL_CMD RELOAD reloads one head's records in IDLE. -/
  | reload (val : Word)
  /-- LOAD_DONE (16 R464). The reload of a head completes. -/
  | loadDone
  /-- ACCEPT_SERIAL (16 R466). CAL_CMD ACCEPT_SERIAL clears SERIAL_MISMATCH and accepts the present serial. -/
  | acceptSerial (val : Word)
  /-- NOR_READ (16 R470). CAL_CMD NOR_READ reads up to 256 bytes into NOR_BUF. -/
  | norRead (val : Word)
  /-- NOR_PROGRAM (16 R470). CAL_CMD NOR_PROGRAM programs up to 256 bytes from NOR_BUF. -/
  | norProgram (val : Word)
  /-- NOR_ERASE (16 R470). CAL_CMD NOR_ERASE erases the 4 KiB sector at NOR_ADDR. -/
  | norErase (val : Word)
  /-- NOR_DONE (16 R470). A direct NOR operation completes. -/
  | norDone
  /-- ISO_REPORT_RX (17 R476). A report frame from the isolated die reaches the real-time plane and the mirror. -/
  | isoReportRx
  /-- ISO_REPORT_MISSING (17 R475). A report frame is missing and counted. -/
  | isoReportMissing
  /-- COMMAND_LOSS (17 R477). No valid command frame for 2 frames switches off LE, sinks and unsafe DO outputs. -/
  | commandLoss
  /-- PERMIT_CHANNEL_CHANGE (17 R478). A permit channel holds a new level for FILT_US and the vote is re-formed. -/
  | permitChannelChange (ch : Fin 3) (on : Bool)
  /-- PERMIT_LOST (17 R481). A false vote in ARMED or RUNNING acts as ABORT at the next boundary. -/
  | permitLost
  /-- PERMIT_DISCREPANCY (17 R480). A channel differing from both others for DISC_MS is latched faulted. -/
  | permitDiscrepancy (ch : Fin 3)
  /-- PERMIT_CLEAR (17 R480). A keyed PERMIT_CLEAR in IDLE clears a clearable faulted channel. -/
  | permitClear (val : Word)
  /-- LE_OVERLOAD (17 R483). An LE output over its current limit for 1 ms is switched off. -/
  | leOverload (n : Fin 48)
  /-- LE_STUCK (17 R483). An LE output reading on for 1 ms while commanded off is latched stuck. -/
  | leStuck (n : Fin 48)
  /-- DO_FAULT (17 R486). A DO output in overload is switched off until cleared. -/
  | doFault (n : Fin 16)
  /-- DO_OUT_WRITE (17 R486). A host write of DO_OUT sets the general outputs at the next boundary. -/
  | doOutWrite (val : Word)
  /-- DI_CHANGE (17 R485). A DI input holds a new level for DI_FILT and its filtered level changes. -/
  | diChange (n : Fin 48) (on : Bool)
  /-- VSYS_UV (17 R489). VSYS_HV below 18.0 V for 1 ms switches off LE and DO outputs. -/
  | vsysUv
  /-- VSYS_RESTORE (17 R489). VSYS_HV above 19.0 V for 10 ms restores the outputs. -/
  | vsysRestore
  /-- ISO_HOT (17 R489). The isolated die above 140 °C switches off the column sinks. -/
  | isoHot
  /-- ISO_COOL (17 R489). The isolated die below 130 °C resumes the column sinks. -/
  | isoCool
  /-- SC_ENABLE (18 R499). SC_CTRL.ENABLE 0 to 1 in IDLE performs ARM and START. -/
  | scEnable (val : Word)
  /-- SC_DISABLE (18 R499). SC_CTRL.ENABLE 1 to 0 performs STOP and then DISARM. -/
  | scDisable (val : Word)
  /-- SC_GO (18 R499). SC_GO starts translation of the named channels' lists. -/
  | scGo (val : Word)
  /-- SC_TRANSLATE_DONE (18 R498). Translation into hidden streams and contexts completes or refuses the GO. -/
  | scTranslateDone
  /-- SC_STOP (18 R499). SC_STOP performs ABORT and sets running channels to error. -/
  | scStop (val : Word)
  /-- SC_DONE_CLR (18 R495). A write to SC_DONE_CLR clears every SC_DONE bit and SC_ERR. -/
  | scDoneClr (val : Word)
  /-- CH_LIST_PORT_WRITE (18 R496). A word written to CH_LIST_PORT appends a segment on its fourth word. -/
  | chListPortWrite (chan : Fin 12) (val : Word)
  /-- CH_LIST_RESET (18 R495). A write to CH_LIST_RESET empties a channel's list. -/
  | chListReset (chan : Fin 12) (val : Word)
  /-- SC_CHANNEL_DONE (18 R499). A channel's work is exposed and its SC_DONE bit is set. -/
  | scChannelDone (chan : Fin 12)
  /-- SC_SCANNER_FAULT (18 R503). An orphan of a channel exists for 400,000 frames and error code 7 is set. -/
  | scScannerFault (chan : Fin 12)
  /-- PERMIT_CLEARABLE (17 R480). After a latched fault, all three permit channels read false together for DISC_MS and then true together for DISC_MS, and PERMIT_STAT.CLEARABLE is set. -/
  | permitClearable
  /-- AUTO_NEGOTIATION_COMPLETE (15 R451). Clause 37 auto-negotiation of an Ethernet port completes and PORT_STAT.AN_DONE is set. -/
  | autoNegotiationComplete (port : Fin 2)
  /-- PCLK_PRESENT (08 R259). A camera port sees a PCLK edge again after its clock was lost, and PCLK_PRESENT returns to 1. -/
  | pclkPresent (port : Fin 12) (khz : BitVec 18)
  /-- ISO_DIE_POWER_UP (20 R523). VSYS_HV rises and the isolated die comes out of its own power-on reset, with all outputs off and its CRIT latch clear until command frames arrive. -/
  | isoDiePowerUp
  deriving DecidableEq, Repr

end Sys2Proof
end

