-- ==== Sys2Proof/Machine/Tab.lean ====
section
/-!
DEFINITION. Reading and writing a sparse table in its canonical form, and the number helpers the whole model shares.
-/
namespace Sys2Proof

/-- Key rising and no entry equal to its default: the canonical form. -/
def Tab.wf {α : Type} [DecidableEq α] (dflt : Nat → α) : Tab α → Bool
  | [] => true
  | (k, v) :: t => decide (v ≠ dflt k) && t.all (fun e => decide (k < e.1)) && Tab.wf dflt t

/-- What key `k` reads as. -/
def Tab.get {α : Type} (dflt : Nat → α) : Tab α → Nat → α
  | [], k => dflt k
  | (j, v) :: t, k => if j = k then v else Tab.get dflt t k

/-- The entry for `k` put in front of larger keys; the default is not listed, and nothing else is for `k`. -/
def Tab.cons {α : Type} [DecidableEq α] (dflt : Nat → α) (k : Nat) (v : α) (t : Tab α) : Tab α :=
  if v = dflt k then t.filter (fun e => e.1 != k) else (k, v) :: t

/-- Writing `v` at `k`. -/
def Tab.put {α : Type} [DecidableEq α] (dflt : Nat → α) : Tab α → Nat → α → Tab α
  | [], k, v => Tab.cons dflt k v []
  | (j, w) :: t, k, v =>
    if k < j then Tab.cons dflt k v ((j, w) :: t)
    else if j = k then Tab.cons dflt k v t
    else (j, w) :: Tab.put dflt t k v

/-- A sparse table whose unlisted keys all read `z`. -/
def Tab.at {α : Type} (z : α) (t : Tab α) (k : Nat) : α := Tab.get (fun _ => z) t k

/-- Writing a table whose unlisted keys all read `z`. -/
def Tab.set {α : Type} [DecidableEq α] (z : α) (t : Tab α) (k : Nat) (v : α) : Tab α := Tab.put (fun _ => z) t k v

/-- Change the entry at `k`. -/
def Tab.upd {α : Type} [DecidableEq α] (z : α) (t : Tab α) (k : Nat) (f : α → α) : Tab α := Tab.set z t k (f (Tab.at z t k))

/-- `l[i]`, zero past the end (a list operand that is too short reads as padded with zeros). -/
def nth (l : List Nat) (i : Nat) : Nat := l.getD i 0
/-- `l[i]` of a list of integers, zero past the end. -/
def nthI (l : List Int) (i : Nat) : Int := l.getD i 0

/-- Bits `hi` to `lo` of a number. -/
def bits (w hi lo : Nat) : Nat := w / 2 ^ lo % 2 ^ (hi + 1 - lo)
/-- One bit of a number. -/
def bit (w i : Nat) : Bool := w.testBit i
/-- A Bool as a bit. -/
def b2n (b : Bool) : Nat := if b then 1 else 0
/-- The signed value of the low `n` bits. -/
def sx (n w : Nat) : Int := let m := w % 2 ^ n; if m < 2 ^ (n - 1) then (m : Int) else (m : Int) - (2 ^ n : Nat)
/-- The low `n` bits of an integer, two's complement. -/
def ux (n : Nat) (i : Int) : Nat := (i % (2 ^ n : Nat)).toNat
/-- `x` kept in `[lo, hi]`. -/
def clampI (lo hi x : Int) : Int := if x < lo then lo else if hi < x then hi else x
/-- Saturation at the limits of a signed format of `n` bits (00 R16). -/
def satS (n : Nat) (x : Int) : Int := clampI (-(2 ^ (n - 1) : Nat)) ((2 ^ (n - 1) : Nat) - 1) x
/-- Saturation at the limits of an unsigned format of `n` bits (00 R16). -/
def satU (n x : Nat) : Nat := if x < 2 ^ n then x else 2 ^ n - 1
/-- Division rounding to nearest, ties away from zero. -/
def rdiv (a : Int) (b : Int) : Int := if 0 ≤ a then (2 * a + b) / (2 * b) else -((2 * (-a) + b) / (2 * b))
/-- Absolute value as an integer. -/
def absI (x : Int) : Int := if x < 0 then -x else x
/-- The sign as -1, 0 or 1. -/
def sgn (x : Int) : Int := if x < 0 then -1 else if x = 0 then 0 else 1
/-- The bits of `v` placed at `lo`. -/
def place (v hi lo : Nat) : Nat := v % 2 ^ (hi + 1 - lo) * 2 ^ lo

/-- Integer square root, rounded down, by halving an interval; `n` steps. -/
def isqrtGo : Nat → Nat → Nat → Nat → Nat
  | 0, _, lo, _ => lo
  | n + 1, x, lo, hi =>
    let m := (lo + hi + 1) / 2
    if m * m ≤ x then isqrtGo n x m hi else isqrtGo n x lo (m - 1)
/-- Integer square root of a number below 2^192. -/
def isqrt (x : Nat) : Nat := isqrtGo 100 x 0 (2 ^ 96)

/-- `f` applied `n` times with the indices `0 … n-1`, in rising order. -/
def forN {σ : Type} (n : Nat) (f : Nat → σ → σ) (s : σ) : σ := (List.range n).foldl (fun s i => f i s) s
/-- `f` over a list of indices, in order. -/
def forL {α σ : Type} (l : List α) (f : α → σ → σ) (s : σ) : σ := l.foldl (fun s i => f i s) s
/-- `f` on the state when `c`, else the state unchanged. -/
def when {σ : Type} (c : Bool) (f : σ → σ) (s : σ) : σ := if c then f s else s
/-- The indices below `n` that satisfy `p`. -/
def idxs (n : Nat) (p : Nat → Bool) : List Nat := (List.range n).filter p

end Sys2Proof
end

