-- ==== Sys2Proof/Machine/Crypto.lean ====
section
/-!
DEFINITION. The codes and digests the spec names by their standards: CRC-16 (09 R284), CRC-32 of IEEE 802.3 (09 R303), SHA-256, HMAC-SHA-256
(05 R186) and ECDSA P-256 verification (02 R64). Their definitions come from the standards. PRESUMED (log 10).
-/
namespace Sys2Proof

/-! ### CRC -/

/-- One bit of CRC-16 with polynomial 0x1021, not reflected. -/
def crc16Bit (c : Nat) : Nat := if 32768 ≤ c then (c * 2 % 65536) ^^^ 0x1021 else c * 2
/-- CRC-16 of bytes, initial value 0xFFFF (09 R284). -/
def crc16 (l : List Nat) : Nat :=
  l.foldl (fun c b => (List.range 8).foldl (fun c _ => crc16Bit c) (c ^^^ (b * 256))) 0xFFFF

/-- One bit of the reflected CRC-32. -/
def crc32Bit (c : Nat) : Nat := if c % 2 = 1 then (c / 2) ^^^ 0xEDB88320 else c / 2
/-- CRC-32 of IEEE 802.3 of bytes. -/
def crc32 (l : List Nat) : Nat :=
  (l.foldl (fun c b => (List.range 8).foldl (fun c _ => crc32Bit c) (c ^^^ b)) 0xFFFFFFFF) ^^^ 0xFFFFFFFF

/-! ### SHA-256 -/

/-- Round constants, rows of eight. -/
def shaK : List Nat :=
  [0x428a2f98, 0x71374491, 0xb5c0fbcf, 0xe9b5dba5, 0x3956c25b, 0x59f111f1, 0x923f82a4, 0xab1c5ed5] ++
  [0xd807aa98, 0x12835b01, 0x243185be, 0x550c7dc3, 0x72be5d74, 0x80deb1fe, 0x9bdc06a7, 0xc19bf174] ++
  [0xe49b69c1, 0xefbe4786, 0x0fc19dc6, 0x240ca1cc, 0x2de92c6f, 0x4a7484aa, 0x5cb0a9dc, 0x76f988da] ++
  [0x983e5152, 0xa831c66d, 0xb00327c8, 0xbf597fc7, 0xc6e00bf3, 0xd5a79147, 0x06ca6351, 0x14292967] ++
  [0x27b70a85, 0x2e1b2138, 0x4d2c6dfc, 0x53380d13, 0x650a7354, 0x766a0abb, 0x81c2c92e, 0x92722c85] ++
  [0xa2bfe8a1, 0xa81a664b, 0xc24b8b70, 0xc76c51a3, 0xd192e819, 0xd6990624, 0xf40e3585, 0x106aa070] ++
  [0x19a4c116, 0x1e376c08, 0x2748774c, 0x34b0bcb5, 0x391c0cb3, 0x4ed8aa4a, 0x5b9cca4f, 0x682e6ff3] ++
  [0x748f82ee, 0x78a5636f, 0x84c87814, 0x8cc70208, 0x90befffa, 0xa4506ceb, 0xbef9a3f7, 0xc67178f2]

/-- Addition of 32-bit words. -/
def add32 (a b : Nat) : Nat := (a + b) % 2 ^ 32
/-- Rotation to the right by `n`. -/
def ror32 (n x : Nat) : Nat := x / 2 ^ n + x % 2 ^ n * 2 ^ (32 - n)

/-- The message schedule: the latest word first. -/
def shaExtend : Nat → List Nat → List Nat
  | 0, w => w
  | n + 1, w =>
    let a := nth w 14
    let b := nth w 1
    let s0 := ror32 7 a ^^^ ror32 18 a ^^^ a / 2 ^ 3
    let s1 := ror32 17 b ^^^ ror32 19 b ^^^ b / 2 ^ 10
    shaExtend n ((nth w 15 + s0 + nth w 6 + s1) % 2 ^ 32 :: w)

/-- One round. -/
def shaRound (h : List Nat) (kw : Nat) : List Nat :=
  match h with
  | [a, b, c, d, e, f, g, hh] =>
    let s1 := ror32 6 e ^^^ ror32 11 e ^^^ ror32 25 e
    let ch := (e &&& f) ^^^ ((2 ^ 32 - 1 - e) &&& g)
    let t1 := (hh + s1 + ch + kw) % 2 ^ 32
    let s0 := ror32 2 a ^^^ ror32 13 a ^^^ ror32 22 a
    let maj := (a &&& b) ^^^ (a &&& c) ^^^ (b &&& c)
    [add32 t1 (s0 + maj), a, b, c, add32 d t1, e, f, g]
  | h => h

/-- One block of 64 bytes. -/
def shaBlock (h : List Nat) (blk : List Nat) : List Nat :=
  let w0 := (List.range 16).map (fun i => (nth blk (4 * i) * 256 + nth blk (4 * i + 1)) * 65536 + nth blk (4 * i + 2) * 256 + nth blk (4 * i + 3))
  let w := (shaExtend 48 w0.reverse).reverse
  List.zipWith add32 h ((List.zipWith add32 shaK w).foldl shaRound h)

/-- The blocks of a padded message, `n` at most. -/
def shaBlocks : Nat → List Nat → List Nat → List Nat
  | 0, h, _ => h
  | n + 1, h, l => if l = [] then h else shaBlocks n (shaBlock h (l.take 64)) (l.drop 64)

/-- The bytes of a number, big-endian, `n` of them. -/
def beBytes (n v : Nat) : List Nat := (List.range n).map (fun i => v / 256 ^ (n - 1 - i) % 256)

/-- SHA-256 of bytes. -/
def sha256 (l : List Nat) : List Nat :=
  let n := l.length
  let pad := l ++ [0x80] ++ List.replicate ((119 - n % 64) % 64) 0 ++ beBytes 8 (8 * n)
  (shaBlocks (n / 64 + 2) [0x6a09e667, 0xbb67ae85, 0x3c6ef372, 0xa54ff53a, 0x510e527f, 0x9b05688c, 0x1f83d9ab, 0x5be0cd19] pad).flatMap (beBytes 4)

/-- HMAC-SHA-256 with a key of at most 64 bytes. -/
def hmac (key l : List Nat) : List Nat :=
  let k := key ++ List.replicate (64 - key.length) 0
  sha256 (k.map (fun b => b ^^^ 0x5c) ++ sha256 (k.map (fun b => b ^^^ 0x36) ++ l))

/-! ### ECDSA P-256 -/

/-- The field prime, the group order, the coefficient b and the base point of P-256. -/
def p256P : Nat := 2 ^ 256 - 2 ^ 224 + 2 ^ 192 + 2 ^ 96 - 1
def p256N : Nat := 0xffffffff00000000ffffffffffffffffbce6faada7179e84f3b9cac2fc632551
def p256B : Nat := 0x5ac635d8aa3a93e7b3ebbd55769886bc651d06b0cc53b0f63bce3c3e27d2604b
def p256G : Nat × Nat := (0x6b17d1f2e12c4247f8bce6e563a440f277037d812deb33a0f4a13945d898c296,
  0x4fe342e2fe1a7f9b8ee7eb4a7c0f9e162bce33576b315ececbb6406837bf51f5)

/-- Modular power by squaring over the low `n` bits of the exponent. -/
def powMod (m : Nat) : Nat → Nat → Nat → Nat → Nat
  | 0, _, _, acc => acc
  | n + 1, b, e, acc => powMod m n (b * b % m) (e / 2) (if e % 2 = 1 then acc * b % m else acc)
/-- Inverse modulo a prime. -/
def invMod (m a : Nat) : Nat := powMod m 256 (a % m) (m - 2) 1

/-- A point, none at infinity. -/
abbrev EcPt := Option (Nat × Nat)

/-- Addition on the curve. -/
def ecAdd (a b : EcPt) : EcPt :=
  let p := p256P
  match a, b with
  | none, q => q
  | q, none => q
  | some (x1, y1), some (x2, y2) =>
    if x1 = x2 ∧ (y1 + y2) % p = 0 then none
    else
      let l := if x1 = x2 then (3 * x1 * x1 + (p - 3)) * invMod p (2 * y1) % p
        else (y2 + p - y1) * invMod p (x2 + p - x1) % p
      let x3 := (l * l + 2 * p - x1 - x2) % p
      some (x3, (l * (x1 + p - x3) + p - y1) % p)

/-- Multiplication by the low `n` bits of a scalar. -/
def ecMul : Nat → Nat → EcPt → EcPt → EcPt
  | 0, _, _, acc => acc
  | n + 1, k, q, acc => ecMul n (k / 2) (ecAdd q q) (if k % 2 = 1 then ecAdd acc q else acc)

/-- Is a public key on the curve. -/
def onCurve (x y : Nat) : Bool :=
  decide (x < p256P ∧ y < p256P) && y * y % p256P == (x * x * x + (p256P - 3) * x + p256B) % p256P

/-- ECDSA P-256 over SHA-256: public key X then Y, signature r then s, as big-endian byte strings. -/
def ecdsaOk (key sig msg : List Nat) : Bool :=
  let be (l : List Nat) : Nat := l.foldl (fun v b => v * 256 + b) 0
  let x := be (key.take 32)
  let y := be ((key.drop 32).take 32)
  let r := be (sig.take 32)
  let s := be ((sig.drop 32).take 32)
  let z := be (sha256 msg)
  let w := invMod p256N s
  onCurve x y && decide (0 < r ∧ r < p256N ∧ 0 < s ∧ s < p256N) &&
    match ecAdd (ecMul 256 (z * w % p256N) (some p256G) none) (ecMul 256 (r * w % p256N) (some (x, y)) none) with
    | none => false
    | some (px, _) => px % p256N == r
end Sys2Proof
end

