-- ==== Sys2Proof/Machine/RegTable.lean ====
section
/-!
DEFINITION. Every register field of the spec's own field tables, as data: name, offset in its page, block and array repetition,
bits, access code (00 R12) and reset value. Reset values that depend on the instance or the part are given by `Regs.reset`.
Generated from the tables of the section files named over each list.
-/
namespace Sys2Proof.Machine

/-- Access codes (00 R12). -/
inductive Acc where
  | rw | ro | w1c | wo | rws
  deriving DecidableEq, Repr

/-- One row of a field table: `n1` blocks of stride `s1`, each an array of `n2` words of stride `s2`. -/
structure RegRow where
  name : String
  off : Nat
  n1 : Nat
  s1 : Nat
  n2 : Nat
  s2 : Nat
  hi : Nat
  lo : Nat
  acc : Acc
  reset : Nat
  deriving DecidableEq, Repr

namespace RegTable
/-- Fields of HDR (02 R52). -/
def hdrRows : List RegRow := [
  ⟨"PAGE_ID.TYPE", 0x0, 1, 0x0, 1, 0, 31, 16, .ro, 0⟩,
  ⟨"PAGE_ID.INST", 0x0, 1, 0x0, 1, 0, 15, 8, .ro, 0⟩,
  ⟨"PAGE_ID.LAYOUT", 0x0, 1, 0x0, 1, 0, 7, 0, .ro, 0⟩,
  ⟨"PAGE_CAP.SHADOWED", 0x4, 1, 0x0, 1, 0, 31, 31, .ro, 0⟩,
  ⟨"PAGE_CAP.LAYER_COMMIT", 0x4, 1, 0x0, 1, 0, 30, 30, .ro, 0⟩,
  ⟨"PAGE_CAP.BLOCK_CAP", 0x4, 1, 0x0, 1, 0, 29, 0, .ro, 0⟩,
  ⟨"PAGE_CTRL.ERR_CLR", 0x8, 1, 0x0, 1, 0, 3, 3, .wo, 0⟩,
  ⟨"PAGE_CTRL.LOCK", 0x8, 1, 0x0, 1, 0, 2, 2, .rw, 0⟩,
  ⟨"PAGE_CTRL.SOFT_RESET", 0x8, 1, 0x0, 1, 0, 1, 1, .wo, 0⟩,
  ⟨"PAGE_CTRL.ENABLE", 0x8, 1, 0x0, 1, 0, 0, 0, .rw, 0⟩,
  ⟨"PAGE_STAT.BLOCK_STAT", 0xC, 1, 0x0, 1, 0, 31, 16, .ro, 0⟩,
  ⟨"PAGE_STAT.ERR", 0xC, 1, 0x0, 1, 0, 3, 3, .ro, 0⟩,
  ⟨"PAGE_STAT.LOCKED", 0xC, 1, 0x0, 1, 0, 2, 2, .ro, 0⟩,
  ⟨"PAGE_STAT.COMMIT_PENDING", 0xC, 1, 0x0, 1, 0, 1, 1, .ro, 0⟩,
  ⟨"PAGE_STAT.ENABLED", 0xC, 1, 0x0, 1, 0, 0, 0, .ro, 0⟩,
  ⟨"EVT_RAW.EVENTS", 0x10, 1, 0x0, 1, 0, 31, 0, .w1c, 0⟩,
  ⟨"EVT_EN.ENABLES", 0x14, 1, 0x0, 1, 0, 31, 0, .rw, 0⟩,
  ⟨"EVT_FORCE.FORCE", 0x18, 1, 0x0, 1, 0, 31, 0, .wo, 0⟩,
  ⟨"EVT_ROUTE.ROUTE_EN", 0x1C, 1, 0x0, 1, 0, 31, 31, .rw, 0⟩,
  ⟨"EVT_ROUTE.VECTOR", 0x1C, 1, 0x0, 1, 0, 5, 0, .rw, 0⟩,
  ⟨"ERR_INFO.CODE", 0x20, 1, 0x0, 1, 0, 31, 24, .ro, 0⟩,
  ⟨"ERR_INFO.COUNT", 0x20, 1, 0x0, 1, 0, 23, 16, .ro, 0⟩,
  ⟨"ERR_INFO.DETAIL", 0x20, 1, 0x0, 1, 0, 15, 0, .ro, 0⟩,
  ⟨"ERR_ADDR.ADDR", 0x24, 1, 0x0, 1, 0, 31, 0, .ro, 0⟩,
  ⟨"SHADOW_CTRL.COMMIT_COUNT", 0x28, 1, 0x0, 1, 0, 31, 16, .ro, 0⟩,
  ⟨"SHADOW_CTRL.POINT", 0x28, 1, 0x0, 1, 0, 1, 0, .rw, 0⟩]
/-- Fields of SYS (02 R74). -/
def sysRows : List RegRow := [
  ⟨"SYS_STATE.FAULT_CAUSE", 0x40, 1, 0x0, 1, 0, 15, 8, .ro, 0⟩,
  ⟨"SYS_STATE.MODE", 0x40, 1, 0x0, 1, 0, 7, 4, .ro, 0⟩,
  ⟨"SYS_STATE.STATE", 0x40, 1, 0x0, 1, 0, 3, 0, .ro, 0⟩,
  ⟨"SYS_CMD.KEY", 0x44, 1, 0x0, 1, 0, 31, 16, .wo, 0⟩,
  ⟨"SYS_CMD.CMD", 0x44, 1, 0x0, 1, 0, 3, 0, .wo, 0⟩,
  ⟨"CMD_STAT.RESULT", 0x48, 1, 0x0, 1, 0, 7, 4, .ro, 0⟩,
  ⟨"CMD_STAT.CMD", 0x48, 1, 0x0, 1, 0, 3, 0, .ro, 0⟩,
  ⟨"DEV_RESET", 0x4C, 1, 0x0, 1, 0, 31, 0, .wo, 0⟩,
  ⟨"HOST_WDOG.ACTION", 0x50, 1, 0x0, 1, 0, 16, 16, .rw, 0⟩,
  ⟨"HOST_WDOG.TIMEOUT", 0x50, 1, 0x0, 1, 0, 15, 0, .rw, 0⟩,
  ⟨"HOST_KICK", 0x54, 1, 0x0, 1, 0, 31, 0, .wo, 0⟩,
  ⟨"SHADOW_RELEASE", 0x58, 1, 0x0, 1, 0, 1, 0, .wo, 0⟩,
  ⟨"DEV_ID.PART", 0x5C, 1, 0x0, 1, 0, 31, 16, .ro, 18454⟩,
  ⟨"DEV_ID.STEPPING", 0x5C, 1, 0x0, 1, 0, 15, 8, .ro, 0⟩,
  ⟨"DEV_ID.GRADE", 0x5C, 1, 0x0, 1, 0, 7, 0, .ro, 0⟩]
/-- Fields of BOOT (02 R68). -/
def bootRows : List RegRow := [
  ⟨"IMG_LEN", 0x40, 1, 0x0, 1, 0, 31, 0, .rw, 0⟩,
  ⟨"IMG_GO", 0x44, 1, 0x0, 1, 0, 31, 0, .wo, 0⟩,
  ⟨"IMG_STATUS.SECTION", 0x48, 1, 0x0, 1, 0, 11, 8, .ro, 0⟩,
  ⟨"IMG_STATUS.CODE", 0x48, 1, 0x0, 1, 0, 7, 0, .ro, 0⟩,
  ⟨"IMG_INFO.SEC_VER", 0x4C, 1, 0x0, 1, 0, 21, 16, .ro, 0⟩,
  ⟨"IMG_INFO.KEY_SLOT", 0x4C, 1, 0x0, 1, 0, 9, 8, .ro, 0⟩,
  ⟨"IMG_INFO.MODE", 0x4C, 1, 0x0, 1, 0, 3, 0, .ro, 0⟩,
  ⟨"SLOT_STATE", 0x50, 1, 0x0, 1, 0, 7, 0, .ro, 0⟩,
  ⟨"SEC_VER_MIN", 0x54, 1, 0x0, 1, 0, 5, 0, .ro, 0⟩,
  ⟨"ENROLL_DIGEST", 0x60, 1, 0x0, 8, 4, 31, 0, .rw, 0⟩,
  ⟨"ENROLL_CMD.KEY", 0x80, 1, 0x0, 1, 0, 31, 16, .wo, 0⟩,
  ⟨"ENROLL_CMD.SLOT", 0x80, 1, 0x0, 1, 0, 3, 2, .wo, 0⟩,
  ⟨"ENROLL_CMD.OP", 0x80, 1, 0x0, 1, 0, 1, 0, .wo, 0⟩,
  ⟨"ENROLL_STAT", 0x84, 1, 0x0, 1, 0, 1, 0, .ro, 0⟩,
  ⟨"ROM_KEY", 0xA0, 1, 0x0, 16, 4, 31, 0, .ro, 0⟩]
/-- Fields of IRQ (02 R61). -/
def irqRows : List RegRow := [
  ⟨"PEND_LO", 0x40, 1, 0x0, 1, 0, 31, 0, .ro, 0⟩,
  ⟨"PEND_HI", 0x44, 1, 0x0, 1, 0, 31, 0, .ro, 0⟩,
  ⟨"HOLDOFF", 0x100, 1, 0x0, 64, 4, 15, 0, .rw, 0⟩]
/-- Fields of UNIT (14 R428). -/
def unitRows1 : List RegRow := [
  ⟨"UNIT_STAT.ACTIVE", 0x40, 1, 0x0, 1, 0, 31, 31, .ro, 0⟩,
  ⟨"UNIT_STAT.REDUNDANT", 0x40, 1, 0x0, 1, 0, 30, 30, .ro, 1⟩,
  ⟨"UNIT_STAT.A_STATE", 0x40, 1, 0x0, 1, 0, 27, 24, .ro, 0⟩,
  ⟨"UNIT_STAT.B_STATE", 0x40, 1, 0x0, 1, 0, 23, 20, .ro, 1⟩,
  ⟨"UNIT_STAT.A_WORD", 0x40, 1, 0x0, 1, 0, 17, 16, .ro, 0⟩,
  ⟨"UNIT_STAT.B_WORD", 0x40, 1, 0x0, 1, 0, 13, 12, .ro, 0⟩,
  ⟨"UNIT_STAT.PATH_MGMT_OK", 0x40, 1, 0x0, 1, 0, 9, 9, .ro, 1⟩,
  ⟨"UNIT_STAT.PATH_DIE_OK", 0x40, 1, 0x0, 1, 0, 8, 8, .ro, 1⟩,
  ⟨"UNIT_STAT.LAST_CAUSE", 0x40, 1, 0x0, 1, 0, 3, 0, .ro, 0⟩,
  ⟨"REVERT_COUNT", 0x44, 1, 0x0, 1, 0, 31, 16, .ro, 0⟩,
  ⟨"FAILOVER_COUNT", 0x44, 1, 0x0, 1, 0, 15, 0, .ro, 0⟩,
  ⟨"REV_DEFER", 0x48, 1, 0x0, 1, 0, 3, 0, .rw, 0⟩,
  ⟨"REV_DWELL", 0x4C, 1, 0x0, 1, 0, 5, 0, .rw, 10⟩,
  ⟨"REV_STAT.STATE", 0x50, 1, 0x0, 1, 0, 31, 30, .ro, 0⟩,
  ⟨"REV_STAT.DEFER_LEFT", 0x50, 1, 0x0, 1, 0, 27, 24, .ro, 0⟩,
  ⟨"REV_STAT.DWELL_LEFT", 0x50, 1, 0x0, 1, 0, 15, 0, .ro, 0⟩,
  ⟨"BLEAT_STAT.DIE_MISS", 0x54, 1, 0x0, 1, 0, 31, 24, .ro, 0⟩,
  ⟨"BLEAT_STAT.MGMT_MISS", 0x54, 1, 0x0, 1, 0, 23, 16, .ro, 0⟩,
  ⟨"PATH_FAULTS.MGMT", 0x58, 1, 0x0, 1, 0, 31, 16, .ro, 0⟩,
  ⟨"PATH_FAULTS.DIE", 0x58, 1, 0x0, 1, 0, 15, 0, .ro, 0⟩,
  ⟨"DIVERGE_COUNT", 0x5C, 1, 0x0, 1, 0, 31, 16, .ro, 0⟩,
  ⟨"UNEXPLAINED", 0x5C, 1, 0x0, 1, 0, 15, 0, .ro, 0⟩,
  ⟨"DIVERGE_INFO.FRAME", 0x60, 1, 0x0, 1, 0, 31, 16, .ro, 0⟩,
  ⟨"DIVERGE_INFO.ITEM", 0x60, 1, 0x0, 1, 0, 15, 12, .ro, 0⟩,
  ⟨"DIVERGE_INFO.INDEX", 0x60, 1, 0x0, 1, 0, 7, 0, .ro, 0⟩,
  ⟨"UNIT_CMD.KEY", 0x64, 1, 0x0, 1, 0, 31, 16, .wo, 0⟩,
  ⟨"UNIT_CMD.OP", 0x64, 1, 0x0, 1, 0, 3, 0, .wo, 0⟩,
  ⟨"A_PASSES", 0x68, 1, 0x0, 1, 0, 31, 0, .ro, 0⟩,
  ⟨"B_PASSES", 0x6C, 1, 0x0, 1, 0, 31, 0, .ro, 0⟩,
  ⟨"A_FAILS", 0x70, 1, 0x0, 1, 0, 31, 16, .ro, 0⟩,
  ⟨"B_FAILS", 0x70, 1, 0x0, 1, 0, 15, 0, .ro, 0⟩,
  ⟨"LAST_FAIL.UNIT", 0x74, 1, 0x0, 1, 0, 31, 31, .ro, 0⟩,
  ⟨"LAST_FAIL.CLASS", 0x74, 1, 0x0, 1, 0, 27, 24, .ro, 0⟩,
  ⟨"LAST_FAIL.BLOCK", 0x74, 1, 0x0, 1, 0, 23, 16, .ro, 0⟩,
  ⟨"LAST_FAIL.INDEX", 0x74, 1, 0x0, 1, 0, 15, 0, .ro, 0⟩,
  ⟨"REMAP_CTRL.AUTO", 0x78, 1, 0x0, 1, 0, 0, 0, .rw, 1⟩,
  ⟨"REMAP_REQ.KEY", 0x7C, 1, 0x0, 1, 0, 31, 16, .wo, 0⟩,
  ⟨"REMAP_REQ.KIND", 0x7C, 1, 0x0, 1, 0, 13, 12, .wo, 0⟩,
  ⟨"REMAP_REQ.INDEX", 0x7C, 1, 0x0, 1, 0, 7, 0, .wo, 0⟩,
  ⟨"REMAP_GO", 0x80, 1, 0x0, 1, 0, 31, 0, .wo, 0⟩]
/-- Fields of UNIT (14 R428). -/
def unitRows2 : List RegRow := [
  ⟨"SPARE_STAT.LS_FREE", 0x84, 1, 0x0, 1, 0, 31, 24, .ro, 16⟩,
  ⟨"SPARE_STAT.PL_FREE", 0x84, 1, 0x0, 1, 0, 23, 16, .ro, 8⟩,
  ⟨"SPARE_STAT.IP_FREE", 0x84, 1, 0x0, 1, 0, 15, 8, .ro, 1⟩,
  ⟨"SPARE_STAT.PENDING", 0x84, 1, 0x0, 1, 0, 7, 0, .ro, 0⟩,
  ⟨"SRAM_SPARE.FREE", 0x88, 1, 0x0, 1, 0, 31, 16, .ro, 1536⟩,
  ⟨"SRAM_SPARE.USED", 0x88, 1, 0x0, 1, 0, 15, 0, .ro, 0⟩,
  ⟨"CONFLICT_COUNT", 0x8C, 1, 0x0, 1, 0, 15, 0, .ro, 0⟩,
  ⟨"HEAD_MGMT_DOWN_LO", 0x90, 1, 0x0, 1, 0, 31, 0, .rw, 0⟩,
  ⟨"HEAD_MGMT_DOWN_HI", 0x94, 1, 0x0, 1, 0, 15, 0, .rw, 0⟩,
  ⟨"HEAD_MGMT_LIMIT_LO", 0x98, 1, 0x0, 1, 0, 31, 0, .rw, 0⟩,
  ⟨"HEAD_MGMT_LIMIT_HI", 0x9C, 1, 0x0, 1, 0, 15, 0, .rw, 0⟩,
  ⟨"HEAD_DOWN_LO", 0xA0, 1, 0x0, 1, 0, 31, 0, .ro, 0⟩,
  ⟨"HEAD_DOWN_HI", 0xA4, 1, 0x0, 1, 0, 15, 0, .ro, 0⟩,
  ⟨"HEAD_LIMITED_LO", 0xA8, 1, 0x0, 1, 0, 31, 0, .ro, 0⟩,
  ⟨"HEAD_LIMITED_HI", 0xAC, 1, 0x0, 1, 0, 15, 0, .ro, 0⟩,
  ⟨"HEALTH", 0xC0, 1, 0x0, 16, 4, 31, 0, .ro, 0⟩,
  ⟨"REMAP_Qi.STATE", 0x100, 1, 0x0, 16, 8, 31, 29, .ro, 0⟩,
  ⟨"REMAP_Qi.KIND", 0x100, 1, 0x0, 16, 8, 27, 24, .ro, 0⟩,
  ⟨"REMAP_Qi.FROM", 0x100, 1, 0x0, 16, 8, 23, 12, .ro, 0⟩,
  ⟨"REMAP_Qi.TO", 0x100, 1, 0x0, 16, 8, 11, 0, .ro, 0⟩,
  ⟨"REMAP_Qi.ROW", 0x104, 1, 0x0, 16, 8, 31, 0, .ro, 0⟩]
/-- Fields of TIME (15 R449). -/
def timeRows : List RegRow := [
  ⟨"TIME_INC_LO", 0x40, 1, 0x0, 1, 0, 31, 0, .rw, 0⟩,
  ⟨"TIME_INC_HI", 0x44, 1, 0x0, 1, 0, 1, 0, .rw, 2⟩,
  ⟨"SET_NS", 0x48, 1, 0x0, 1, 0, 29, 0, .rw, 0⟩,
  ⟨"SET_SEC_LO", 0x4C, 1, 0x0, 1, 0, 31, 0, .rw, 0⟩,
  ⟨"SET_SEC_HI", 0x50, 1, 0x0, 1, 0, 15, 0, .rw, 0⟩,
  ⟨"ADD_NS", 0x54, 1, 0x0, 1, 0, 31, 0, .rw, 0⟩,
  ⟨"ADD_SEC", 0x58, 1, 0x0, 1, 0, 31, 0, .rw, 0⟩,
  ⟨"TIME_CMD.KEY", 0x5C, 1, 0x0, 1, 0, 31, 16, .wo, 0⟩,
  ⟨"TIME_CMD.OP", 0x5C, 1, 0x0, 1, 0, 2, 0, .wo, 0⟩,
  ⟨"TIME_STAT.CAP_PENDING", 0x60, 1, 0x0, 1, 0, 1, 1, .ro, 0⟩,
  ⟨"TIME_STAT.STEP_PENDING", 0x60, 1, 0x0, 1, 0, 0, 0, .ro, 0⟩,
  ⟨"CAP_NS", 0x64, 1, 0x0, 1, 0, 29, 0, .ro, 0⟩,
  ⟨"CAP_SEC_LO", 0x68, 1, 0x0, 1, 0, 31, 0, .ro, 0⟩,
  ⟨"CAP_SEC_HI", 0x6C, 1, 0x0, 1, 0, 15, 0, .ro, 0⟩,
  ⟨"CAP_FRAC", 0x70, 1, 0x0, 1, 0, 31, 0, .ro, 0⟩,
  ⟨"CAP_FRAME_LO", 0x74, 1, 0x0, 1, 0, 31, 0, .ro, 0⟩,
  ⟨"CAP_FRAME_HI", 0x78, 1, 0x0, 1, 0, 31, 0, .ro, 0⟩,
  ⟨"CAP_CYCLE", 0x7C, 1, 0x0, 1, 0, 10, 0, .ro, 0⟩,
  ⟨"STEP_COUNT", 0x80, 1, 0x0, 1, 0, 15, 0, .ro, 0⟩,
  ⟨"TCMPk.CTRL.EN", 0x100, 1, 0x0, 8, 32, 0, 0, .rw, 0⟩,
  ⟨"TCMPk.TARGET_NS", 0x104, 1, 0x0, 8, 32, 29, 0, .rw, 0⟩,
  ⟨"TCMPk.TARGET_SEC_LO", 0x108, 1, 0x0, 8, 32, 31, 0, .rw, 0⟩,
  ⟨"TCMPk.TARGET_SEC_HI", 0x10C, 1, 0x0, 8, 32, 15, 0, .rw, 0⟩,
  ⟨"TCMPk.PERIOD", 0x110, 1, 0x0, 8, 32, 31, 0, .rw, 0⟩,
  ⟨"TCMPk.STAT.ARMED", 0x114, 1, 0x0, 8, 32, 31, 31, .ro, 0⟩,
  ⟨"TCMPk.STAT.MISSED", 0x114, 1, 0x0, 8, 32, 15, 0, .ro, 0⟩]
/-- Fields of EVR (15 R450). -/
def evrRows : List RegRow := [
  ⟨"REGION_LO", 0x40, 1, 0x0, 1, 0, 31, 0, .ro, 0⟩,
  ⟨"REGION_HI", 0x44, 1, 0x0, 1, 0, 31, 0, .ro, 0⟩,
  ⟨"KEEP_END", 0x48, 1, 0x0, 1, 0, 21, 0, .ro, 0⟩,
  ⟨"KEEP_STAT.FULL", 0x4C, 1, 0x0, 1, 0, 31, 31, .ro, 0⟩,
  ⟨"KEEP_STAT.COUNT", 0x4C, 1, 0x0, 1, 0, 23, 0, .ro, 0⟩,
  ⟨"EVR_CMD.SNAP", 0x50, 1, 0x0, 1, 0, 0, 0, .wo, 0⟩,
  ⟨"SNAP_HEAD_SEQ_LO", 0x54, 1, 0x0, 1, 0, 31, 0, .ro, 0⟩,
  ⟨"SNAP_HEAD_SEQ_HI", 0x58, 1, 0x0, 1, 0, 31, 0, .ro, 0⟩,
  ⟨"SNAP_HEAD_OFS", 0x5C, 1, 0x0, 1, 0, 21, 0, .ro, 0⟩,
  ⟨"SNAP_OLD_SEQ_LO", 0x60, 1, 0x0, 1, 0, 31, 0, .ro, 0⟩,
  ⟨"SNAP_OLD_SEQ_HI", 0x64, 1, 0x0, 1, 0, 31, 0, .ro, 0⟩,
  ⟨"SNAP_OLD_OFS", 0x68, 1, 0x0, 1, 0, 21, 0, .ro, 0⟩,
  ⟨"CNT_LOST", 0x6C, 1, 0x0, 1, 0, 31, 0, .ro, 0⟩,
  ⟨"QUEUE.PEAK", 0x70, 1, 0x0, 1, 0, 26, 16, .ro, 0⟩,
  ⟨"QUEUE.NOW", 0x70, 1, 0x0, 1, 0, 10, 0, .ro, 0⟩,
  ⟨"WRAP_LAPS", 0x74, 1, 0x0, 1, 0, 31, 0, .ro, 0⟩]
/-- Fields of HK (16 R471). -/
def hkRows : List RegRow := [
  ⟨"THERM_STAT.LEVEL", 0x40, 1, 0x0, 1, 0, 29, 28, .ro, 0⟩,
  ⟨"THERM_STAT.THR_LEVEL", 0x40, 1, 0x0, 1, 0, 26, 24, .ro, 0⟩,
  ⟨"THERM_STAT.RISE", 0x40, 1, 0x0, 1, 0, 20, 20, .ro, 0⟩,
  ⟨"THERM_STAT.SENSOR_BROKEN", 0x40, 1, 0x0, 1, 0, 19, 19, .ro, 0⟩,
  ⟨"THERM_STAT.T_DIE", 0x40, 1, 0x0, 1, 0, 15, 0, .ro, 0⟩,
  ⟨"T_WARN", 0x44, 1, 0x0, 1, 0, 15, 0, .rw, 0⟩,
  ⟨"T_THROTTLE", 0x48, 1, 0x0, 1, 0, 15, 0, .rw, 0⟩,
  ⟨"T_CRIT", 0x4C, 1, 0x0, 1, 0, 15, 0, .rw, 0⟩,
  ⟨"RISE_LIM", 0x50, 1, 0x0, 1, 0, 15, 0, .rw, 32⟩,
  ⟨"THR_MIN", 0x54, 1, 0x0, 1, 0, 2, 0, .rw, 0⟩,
  ⟨"ROUND_COUNT", 0x58, 1, 0x0, 1, 0, 31, 0, .ro, 0⟩,
  ⟨"T_PEAK", 0x5C, 1, 0x0, 1, 0, 15, 0, .ro, 32768⟩,
  ⟨"SUPPLY_STAT", 0x60, 1, 0x0, 1, 0, 15, 0, .ro, 0⟩,
  ⟨"CNT_BROKEN", 0x64, 1, 0x0, 1, 0, 15, 0, .ro, 0⟩,
  ⟨"T_RISE", 0x68, 1, 0x0, 1, 0, 15, 0, .ro, 0⟩,
  ⟨"HK_CHc.BROKEN", 0x80, 1, 0x0, 16, 4, 31, 31, .ro, 0⟩,
  ⟨"HK_CHc.OUT_OF_WINDOW", 0x80, 1, 0x0, 16, 4, 30, 30, .ro, 0⟩,
  ⟨"HK_CHc.VALUE", 0x80, 1, 0x0, 16, 4, 15, 0, .ro, 0⟩]
/-- Fields of CAL (16 R472). -/
def calRows : List RegRow := [
  ⟨"CAL_CMD.KEY", 0x40, 1, 0x0, 1, 0, 31, 16, .wo, 0⟩,
  ⟨"CAL_CMD.HEAD", 0x40, 1, 0x0, 1, 0, 13, 8, .wo, 0⟩,
  ⟨"CAL_CMD.TYPE", 0x40, 1, 0x0, 1, 0, 6, 4, .wo, 0⟩,
  ⟨"CAL_CMD.OP", 0x40, 1, 0x0, 1, 0, 3, 0, .wo, 0⟩,
  ⟨"CAL_RESULT.OP", 0x44, 1, 0x0, 1, 0, 31, 28, .ro, 0⟩,
  ⟨"CAL_RESULT.CODE", 0x44, 1, 0x0, 1, 0, 3, 0, .ro, 0⟩,
  ⟨"CAND_LO", 0x48, 1, 0x0, 1, 0, 31, 3, .rw, 0⟩,
  ⟨"CAND_HI", 0x4C, 1, 0x0, 1, 0, 31, 0, .rw, 0⟩,
  ⟨"NOR_ADDR", 0x50, 1, 0x0, 1, 0, 22, 0, .rw, 0⟩,
  ⟨"NOR_LEN", 0x54, 1, 0x0, 1, 0, 8, 0, .rw, 0⟩,
  ⟨"RUN_STAT.STATE", 0x58, 1, 0x0, 1, 0, 29, 28, .ro, 0⟩,
  ⟨"RUN_STAT.HEAD", 0x58, 1, 0x0, 1, 0, 13, 8, .ro, 0⟩,
  ⟨"RUN_STAT.TYPE", 0x58, 1, 0x0, 1, 0, 6, 4, .ro, 0⟩,
  ⟨"DIFF_WORD", 0x5C, 1, 0x0, 1, 0, 15, 0, .ro, 0⟩,
  ⟨"TOLt.REL", 0x60, 1, 0x0, 5, 4, 31, 16, .rw, 0⟩,
  ⟨"TOLt.ABS", 0x60, 1, 0x0, 5, 4, 15, 0, .rw, 4⟩,
  ⟨"CAL_STATh.VALID", 0x80, 1, 0x0, 48, 4, 20, 16, .ro, 0⟩,
  ⟨"CAL_STATh.STALE", 0x80, 1, 0x0, 48, 4, 12, 8, .ro, 0⟩,
  ⟨"CAL_STATh.SERIAL_MISMATCH", 0x80, 1, 0x0, 48, 4, 4, 4, .ro, 0⟩,
  ⟨"NOR_BUF", 0x200, 1, 0x0, 64, 4, 31, 0, .rw, 0⟩]
/-- Fields of SEQ (03 R111). -/
def seqRows : List RegRow := [
  ⟨"SEQ_STAT.RESUMED", 0x40, 1, 0x0, 1, 0, 20, 20, .ro, 0⟩,
  ⟨"SEQ_STAT.STEP", 0x40, 1, 0x0, 1, 0, 19, 16, .ro, 0⟩,
  ⟨"SEQ_STAT.PC", 0x40, 1, 0x0, 1, 0, 11, 0, .ro, 0⟩,
  ⟨"TBL_LEN", 0x44, 1, 0x0, 1, 0, 12, 0, .rw, 0⟩,
  ⟨"TBL_STAT.ERR_ENTRY", 0x48, 1, 0x0, 1, 0, 27, 16, .ro, 0⟩,
  ⟨"TBL_STAT.ERR_CODE", 0x48, 1, 0x0, 1, 0, 15, 8, .ro, 0⟩,
  ⟨"TBL_STAT.VALID", 0x48, 1, 0x0, 1, 0, 0, 0, .ro, 0⟩,
  ⟨"TBL_CHECK", 0x4C, 1, 0x0, 1, 0, 0, 0, .wo, 0⟩,
  ⟨"LQ_BASE_LO", 0x50, 1, 0x0, 1, 0, 31, 10, .rw, 0⟩,
  ⟨"LQ_BASE_HI", 0x54, 1, 0x0, 1, 0, 31, 0, .rw, 0⟩,
  ⟨"LQ_ENTRIES", 0x58, 1, 0x0, 1, 0, 12, 0, .rw, 0⟩,
  ⟨"LQ_RD", 0x5C, 1, 0x0, 1, 0, 11, 0, .ro, 0⟩,
  ⟨"LQ_CTRL.RESET", 0x60, 1, 0x0, 1, 0, 0, 0, .wo, 0⟩,
  ⟨"LAYER_NUM", 0x64, 1, 0x0, 1, 0, 31, 0, .ro, 0⟩,
  ⟨"LAYER_STAT.LAST", 0x68, 1, 0x0, 1, 0, 1, 1, .ro, 0⟩,
  ⟨"LAYER_STAT.OPEN", 0x68, 1, 0x0, 1, 0, 0, 0, .ro, 0⟩,
  ⟨"LAYER_FRAMES", 0x6C, 1, 0x0, 1, 0, 31, 0, .ro, 0⟩,
  ⟨"CTX_COMMIT.POINT", 0x70, 1, 0x0, 1, 0, 8, 8, .wo, 0⟩,
  ⟨"CTX_COMMIT.CTX", 0x70, 1, 0x0, 1, 0, 7, 0, .wo, 0⟩,
  ⟨"RESUME_ENTRY", 0x74, 1, 0x0, 1, 0, 11, 0, .ro, 0⟩,
  ⟨"STALL_INFO.ENTRY", 0x78, 1, 0x0, 1, 0, 31, 16, .ro, 0⟩,
  ⟨"CONTINUE", 0x7C, 1, 0x0, 1, 0, 15, 0, .wo, 0⟩,
  ⟨"CTX_PEND", 0x80, 1, 0x0, 8, 4, 31, 0, .ro, 0⟩]
/-- Fields of HD (03 R112, 04 R156). -/
def hdRows1 : List RegRow := [
  ⟨"PLAN_STAT.CTX", 0x100, 1, 0x0, 1, 0, 15, 8, .ro, 0⟩,
  ⟨"PLAN_STAT.STATE", 0x100, 1, 0x0, 1, 0, 3, 0, .ro, 0⟩,
  ⟨"REC_INDEX", 0x104, 1, 0x0, 1, 0, 31, 0, .ro, 0⟩,
  ⟨"REC_AVAIL", 0x108, 1, 0x0, 1, 0, 6, 0, .ro, 0⟩,
  ⟨"STREAM_RETRY", 0x10C, 1, 0x0, 1, 0, 31, 0, .wo, 0⟩,
  ⟨"LIM_VMAX_X", 0x110, 1, 0x0, 1, 0, 23, 0, .rws, 0⟩,
  ⟨"LIM_AMAX_X", 0x114, 1, 0x0, 1, 0, 23, 0, .rws, 0⟩,
  ⟨"LIM_VMAX_Y", 0x118, 1, 0x0, 1, 0, 23, 0, .rws, 0⟩,
  ⟨"LIM_AMAX_Y", 0x11C, 1, 0x0, 1, 0, 23, 0, .rws, 0⟩,
  ⟨"LIM_VMAX_F", 0x120, 1, 0x0, 1, 0, 23, 0, .rws, 0⟩,
  ⟨"LIM_AMAX_F", 0x124, 1, 0x0, 1, 0, 23, 0, .rws, 0⟩,
  ⟨"CLIP_TOL", 0x128, 1, 0x0, 1, 0, 15, 0, .rws, 16⟩,
  ⟨"CLIP_COUNT", 0x12C, 1, 0x0, 1, 0, 15, 0, .ro, 0⟩,
  ⟨"STRETCH_COUNT", 0x130, 1, 0x0, 1, 0, 15, 0, .ro, 0⟩,
  ⟨"CAL_ON_FWD", 0x140, 1, 0x0, 1, 0, 31, 0, .ro, 0⟩,
  ⟨"CAL_OFF_FWD", 0x144, 1, 0x0, 1, 0, 31, 0, .ro, 0⟩,
  ⟨"CAL_ON_REV", 0x148, 1, 0x0, 1, 0, 31, 0, .ro, 0⟩,
  ⟨"CAL_OFF_REV", 0x14C, 1, 0x0, 1, 0, 31, 0, .ro, 0⟩,
  ⟨"CAL_ALIGN_FWD", 0x150, 1, 0x0, 1, 0, 31, 0, .ro, 0⟩,
  ⟨"CAL_ALIGN_REV", 0x154, 1, 0x0, 1, 0, 31, 0, .ro, 0⟩,
  ⟨"FC_CX", 0x180, 1, 0x0, 1, 0, 31, 0, .ro, 0⟩,
  ⟨"FC_CY", 0x184, 1, 0x0, 1, 0, 31, 0, .ro, 0⟩,
  ⟨"FC_PITCH", 0x188, 1, 0x0, 1, 0, 31, 0, .ro, 0⟩,
  ⟨"FC_M00", 0x18C, 1, 0x0, 1, 0, 31, 0, .ro, 0⟩,
  ⟨"FC_M01", 0x190, 1, 0x0, 1, 0, 31, 0, .ro, 0⟩,
  ⟨"FC_M10", 0x194, 1, 0x0, 1, 0, 31, 0, .ro, 0⟩,
  ⟨"FC_M11", 0x198, 1, 0x0, 1, 0, 31, 0, .ro, 0⟩,
  ⟨"FC_KF", 0x19C, 1, 0x0, 1, 0, 31, 0, .ro, 0⟩,
  ⟨"FC_STAT.OOF_COUNT", 0x1A0, 1, 0x0, 1, 0, 31, 16, .ro, 0⟩,
  ⟨"FC_STAT.ECC_CORR", 0x1A0, 1, 0x0, 1, 0, 15, 8, .ro, 0⟩,
  ⟨"FC_STAT.HOST_WRITTEN", 0x1A0, 1, 0x0, 1, 0, 1, 1, .ro, 0⟩,
  ⟨"FC_STAT.VALID", 0x1A0, 1, 0x0, 1, 0, 0, 0, .ro, 0⟩,
  ⟨"PARK_X", 0x1A4, 1, 0x0, 1, 0, 31, 0, .rws, 0⟩,
  ⟨"PARK_Y", 0x1A8, 1, 0x0, 1, 0, 31, 0, .rws, 0⟩,
  ⟨"PARK_F", 0x1AC, 1, 0x0, 1, 0, 31, 0, .rws, 0⟩,
  ⟨"PARK_TIME", 0x1B0, 1, 0x0, 1, 0, 31, 16, .rws, 200⟩,
  ⟨"PARK_TOL", 0x1B0, 1, 0x0, 1, 0, 15, 0, .rws, 32⟩,
  ⟨"FC_ACCEPT", 0x1B4, 1, 0x0, 1, 0, 15, 0, .wo, 0⟩,
  ⟨"SERVO_RESTART", 0x1B4, 1, 0x0, 1, 0, 31, 16, .wo, 0⟩,
  ⟨"SERVO_SLOTS.F", 0x1B8, 1, 0x0, 1, 0, 23, 16, .ro, 0⟩]
/-- Fields of HD (04 R156, 05 R196, 06 R231). -/
def hdRows2 : List RegRow := [
  ⟨"SERVO_SLOTS.Y", 0x1B8, 1, 0x0, 1, 0, 15, 8, .ro, 0⟩,
  ⟨"SERVO_SLOTS.X", 0x1B8, 1, 0x0, 1, 0, 7, 0, .ro, 0⟩,
  ⟨"PARK_REQ", 0x1BC, 1, 0x0, 1, 0, 0, 0, .wo, 0⟩,
  ⟨"FIRE_CTRL.PGROUP", 0x200, 1, 0x0, 1, 0, 18, 16, .rws, 0⟩,
  ⟨"FIRE_CTRL.JITTER_WIN", 0x200, 1, 0x0, 1, 0, 15, 8, .rws, 2⟩,
  ⟨"FIRE_CTRL.MODE", 0x200, 1, 0x0, 1, 0, 0, 0, .rws, 0⟩,
  ⟨"FIRE_MAX_HZ", 0x204, 1, 0x0, 1, 0, 23, 0, .ro, 0⟩,
  ⟨"MIN_OFF", 0x208, 1, 0x0, 1, 0, 15, 0, .ro, 0⟩,
  ⟨"PWR_GAIN", 0x20C, 1, 0x0, 1, 0, 31, 0, .ro, 0⟩,
  ⟨"PWR_OFS", 0x210, 1, 0x0, 1, 0, 15, 0, .ro, 0⟩,
  ⟨"GATE_CTRL.PERIOD", 0x214, 1, 0x0, 1, 0, 23, 16, .rws, 16⟩,
  ⟨"GATE_CTRL.RISE", 0x214, 1, 0x0, 1, 0, 11, 0, .rws, 200⟩,
  ⟨"DROP_CTRL.FAIL_Q", 0x218, 1, 0x0, 1, 0, 31, 16, .rws, 64⟩,
  ⟨"DROP_CTRL.LIMIT", 0x218, 1, 0x0, 1, 0, 7, 0, .rws, 8⟩,
  ⟨"FIRE_FLAGS.EDGE_LATE", 0x21C, 1, 0x0, 1, 0, 8, 8, .w1c, 0⟩,
  ⟨"FIRE_FLAGS.DWELL_MISS", 0x21C, 1, 0x0, 1, 0, 7, 7, .w1c, 0⟩,
  ⟨"FIRE_FLAGS.DUTY_OVERSIZE", 0x21C, 1, 0x0, 1, 0, 6, 6, .w1c, 0⟩,
  ⟨"FIRE_FLAGS.DUTY_OVERRUN", 0x21C, 1, 0x0, 1, 0, 5, 5, .w1c, 0⟩,
  ⟨"FIRE_FLAGS.ORDER", 0x21C, 1, 0x0, 1, 0, 3, 3, .w1c, 0⟩,
  ⟨"FIRE_FLAGS.UNDER_DENSE", 0x21C, 1, 0x0, 1, 0, 2, 2, .w1c, 0⟩,
  ⟨"FIRE_FLAGS.REVERSAL", 0x21C, 1, 0x0, 1, 0, 1, 1, .w1c, 0⟩,
  ⟨"FIRE_FLAGS.DROPOUT", 0x21C, 1, 0x0, 1, 0, 0, 0, .w1c, 0⟩,
  ⟨"DROP_COUNT", 0x220, 1, 0x0, 1, 0, 31, 16, .ro, 0⟩,
  ⟨"UNDER_DENSE_COUNT", 0x220, 1, 0x0, 1, 0, 15, 0, .ro, 0⟩,
  ⟨"START_WAITS", 0x224, 1, 0x0, 1, 0, 31, 16, .ro, 0⟩,
  ⟨"REVERSAL_COUNT", 0x224, 1, 0x0, 1, 0, 15, 0, .ro, 0⟩,
  ⟨"DUTY_LEVEL", 0x228, 1, 0x0, 1, 0, 31, 0, .ro, 0⟩,
  ⟨"PWR_CODE_NOW", 0x22C, 1, 0x0, 1, 0, 15, 0, .ro, 0⟩,
  ⟨"DWELL_TOL", 0x230, 1, 0x0, 1, 0, 15, 0, .rws, 1000⟩,
  ⟨"CAS_STAT.WRITE_PENDING", 0x280, 1, 0x0, 1, 0, 8, 8, .ro, 0⟩,
  ⟨"CAS_STAT.STATE", 0x280, 1, 0x0, 1, 0, 3, 0, .ro, 0⟩,
  ⟨"CAS_SERIAL_LO", 0x284, 1, 0x0, 1, 0, 31, 0, .ro, 0⟩,
  ⟨"CAS_SERIAL_HI", 0x288, 1, 0x0, 1, 0, 31, 0, .ro, 0⟩,
  ⟨"CAS_USED_LO", 0x28C, 1, 0x0, 1, 0, 31, 0, .ro, 0⟩,
  ⟨"CAS_USED_HI", 0x290, 1, 0x0, 1, 0, 31, 0, .ro, 0⟩,
  ⟨"CAS_LIMIT_LO", 0x294, 1, 0x0, 1, 0, 31, 0, .ro, 0⟩,
  ⟨"CAS_LIMIT_HI", 0x298, 1, 0x0, 1, 0, 31, 0, .ro, 0⟩,
  ⟨"CAS_SEQ", 0x29C, 1, 0x0, 1, 0, 31, 0, .ro, 0⟩,
  ⟨"CAS_REREAD", 0x2A0, 1, 0x0, 1, 0, 31, 0, .wo, 0⟩,
  ⟨"IBEX_STAT.HELD", 0x300, 1, 0x0, 1, 0, 31, 31, .ro, 0⟩]
/-- Fields of HD (06 R231, 07 R255, 09 R311). -/
def hdRows3 : List RegRow := [
  ⟨"IBEX_STAT.SPLIT", 0x300, 1, 0x0, 1, 0, 30, 30, .ro, 0⟩,
  ⟨"IBEX_STAT.HOLD_BY", 0x300, 1, 0x0, 1, 0, 21, 16, .ro, 0⟩,
  ⟨"IBEX_STAT.HOLD_FRAMES", 0x300, 1, 0x0, 1, 0, 15, 0, .ro, 0⟩,
  ⟨"HO_QUEUED", 0x304, 1, 0x0, 1, 0, 31, 0, .ro, 0⟩,
  ⟨"HO_ITEMS", 0x308, 1, 0x0, 1, 0, 15, 0, .ro, 0⟩,
  ⟨"FAIL.FAILED", 0x30C, 1, 0x0, 1, 0, 8, 8, .ro, 0⟩,
  ⟨"FAIL.CAUSE", 0x30C, 1, 0x0, 1, 0, 7, 0, .ro, 0⟩,
  ⟨"SPLIT_COUNT", 0x310, 1, 0x0, 1, 0, 31, 16, .ro, 0⟩,
  ⟨"HOLD_COUNT", 0x310, 1, 0x0, 1, 0, 15, 0, .ro, 0⟩,
  ⟨"REJOIN", 0x314, 1, 0x0, 1, 0, 15, 0, .wo, 0⟩,
  ⟨"PD_GAIN_A", 0x340, 1, 0x0, 1, 0, 31, 0, .ro, 0⟩,
  ⟨"PD_GAIN_B", 0x344, 1, 0x0, 1, 0, 31, 0, .ro, 0⟩,
  ⟨"PD_DARK_A", 0x348, 1, 0x0, 1, 0, 15, 0, .ro, 0⟩,
  ⟨"PD_DARK_B", 0x34C, 1, 0x0, 1, 0, 15, 0, .ro, 0⟩,
  ⟨"PD_STAT.SAT_COUNT", 0x350, 1, 0x0, 1, 0, 31, 16, .ro, 0⟩,
  ⟨"PD_STAT.VALID", 0x350, 1, 0x0, 1, 0, 0, 0, .ro, 0⟩,
  ⟨"PD_SUM_A_NOW", 0x354, 1, 0x0, 1, 0, 19, 0, .ro, 0⟩,
  ⟨"PD_SUM_B_NOW", 0x358, 1, 0x0, 1, 0, 19, 0, .ro, 0⟩,
  ⟨"PL_SLOT", 0x35C, 1, 0x0, 1, 0, 5, 0, .ro, 0⟩,
  ⟨"LANE_CTRL.RETRY_MAX", 0x380, 1, 0x0, 1, 0, 23, 20, .rw, 8⟩,
  ⟨"LANE_CTRL.RETRY_TMO", 0x380, 1, 0x0, 1, 0, 19, 16, .rw, 4⟩,
  ⟨"LANE_CTRL.LOSS_FRAMES", 0x380, 1, 0x0, 1, 0, 11, 8, .rw, 3⟩,
  ⟨"LANE_CTRL.RETRAIN", 0x380, 1, 0x0, 1, 0, 1, 1, .wo, 0⟩,
  ⟨"LANE_CTRL.EN", 0x380, 1, 0x0, 1, 0, 0, 0, .rw, 0⟩,
  ⟨"LANE_STAT.FAULT_CODE", 0x384, 1, 0x0, 1, 0, 23, 16, .ro, 0⟩,
  ⟨"LANE_STAT.LOSS_CAUSE", 0x384, 1, 0x0, 1, 0, 11, 8, .ro, 0⟩,
  ⟨"LANE_STAT.STATE", 0x384, 1, 0x0, 1, 0, 3, 0, .ro, 0⟩,
  ⟨"RTD", 0x388, 1, 0x0, 1, 0, 9, 0, .ro, 0⟩,
  ⟨"CNT_US_MISSING", 0x38C, 1, 0x0, 1, 0, 31, 16, .ro, 0⟩,
  ⟨"CNT_DS_ERR", 0x38C, 1, 0x0, 1, 0, 15, 0, .ro, 0⟩,
  ⟨"CNT_CODE_ERR", 0x390, 1, 0x0, 1, 0, 31, 16, .ro, 0⟩,
  ⟨"CNT_RESEND", 0x390, 1, 0x0, 1, 0, 15, 0, .ro, 0⟩,
  ⟨"CNT_MSG_UNKNOWN", 0x394, 1, 0x0, 1, 0, 31, 16, .ro, 0⟩,
  ⟨"CNT_LOSS", 0x394, 1, 0x0, 1, 0, 15, 0, .ro, 0⟩,
  ⟨"CNT_CLEAR", 0x398, 1, 0x0, 1, 0, 31, 0, .wo, 0⟩,
  ⟨"HEAD_STAT.TEMP", 0x39C, 1, 0x0, 1, 0, 31, 16, .ro, 0⟩,
  ⟨"HEAD_STAT.FAULT_CODE", 0x39C, 1, 0x0, 1, 0, 15, 8, .ro, 0⟩,
  ⟨"HEAD_STAT.HEAD_FAULT", 0x39C, 1, 0x0, 1, 0, 2, 2, .ro, 0⟩,
  ⟨"HEAD_STAT.STATE", 0x39C, 1, 0x0, 1, 0, 1, 0, .ro, 0⟩,
  ⟨"CAP_ID.MODEL", 0x3A0, 1, 0x0, 1, 0, 31, 16, .ro, 0⟩]
/-- Fields of HD (09 R311). -/
def hdRows4 : List RegRow := [
  ⟨"CAP_ID.VENDOR", 0x3A0, 1, 0x0, 1, 0, 15, 0, .ro, 0⟩,
  ⟨"CAP_SERIAL_LO", 0x3A4, 1, 0x0, 1, 0, 31, 0, .ro, 0⟩,
  ⟨"CAP_SERIAL_HI", 0x3A8, 1, 0x0, 1, 0, 31, 0, .ro, 0⟩,
  ⟨"CAP_INFO.TURN", 0x3AC, 1, 0x0, 1, 0, 31, 24, .ro, 0⟩,
  ⟨"CAP_INFO.SAMPLE_OFS", 0x3AC, 1, 0x0, 1, 0, 23, 16, .ro, 0⟩,
  ⟨"CAP_INFO.FEATURES", 0x3AC, 1, 0x0, 1, 0, 15, 0, .ro, 0⟩,
  ⟨"LINK_ACCEPT", 0x3B0, 1, 0x0, 1, 0, 15, 0, .wo, 0⟩,
  ⟨"MSG_TX", 0x400, 1, 0x0, 16, 4, 31, 0, .rw, 0⟩,
  ⟨"MSG_TX_LEN", 0x440, 1, 0x0, 1, 0, 6, 0, .rw, 0⟩,
  ⟨"MSG_TX_GO", 0x444, 1, 0x0, 1, 0, 31, 0, .wo, 0⟩,
  ⟨"MSG_TX_STAT", 0x448, 1, 0x0, 1, 0, 1, 0, .ro, 0⟩,
  ⟨"MSG_RX", 0x480, 1, 0x0, 16, 4, 31, 0, .ro, 0⟩,
  ⟨"MSG_RX_STAT.LOST", 0x4C0, 1, 0x0, 1, 0, 31, 16, .ro, 0⟩,
  ⟨"MSG_RX_STAT.FULL", 0x4C0, 1, 0x0, 1, 0, 8, 8, .ro, 0⟩,
  ⟨"MSG_RX_STAT.LEN", 0x4C0, 1, 0x0, 1, 0, 6, 0, .ro, 0⟩,
  ⟨"MSG_RX_FREE", 0x4C4, 1, 0x0, 1, 0, 31, 0, .wo, 0⟩]
/-- Fields of LOOP (04 R155). -/
def loopRows : List RegRow := [
  ⟨"SUM_FAULT", 0x40, 1, 0x0, 1, 0, 15, 0, .ro, 0⟩,
  ⟨"SUM_FB", 0x44, 1, 0x0, 1, 0, 15, 0, .ro, 0⟩,
  ⟨"SUM_FLAG", 0x48, 1, 0x0, 1, 0, 15, 0, .ro, 0⟩,
  ⟨"TRACE_ARM", 0x4C, 1, 0x0, 1, 0, 15, 0, .wo, 0⟩,
  ⟨"TRACE_FORCE", 0x50, 1, 0x0, 1, 0, 15, 0, .wo, 0⟩,
  ⟨"TRACE_BASE_LO", 0x54, 1, 0x0, 1, 0, 31, 20, .rw, 0⟩,
  ⟨"TRACE_BASE_HI", 0x58, 1, 0x0, 1, 0, 31, 0, .rw, 0⟩]
/-- Fields of SLOT (04 R155). -/
def slotRows1 : List RegRow := [
  ⟨"SLOT_CTRL.HOLD_SET", 0x80, 16, 0xF8, 1, 0, 13, 12, .rws, 0⟩,
  ⟨"SLOT_CTRL.SET_OVR_EN", 0x80, 16, 0xF8, 1, 0, 9, 9, .rws, 0⟩,
  ⟨"SLOT_CTRL.SET_OVR", 0x80, 16, 0xF8, 1, 0, 5, 4, .rws, 0⟩,
  ⟨"SLOT_CTRL.FB_FORCE", 0x80, 16, 0xF8, 1, 0, 1, 1, .rws, 0⟩,
  ⟨"SLOT_CTRL.EN", 0x80, 16, 0xF8, 1, 0, 0, 0, .rws, 0⟩,
  ⟨"SLOT_MAP.MAPPED", 0x84, 16, 0xF8, 1, 0, 31, 31, .ro, 0⟩,
  ⟨"SLOT_MAP.AXIS", 0x84, 16, 0xF8, 1, 0, 9, 8, .ro, 0⟩,
  ⟨"SLOT_MAP.HEAD", 0x84, 16, 0xF8, 1, 0, 5, 0, .ro, 0⟩,
  ⟨"SLOT_STAT.FE_COUNT", 0x88, 16, 0xF8, 1, 0, 31, 16, .ro, 0⟩,
  ⟨"SLOT_STAT.COAST_COUNT", 0x88, 16, 0xF8, 1, 0, 15, 12, .ro, 0⟩,
  ⟨"SLOT_STAT.SET", 0x88, 16, 0xF8, 1, 0, 9, 8, .ro, 0⟩,
  ⟨"SLOT_STAT.MODE", 0x88, 16, 0xF8, 1, 0, 3, 0, .ro, 0⟩,
  ⟨"SLOT_FLAGS.REMAPPED", 0x8C, 16, 0xF8, 1, 0, 10, 10, .w1c, 0⟩,
  ⟨"SLOT_FLAGS.TRACE_GAP", 0x8C, 16, 0xF8, 1, 0, 9, 9, .w1c, 0⟩,
  ⟨"SLOT_FLAGS.FE_FAULT", 0x8C, 16, 0xF8, 1, 0, 8, 8, .w1c, 0⟩,
  ⟨"SLOT_FLAGS.PARK_CURRENT", 0x8C, 16, 0xF8, 1, 0, 7, 7, .w1c, 0⟩,
  ⟨"SLOT_FLAGS.FB_POS", 0x8C, 16, 0xF8, 1, 0, 6, 6, .w1c, 0⟩,
  ⟨"SLOT_FLAGS.FB_SAT", 0x8C, 16, 0xF8, 1, 0, 5, 5, .w1c, 0⟩,
  ⟨"SLOT_FLAGS.SAT", 0x8C, 16, 0xF8, 1, 0, 4, 0, .w1c, 0⟩,
  ⟨"FE_LIM", 0x90, 16, 0xF8, 1, 0, 31, 0, .rws, 0⟩,
  ⟨"SAT_LIMIT", 0x94, 16, 0xF8, 1, 0, 31, 16, .rws, 0⟩,
  ⟨"FE_TIME", 0x94, 16, 0xF8, 1, 0, 15, 0, .rws, 0⟩,
  ⟨"RECOVER", 0x98, 16, 0xF8, 1, 0, 31, 24, .rws, 64⟩,
  ⟨"COAST_MAX", 0x98, 16, 0xF8, 1, 0, 19, 16, .rws, 8⟩,
  ⟨"IMAX", 0x98, 16, 0xF8, 1, 0, 14, 0, .rws, 0⟩,
  ⟨"KV", 0x9C, 16, 0xF8, 1, 0, 31, 0, .rws, 0⟩,
  ⟨"KA", 0xA0, 16, 0xF8, 1, 0, 31, 0, .rws, 0⟩,
  ⟨"FE_NOW", 0xA4, 16, 0xF8, 1, 0, 31, 0, .ro, 0⟩,
  ⟨"CMD_NOW", 0xA8, 16, 0xF8, 1, 0, 15, 0, .ro, 0⟩,
  ⟨"TRACE_SEL", 0xAC, 16, 0xF8, 1, 0, 19, 0, .rw, 0⟩,
  ⟨"TRACE_TRIG.PRE", 0xB0, 16, 0xF8, 1, 0, 31, 20, .rw, 0⟩,
  ⟨"TRACE_TRIG.SRC", 0xB0, 16, 0xF8, 1, 0, 2, 0, .rw, 0⟩,
  ⟨"TRACE_LEVEL", 0xB4, 16, 0xF8, 1, 0, 31, 0, .rw, 0⟩,
  ⟨"TRACE_STAT.TRIG_INDEX", 0xB8, 16, 0xF8, 1, 0, 31, 20, .ro, 0⟩,
  ⟨"TRACE_STAT.VALID_PRE", 0xB8, 16, 0xF8, 1, 0, 19, 8, .ro, 0⟩,
  ⟨"TRACE_STAT.GAP_COUNT", 0xB8, 16, 0xF8, 1, 0, 7, 4, .ro, 0⟩,
  ⟨"TRACE_STAT.STATE", 0xB8, 16, 0xF8, 1, 0, 1, 0, .ro, 0⟩,
  ⟨"OBS_KA", 0xBC, 16, 0xF8, 1, 0, 31, 0, .rws, 0⟩,
  ⟨"OBS_AI", 0xC0, 16, 0xF8, 1, 0, 31, 0, .rws, 0⟩,
  ⟨"OBS_BI", 0xC4, 16, 0xF8, 1, 0, 31, 0, .rws, 0⟩]
/-- Fields of SLOT (04 R155). -/
def slotRows2 : List RegRow := [
  ⟨"OBS_L", 0xC8, 16, 0xF8, 8, 4, 31, 0, .rws, 0⟩,
  ⟨"OBS_K", 0xE8, 16, 0xF8, 4, 4, 31, 0, .rws, 0⟩,
  ⟨"SETk.B0", 0xF8, 16, 0xF8, 4, 32, 31, 0, .rws, 0⟩,
  ⟨"SETk.B1", 0xFC, 16, 0xF8, 4, 32, 31, 0, .rws, 0⟩,
  ⟨"SETk.B2", 0x100, 16, 0xF8, 4, 32, 31, 0, .rws, 0⟩,
  ⟨"SETk.B3", 0x104, 16, 0xF8, 4, 32, 31, 0, .rws, 0⟩,
  ⟨"SETk.A1", 0x108, 16, 0xF8, 4, 32, 31, 0, .rws, 0⟩,
  ⟨"SETk.A2", 0x10C, 16, 0xF8, 4, 32, 31, 0, .rws, 0⟩,
  ⟨"SETk.A3", 0x110, 16, 0xF8, 4, 32, 31, 0, .rws, 0⟩,
  ⟨"SETk.ORDER", 0x114, 16, 0xF8, 4, 32, 8, 8, .rws, 0⟩,
  ⟨"SETk.OSHIFT", 0x114, 16, 0xF8, 4, 32, 3, 0, .rws, 0⟩]
/-- Fields of PLOOP (07 R254). -/
def ploopRows : List RegRow := [
  ⟨"SUM_ACTIVE", 0x40, 1, 0x0, 1, 0, 13, 0, .ro, 0⟩,
  ⟨"SUM_PIN", 0x44, 1, 0x0, 1, 0, 13, 0, .ro, 0⟩,
  ⟨"SUM_FLAG", 0x48, 1, 0x0, 1, 0, 13, 0, .ro, 0⟩]
/-- Fields of PL (07 R254). -/
def plRows1 : List RegRow := [
  ⟨"PL_CTRL.SIG_SEL", 0x80, 14, 0x118, 1, 0, 17, 16, .rws, 0⟩,
  ⟨"PL_CTRL.CARRY", 0x80, 14, 0x118, 1, 0, 12, 12, .rws, 0⟩,
  ⟨"PL_CTRL.SET_OVR_EN", 0x80, 14, 0x118, 1, 0, 9, 9, .rws, 0⟩,
  ⟨"PL_CTRL.SET_OVR", 0x80, 14, 0x118, 1, 0, 5, 4, .rws, 0⟩,
  ⟨"PL_CTRL.FREEZE", 0x80, 14, 0x118, 1, 0, 1, 1, .rws, 0⟩,
  ⟨"PL_CTRL.EN", 0x80, 14, 0x118, 1, 0, 0, 0, .rws, 0⟩,
  ⟨"PL_MAP.MAPPED", 0x84, 14, 0x118, 1, 0, 31, 31, .ro, 0⟩,
  ⟨"PL_MAP.HEAD", 0x84, 14, 0x118, 1, 0, 5, 0, .ro, 0⟩,
  ⟨"PL_STAT.PIN_COUNT", 0x88, 14, 0x118, 1, 0, 31, 16, .ro, 0⟩,
  ⟨"PL_STAT.SET", 0x88, 14, 0x118, 1, 0, 9, 8, .ro, 0⟩,
  ⟨"PL_STAT.MODE", 0x88, 14, 0x118, 1, 0, 3, 0, .ro, 0⟩,
  ⟨"PL_FLAGS.REMAPPED", 0x8C, 14, 0x118, 1, 0, 8, 8, .w1c, 0⟩,
  ⟨"PL_FLAGS.PL_OPEN", 0x8C, 14, 0x118, 1, 0, 7, 7, .w1c, 0⟩,
  ⟨"PL_FLAGS.FF_STALE", 0x8C, 14, 0x118, 1, 0, 6, 6, .w1c, 0⟩,
  ⟨"PL_FLAGS.SIG_SAT", 0x8C, 14, 0x118, 1, 0, 5, 5, .w1c, 0⟩,
  ⟨"PL_FLAGS.RATIO_LOW", 0x8C, 14, 0x118, 1, 0, 4, 4, .w1c, 0⟩,
  ⟨"PL_FLAGS.STATE_SAT", 0x8C, 14, 0x118, 1, 0, 3, 3, .w1c, 0⟩,
  ⟨"PL_FLAGS.ERR_SAT", 0x8C, 14, 0x118, 1, 0, 2, 2, .w1c, 0⟩,
  ⟨"PL_FLAGS.PIN_LO", 0x8C, 14, 0x118, 1, 0, 1, 1, .w1c, 0⟩,
  ⟨"PL_FLAGS.PIN_HI", 0x8C, 14, 0x118, 1, 0, 0, 0, .w1c, 0⟩,
  ⟨"PIN_TIME", 0x90, 14, 0x118, 1, 0, 31, 16, .rws, 16⟩,
  ⟨"START_BLANK", 0x90, 14, 0x118, 1, 0, 7, 0, .rws, 4⟩,
  ⟨"CARRY_GAP", 0x94, 14, 0x118, 1, 0, 15, 0, .rws, 400⟩,
  ⟨"SIG_BMIN", 0x98, 14, 0x118, 1, 0, 31, 0, .rws, 4096⟩,
  ⟨"FF_SRC.EN", 0x9C, 14, 0x118, 1, 0, 31, 31, .rws, 0⟩,
  ⟨"FF_SRC.PIPE", 0x9C, 14, 0x118, 1, 0, 18, 16, .rws, 0⟩,
  ⟨"FF_SRC.WORD", 0x9C, 14, 0x118, 1, 0, 11, 8, .rws, 0⟩,
  ⟨"FF_SRC.COV_MIN", 0x9C, 14, 0x118, 1, 0, 6, 0, .rws, 80⟩,
  ⟨"FF_GAIN", 0xA0, 14, 0x118, 1, 0, 31, 0, .rws, 0⟩,
  ⟨"FF_REF", 0xA4, 14, 0x118, 1, 0, 31, 0, .rws, 0⟩,
  ⟨"FF_LIM", 0xA8, 14, 0x118, 1, 0, 23, 0, .rws, 0⟩,
  ⟨"FF_AGE.HOLD", 0xAC, 14, 0x118, 1, 0, 31, 16, .rws, 400⟩,
  ⟨"FF_AGE.DECAY", 0xAC, 14, 0x118, 1, 0, 15, 0, .rws, 100⟩,
  ⟨"SIG_NOW", 0xB0, 14, 0x118, 1, 0, 31, 0, .ro, 0⟩,
  ⟨"DP_NOW", 0xB4, 14, 0x118, 1, 0, 31, 0, .ro, 0⟩,
  ⟨"FF_NOW", 0xB8, 14, 0x118, 1, 0, 31, 0, .ro, 0⟩,
  ⟨"PWR_NOW", 0xBC, 14, 0x118, 1, 0, 23, 0, .ro, 0⟩,
  ⟨"PIN_DEMAND", 0xC0, 14, 0x118, 1, 0, 31, 0, .ro, 0⟩,
  ⟨"FF_AGE_NOW", 0xC4, 14, 0x118, 1, 0, 15, 0, .ro, 0⟩,
  ⟨"SETk.TARGET", 0xC8, 14, 0x118, 4, 32, 31, 0, .rws, 0⟩]
/-- Fields of PL (07 R254). -/
def plRows2 : List RegRow := [
  ⟨"SETk.B0", 0xCC, 14, 0x118, 4, 32, 31, 0, .rws, 0⟩,
  ⟨"SETk.B1", 0xD0, 14, 0x118, 4, 32, 31, 0, .rws, 0⟩,
  ⟨"SETk.B2", 0xD4, 14, 0x118, 4, 32, 31, 0, .rws, 0⟩,
  ⟨"SETk.A1", 0xD8, 14, 0x118, 4, 32, 31, 0, .rws, 0⟩,
  ⟨"SETk.A2", 0xDC, 14, 0x118, 4, 32, 31, 0, .rws, 0⟩,
  ⟨"SETk.OSHIFT", 0xE0, 14, 0x118, 4, 32, 3, 0, .rws, 0⟩]
/-- Fields of IBEX (06 R230). -/
def ibexRows : List RegRow := [
  ⟨"SEP_MIN", 0x40, 1, 0x0, 1, 0, 31, 0, .rws, 0⟩,
  ⟨"FLOW_X", 0x44, 1, 0x0, 1, 0, 31, 0, .rws, 1073741824⟩,
  ⟨"FLOW_Y", 0x48, 1, 0x0, 1, 0, 31, 0, .rws, 0⟩,
  ⟨"PLUME_LEN", 0x4C, 1, 0x0, 1, 0, 31, 0, .rws, 0⟩,
  ⟨"WEDGE_W0", 0x50, 1, 0x0, 1, 0, 31, 0, .rws, 0⟩,
  ⟨"WEDGE_TAN", 0x54, 1, 0x0, 1, 0, 15, 0, .rws, 0⟩,
  ⟨"HOLD_MAX", 0x58, 1, 0x0, 1, 0, 31, 0, .rws, 40000⟩,
  ⟨"HO_CTRL.RATE", 0x5C, 1, 0x0, 1, 0, 23, 16, .rws, 16⟩,
  ⟨"HO_CTRL.TAKE", 0x5C, 1, 0x0, 1, 0, 8, 8, .rws, 0⟩,
  ⟨"HO_CTRL.REPAIR_MAX", 0x5C, 1, 0x0, 1, 0, 3, 0, .rws, 2⟩,
  ⟨"TILE_X0", 0x60, 1, 0x0, 1, 0, 31, 0, .rw, 0⟩,
  ⟨"TILE_Y0", 0x64, 1, 0x0, 1, 0, 31, 0, .rw, 0⟩,
  ⟨"TILE_SIZE", 0x68, 1, 0x0, 1, 0, 31, 0, .rw, 0⟩,
  ⟨"TILE_DIM.NY", 0x6C, 1, 0x0, 1, 0, 31, 16, .rw, 0⟩,
  ⟨"TILE_DIM.NX", 0x6C, 1, 0x0, 1, 0, 15, 0, .rw, 0⟩,
  ⟨"TILE_EDIT_IDX", 0x70, 1, 0x0, 1, 0, 14, 0, .rw, 0⟩,
  ⟨"TILE_EDIT_LO", 0x74, 1, 0x0, 1, 0, 31, 0, .rw, 0⟩,
  ⟨"TILE_EDIT_HI", 0x78, 1, 0x0, 1, 0, 31, 0, .rw, 0⟩,
  ⟨"TILE_EDIT_CMD.KEY", 0x7C, 1, 0x0, 1, 0, 31, 16, .wo, 0⟩,
  ⟨"HELD_LO", 0x80, 1, 0x0, 1, 0, 31, 0, .ro, 0⟩,
  ⟨"HELD_HI", 0x84, 1, 0x0, 1, 0, 15, 0, .ro, 0⟩,
  ⟨"FAILED_LO", 0x88, 1, 0x0, 1, 0, 31, 0, .ro, 0⟩,
  ⟨"FAILED_HI", 0x8C, 1, 0x0, 1, 0, 15, 0, .ro, 0⟩,
  ⟨"HO_STAT.ITEMS", 0x90, 1, 0x0, 1, 0, 31, 16, .ro, 0⟩,
  ⟨"HO_STAT.ORPHANS", 0x90, 1, 0x0, 1, 0, 15, 0, .ro, 0⟩,
  ⟨"HO_COUNT.REPAIRS", 0x94, 1, 0x0, 1, 0, 31, 16, .ro, 0⟩,
  ⟨"HO_COUNT.HANDOFFS", 0x94, 1, 0x0, 1, 0, 15, 0, .ro, 0⟩,
  ⟨"BREACH_COUNT", 0x98, 1, 0x0, 1, 0, 15, 0, .ro, 0⟩,
  ⟨"FAIL_REQ.KEY", 0x9C, 1, 0x0, 1, 0, 31, 16, .wo, 0⟩,
  ⟨"FAIL_REQ.HEAD", 0x9C, 1, 0x0, 1, 0, 5, 0, .wo, 0⟩,
  ⟨"TILE_STAT.EDIT_PENDING", 0xA0, 1, 0x0, 1, 0, 0, 0, .ro, 0⟩]
/-- Fields of FIRE (05 R195). -/
def fireRows : List RegRow := [
  ⟨"CAS_KEY", 0x40, 1, 0x0, 8, 4, 31, 0, .wo, 0⟩,
  ⟨"CAS_KEY_STAT.KCV", 0x60, 1, 0x0, 1, 0, 31, 16, .ro, 0⟩,
  ⟨"CAS_KEY_STAT.LOADED", 0x60, 1, 0x0, 1, 0, 0, 0, .ro, 0⟩,
  ⟨"CAS_STEP", 0x64, 1, 0x0, 1, 0, 23, 0, .rw, 1000000⟩,
  ⟨"CAS_TIMEOUT", 0x68, 1, 0x0, 1, 0, 15, 0, .rw, 4000⟩,
  ⟨"PGg.K", 0x80, 1, 0x0, 8, 16, 20, 16, .rws, 4⟩,
  ⟨"PGg.AVG", 0x84, 1, 0x0, 8, 16, 23, 0, .rws, 0⟩,
  ⟨"PGg.CAP", 0x88, 1, 0x0, 8, 16, 23, 0, .rws, 0⟩,
  ⟨"PGg.LEVEL", 0x8C, 1, 0x0, 8, 16, 31, 8, .ro, 0⟩,
  ⟨"PGg.ROT", 0x8C, 1, 0x0, 8, 16, 5, 0, .ro, 0⟩,
  ⟨"DCLASSc.CAP", 0x100, 1, 0x0, 8, 8, 23, 0, .rws, 0⟩,
  ⟨"DCLASSc.RATE", 0x104, 1, 0x0, 8, 8, 23, 0, .rws, 0⟩]
/-- Fields of CP (08 R279). -/
def cpRows : List RegRow := [
  ⟨"CP_CTRL.PIX_BITS", 0x40, 1, 0x0, 1, 0, 9, 8, .rws, 0⟩,
  ⟨"CP_CTRL.LV_POL", 0x40, 1, 0x0, 1, 0, 4, 4, .rws, 0⟩,
  ⟨"CP_CTRL.FV_POL", 0x40, 1, 0x0, 1, 0, 3, 3, .rws, 0⟩,
  ⟨"CP_CTRL.EDGE", 0x40, 1, 0x0, 1, 0, 2, 2, .rws, 0⟩,
  ⟨"CP_SIZE.HEIGHT", 0x44, 1, 0x0, 1, 0, 31, 16, .rws, 256⟩,
  ⟨"CP_SIZE.WIDTH", 0x44, 1, 0x0, 1, 0, 15, 0, .rws, 256⟩,
  ⟨"FRAME_TMO", 0x48, 1, 0x0, 1, 0, 15, 0, .rws, 1000⟩,
  ⟨"CP_STAT.PCLK_PRESENT", 0x4C, 1, 0x0, 1, 0, 31, 31, .ro, 0⟩,
  ⟨"CP_STAT.IN_FRAME", 0x4C, 1, 0x0, 1, 0, 30, 30, .ro, 0⟩,
  ⟨"CP_STAT.ROLE", 0x4C, 1, 0x0, 1, 0, 29, 28, .ro, 0⟩,
  ⟨"CP_STAT.PIPE", 0x4C, 1, 0x0, 1, 0, 26, 24, .ro, 0⟩,
  ⟨"CP_STAT.LINE", 0x4C, 1, 0x0, 1, 0, 12, 0, .ro, 0⟩,
  ⟨"PCLK_KHZ", 0x50, 1, 0x0, 1, 0, 17, 0, .ro, 0⟩,
  ⟨"FRAME_COUNT", 0x54, 1, 0x0, 1, 0, 31, 0, .ro, 0⟩,
  ⟨"CNT_SHORT_LINE", 0x58, 1, 0x0, 1, 0, 31, 16, .ro, 0⟩,
  ⟨"CNT_LONG_LINE", 0x58, 1, 0x0, 1, 0, 15, 0, .ro, 0⟩,
  ⟨"CNT_SHORT_FRAME", 0x5C, 1, 0x0, 1, 0, 31, 16, .ro, 0⟩,
  ⟨"CNT_LONG_FRAME", 0x5C, 1, 0x0, 1, 0, 15, 0, .ro, 0⟩,
  ⟨"CNT_TIMEOUT", 0x60, 1, 0x0, 1, 0, 31, 16, .ro, 0⟩,
  ⟨"CNT_OVERFLOW", 0x60, 1, 0x0, 1, 0, 15, 0, .ro, 0⟩,
  ⟨"CNT_CLEAR", 0x64, 1, 0x0, 1, 0, 31, 0, .wo, 0⟩]
/-- Fields of IP (08 R280). -/
def ipRows : List RegRow := [
  ⟨"IP_SRC.IL_EN", 0x40, 1, 0x0, 1, 0, 31, 31, .rw, 0⟩,
  ⟨"IP_SRC.IL_PORT", 0x40, 1, 0x0, 1, 0, 27, 24, .rw, 0⟩,
  ⟨"IP_SRC.VM_EN", 0x40, 1, 0x0, 1, 0, 15, 15, .rw, 0⟩,
  ⟨"IP_SRC.VM_PORT", 0x40, 1, 0x0, 1, 0, 11, 8, .rw, 0⟩,
  ⟨"IP_MAP.MAPPED", 0x44, 1, 0x0, 1, 0, 31, 31, .ro, 0⟩,
  ⟨"IP_MAP.LOGICAL", 0x44, 1, 0x0, 1, 0, 2, 0, .ro, 0⟩,
  ⟨"IP_STAT.SOURCE", 0x48, 1, 0x0, 1, 0, 31, 30, .ro, 0⟩,
  ⟨"IP_STAT.FAILED", 0x48, 1, 0x0, 1, 0, 29, 29, .ro, 0⟩,
  ⟨"IP_STAT.THROTTLED", 0x48, 1, 0x0, 1, 0, 28, 28, .ro, 0⟩,
  ⟨"IP_STAT.RING_USED", 0x48, 1, 0x0, 1, 0, 26, 24, .ro, 0⟩,
  ⟨"IL_BUF_NOW", 0x4C, 1, 0x0, 1, 0, 17, 0, .ro, 0⟩,
  ⟨"RING_BASE_LO", 0x50, 1, 0x0, 1, 0, 31, 12, .rw, 0⟩,
  ⟨"RING_BASE_HI", 0x54, 1, 0x0, 1, 0, 31, 0, .rw, 0⟩,
  ⟨"REC_BASE_LO", 0x58, 1, 0x0, 1, 0, 31, 6, .rw, 0⟩,
  ⟨"REC_BASE_HI", 0x5C, 1, 0x0, 1, 0, 31, 0, .rw, 0⟩,
  ⟨"REC_LOG2", 0x60, 1, 0x0, 1, 0, 4, 0, .rw, 0⟩,
  ⟨"REC_WR", 0x64, 1, 0x0, 1, 0, 15, 0, .ro, 0⟩,
  ⟨"REC_COUNT", 0x68, 1, 0x0, 1, 0, 31, 0, .ro, 0⟩,
  ⟨"REC_DROP", 0x6C, 1, 0x0, 1, 0, 15, 0, .ro, 0⟩,
  ⟨"IP_FLAGS.REMAPPED", 0x70, 1, 0x0, 1, 0, 5, 5, .w1c, 0⟩,
  ⟨"IP_FLAGS.FAULT", 0x70, 1, 0x0, 1, 0, 4, 4, .w1c, 0⟩,
  ⟨"IP_FLAGS.CFG_REFUSED", 0x70, 1, 0x0, 1, 0, 3, 3, .w1c, 0⟩,
  ⟨"IP_FLAGS.DPC_REFUSED", 0x70, 1, 0x0, 1, 0, 2, 2, .w1c, 0⟩,
  ⟨"IP_FLAGS.BLOB_LIMIT", 0x70, 1, 0x0, 1, 0, 1, 1, .w1c, 0⟩,
  ⟨"IP_FLAGS.OVERFLOW", 0x70, 1, 0x0, 1, 0, 0, 0, .w1c, 0⟩]
/-- Fields of IPS (08 R280). -/
def ipsRows : List RegRow := [
  ⟨"BLACK", 0x80, 2, 0x40, 1, 0, 15, 0, .rws, 0⟩,
  ⟨"THRESH", 0x84, 2, 0x40, 1, 0, 15, 0, .rws, 32768⟩,
  ⟨"ROI_Y0", 0x88, 2, 0x40, 1, 0, 31, 16, .rws, 0⟩,
  ⟨"ROI_X0", 0x88, 2, 0x40, 1, 0, 15, 0, .rws, 0⟩,
  ⟨"ROI_H", 0x8C, 2, 0x40, 1, 0, 31, 16, .rws, 0⟩,
  ⟨"ROI_W", 0x8C, 2, 0x40, 1, 0, 15, 0, .rws, 0⟩,
  ⟨"SPAT_AMAX", 0x90, 2, 0x40, 1, 0, 31, 16, .rws, 64⟩,
  ⟨"SPAT_AMIN", 0x90, 2, 0x40, 1, 0, 15, 0, .rws, 1⟩,
  ⟨"DPC_BASE_LO", 0x94, 2, 0x40, 1, 0, 31, 6, .rws, 0⟩,
  ⟨"DPC_BASE_HI", 0x98, 2, 0x40, 1, 0, 31, 0, .rws, 0⟩,
  ⟨"DPC_COUNT", 0x9C, 2, 0x40, 1, 0, 10, 0, .rws, 0⟩,
  ⟨"DPC_STAT.COUNT", 0xA0, 2, 0x40, 1, 0, 26, 16, .ro, 0⟩,
  ⟨"DPC_STAT.STATE", 0xA0, 2, 0x40, 1, 0, 1, 0, .ro, 0⟩]
/-- Fields of AX (10 R339). -/
def axRows1 : List RegRow := [
  ⟨"AX_CFG.HOME_DIR", 0x40, 1, 0x0, 1, 0, 8, 8, .rws, 0⟩,
  ⟨"AX_CFG.LIM_MODE", 0x40, 1, 0x0, 1, 0, 4, 4, .rws, 0⟩,
  ⟨"AX_CFG.STALL_ACT", 0x40, 1, 0x0, 1, 0, 2, 2, .rws, 1⟩,
  ⟨"AX_CFG.STALL_EN", 0x40, 1, 0x0, 1, 0, 1, 1, .rws, 0⟩,
  ⟨"AX_CFG.DIR_INV", 0x40, 1, 0x0, 1, 0, 0, 0, .rws, 0⟩,
  ⟨"AX_IN.LIMN_EN", 0x44, 1, 0x0, 1, 0, 31, 31, .rws, 0⟩,
  ⟨"AX_IN.LIMN_DI", 0x44, 1, 0x0, 1, 0, 29, 24, .rws, 0⟩,
  ⟨"AX_IN.LIMP_EN", 0x44, 1, 0x0, 1, 0, 23, 23, .rws, 0⟩,
  ⟨"AX_IN.LIMP_DI", 0x44, 1, 0x0, 1, 0, 21, 16, .rws, 0⟩,
  ⟨"AX_IN.HOME_EN", 0x44, 1, 0x0, 1, 0, 15, 15, .rws, 0⟩,
  ⟨"AX_IN.HOME_DI", 0x44, 1, 0x0, 1, 0, 13, 8, .rws, 0⟩,
  ⟨"AX_IN.INV", 0x44, 1, 0x0, 1, 0, 2, 0, .rws, 0⟩,
  ⟨"STEP_NM", 0x48, 1, 0x0, 1, 0, 31, 0, .rws, 0⟩,
  ⟨"I_RUN", 0x4C, 1, 0x0, 1, 0, 31, 16, .rws, 0⟩,
  ⟨"I_HOLD", 0x4C, 1, 0x0, 1, 0, 15, 0, .rws, 0⟩,
  ⟨"STBY_DELAY", 0x50, 1, 0x0, 1, 0, 31, 16, .rws, 500⟩,
  ⟨"STBY_PCT", 0x50, 1, 0x0, 1, 0, 6, 0, .rws, 50⟩,
  ⟨"ALIM_STOP", 0x54, 1, 0x0, 1, 0, 31, 0, .rws, 0⟩,
  ⟨"JLIM_STOP", 0x58, 1, 0x0, 1, 0, 31, 0, .rws, 0⟩,
  ⟨"HOME_VFAST", 0x5C, 1, 0x0, 1, 0, 31, 0, .rws, 0⟩,
  ⟨"HOME_VSLOW", 0x60, 1, 0x0, 1, 0, 31, 0, .rws, 0⟩,
  ⟨"HOME_OFS", 0x64, 1, 0x0, 1, 0, 31, 0, .rws, 0⟩,
  ⟨"HOME_MAXDIST", 0x68, 1, 0x0, 1, 0, 31, 0, .rws, 0⟩,
  ⟨"CHAT.WIN", 0x6C, 1, 0x0, 1, 0, 31, 24, .rws, 50⟩,
  ⟨"CHAT.MAX", 0x6C, 1, 0x0, 1, 0, 23, 16, .rws, 8⟩,
  ⟨"DEBOUNCE", 0x6C, 1, 0x0, 1, 0, 15, 0, .rws, 1000⟩,
  ⟨"STALL.N", 0x70, 1, 0x0, 1, 0, 15, 12, .rws, 4⟩,
  ⟨"STALL.ANGLE", 0x70, 1, 0x0, 1, 0, 9, 0, .rws, 256⟩,
  ⟨"STALL_VMIN", 0x74, 1, 0x0, 1, 0, 31, 0, .rws, 0⟩,
  ⟨"L_PHASE", 0x78, 1, 0x0, 1, 0, 31, 16, .rws, 0⟩,
  ⟨"R_PHASE", 0x78, 1, 0x0, 1, 0, 15, 0, .rws, 0⟩,
  ⟨"AX_CMD.KEY", 0x7C, 1, 0x0, 1, 0, 31, 16, .wo, 0⟩,
  ⟨"AX_CMD.MOVE", 0x7C, 1, 0x0, 1, 0, 6, 4, .wo, 0⟩,
  ⟨"AX_CMD.OP", 0x7C, 1, 0x0, 1, 0, 2, 0, .wo, 0⟩,
  ⟨"AX_STAT.STATE", 0x80, 1, 0x0, 1, 0, 31, 28, .ro, 0⟩,
  ⟨"AX_STAT.HOME_STEP", 0x80, 1, 0x0, 1, 0, 27, 24, .ro, 0⟩,
  ⟨"AX_STAT.CAUSE", 0x80, 1, 0x0, 1, 0, 19, 16, .ro, 0⟩,
  ⟨"AX_STAT.CMD_RESULT", 0x80, 1, 0x0, 1, 0, 13, 12, .ro, 0⟩,
  ⟨"AX_STAT.HOMED", 0x80, 1, 0x0, 1, 0, 8, 8, .ro, 0⟩,
  ⟨"AX_STAT.INPUTS", 0x80, 1, 0x0, 1, 0, 7, 5, .ro, 0⟩]
/-- Fields of AX (10 R339). -/
def axRows2 : List RegRow := [
  ⟨"AX_STAT.DONE", 0x80, 1, 0x0, 1, 0, 3, 3, .ro, 0⟩,
  ⟨"AX_STAT.LEVEL", 0x80, 1, 0x0, 1, 0, 1, 0, .ro, 0⟩,
  ⟨"POS_NOW", 0x84, 1, 0x0, 1, 0, 31, 0, .ro, 0⟩,
  ⟨"VEL_NOW", 0x88, 1, 0x0, 1, 0, 31, 0, .ro, 0⟩,
  ⟨"LOAD_ANGLE.VALID", 0x8C, 1, 0x0, 1, 0, 31, 31, .ro, 0⟩,
  ⟨"LOAD_ANGLE.D", 0x8C, 1, 0x0, 1, 0, 9, 0, .ro, 0⟩,
  ⟨"LATCH_POS", 0x90, 1, 0x0, 1, 0, 31, 0, .ro, 0⟩,
  ⟨"LATCH_NS", 0x94, 1, 0x0, 1, 0, 29, 0, .ro, 0⟩,
  ⟨"LATCH_S", 0x98, 1, 0x0, 1, 0, 31, 0, .ro, 0⟩,
  ⟨"HOME_POS", 0x9C, 1, 0x0, 1, 0, 31, 0, .ro, 0⟩,
  ⟨"AX_FLAGS.POS_LOST", 0xA0, 1, 0x0, 1, 0, 7, 7, .w1c, 0⟩,
  ⟨"AX_FLAGS.START_REFUSED", 0xA0, 1, 0x0, 1, 0, 6, 6, .w1c, 0⟩,
  ⟨"AX_FLAGS.INPUT_LOST", 0xA0, 1, 0x0, 1, 0, 5, 5, .w1c, 0⟩,
  ⟨"AX_FLAGS.BRIDGE_FAULT", 0xA0, 1, 0x0, 1, 0, 4, 4, .w1c, 0⟩,
  ⟨"AX_FLAGS.HOME_FAIL", 0xA0, 1, 0x0, 1, 0, 3, 3, .w1c, 0⟩,
  ⟨"AX_FLAGS.SWITCH_UNSTABLE", 0xA0, 1, 0x0, 1, 0, 2, 2, .w1c, 0⟩,
  ⟨"AX_FLAGS.LIMIT_STOP", 0xA0, 1, 0x0, 1, 0, 1, 1, .w1c, 0⟩,
  ⟨"AX_FLAGS.STALL", 0xA0, 1, 0x0, 1, 0, 0, 0, .w1c, 0⟩,
  ⟨"CHAT_COUNT", 0xA4, 1, 0x0, 1, 0, 7, 0, .ro, 0⟩,
  ⟨"MOVEk.TARGET", 0x100, 1, 0x0, 8, 32, 31, 0, .rws, 0⟩,
  ⟨"MOVEk.MODE", 0x104, 1, 0x0, 8, 32, 0, 0, .rws, 0⟩,
  ⟨"MOVEk.VMAX", 0x108, 1, 0x0, 8, 32, 31, 0, .rws, 0⟩,
  ⟨"MOVEk.AMAX", 0x10C, 1, 0x0, 8, 32, 31, 0, .rws, 0⟩,
  ⟨"MOVEk.JMAX", 0x110, 1, 0x0, 8, 32, 31, 0, .rws, 0⟩]
/-- Fields of BP (10 R340). -/
def bpRows : List RegRow := [
  ⟨"BP_STAT.STATE", 0x40, 1, 0x0, 1, 0, 1, 0, .ro, 0⟩,
  ⟨"LOSS_TICKS", 0x44, 1, 0x0, 1, 0, 3, 0, .rw, 3⟩,
  ⟨"CNT_MISSING", 0x48, 1, 0x0, 1, 0, 31, 16, .ro, 0⟩,
  ⟨"CNT_CODE_ERR", 0x48, 1, 0x0, 1, 0, 15, 0, .ro, 0⟩,
  ⟨"CNT_LOSS", 0x4C, 1, 0x0, 1, 0, 15, 0, .ro, 0⟩,
  ⟨"CNT_CLEAR", 0x50, 1, 0x0, 1, 0, 31, 0, .wo, 0⟩]
/-- Fields of BPS (10 R340). -/
def bpsRows : List RegRow := [
  ⟨"MEAS_I.IB", 0x60, 2, 0x20, 1, 0, 31, 16, .ro, 0⟩,
  ⟨"MEAS_I.IA", 0x60, 2, 0x20, 1, 0, 15, 0, .ro, 0⟩,
  ⟨"MEAS_V.VB", 0x64, 2, 0x20, 1, 0, 31, 16, .ro, 0⟩,
  ⟨"MEAS_V.VA", 0x64, 2, 0x20, 1, 0, 15, 0, .ro, 0⟩,
  ⟨"VBUS", 0x68, 2, 0x20, 1, 0, 15, 0, .ro, 0⟩,
  ⟨"DRV_STAT", 0x6C, 2, 0x20, 1, 0, 7, 0, .ro, 0⟩]
/-- Fields of LED (11 R353). -/
def ledRows : List RegRow := [
  ⟨"LED_CTRL.SUBP_MAX", 0x40, 1, 0x0, 1, 0, 21, 16, .rw, 32⟩,
  ⟨"LED_CTRL.SYNC_IDX", 0x40, 1, 0x0, 1, 0, 13, 8, .rw, 0⟩,
  ⟨"LED_CTRL.SYNC_SRC", 0x40, 1, 0x0, 1, 0, 7, 6, .rw, 0⟩,
  ⟨"LED_CTRL.DIAG_OFF_EN", 0x40, 1, 0x0, 1, 0, 5, 5, .rw, 0⟩,
  ⟨"LED_CTRL.SYNC_MODE", 0x40, 1, 0x0, 1, 0, 4, 4, .rw, 0⟩,
  ⟨"LED_CTRL.SYNC_EDGE", 0x40, 1, 0x0, 1, 0, 3, 3, .rw, 0⟩,
  ⟨"LED_CTRL.SHORT_ACT", 0x40, 1, 0x0, 1, 0, 1, 1, .rw, 1⟩,
  ⟨"LED_CTRL.DIAG_EN", 0x40, 1, 0x0, 1, 0, 0, 0, .rw, 1⟩,
  ⟨"LED_CUR.I_COL", 0x44, 1, 0x0, 1, 0, 7, 0, .rw, 0⟩,
  ⟨"BLANK_MIN", 0x48, 1, 0x0, 1, 0, 15, 0, .rw, 0⟩,
  ⟨"LED_SWAP.DISARM", 0x4C, 1, 0x0, 1, 0, 1, 1, .wo, 0⟩,
  ⟨"LED_SWAP.ARM", 0x4C, 1, 0x0, 1, 0, 0, 0, .wo, 0⟩,
  ⟨"LED_STAT.FRONT", 0x50, 1, 0x0, 1, 0, 31, 31, .ro, 0⟩,
  ⟨"LED_STAT.ARMED", 0x50, 1, 0x0, 1, 0, 30, 30, .ro, 0⟩,
  ⟨"LED_STAT.ROW", 0x50, 1, 0x0, 1, 0, 27, 24, .ro, 0⟩,
  ⟨"LED_STAT.MFRAMES", 0x50, 1, 0x0, 1, 0, 15, 0, .ro, 0⟩,
  ⟨"DER_T1", 0x54, 1, 0x0, 1, 0, 31, 16, .rw, 1600⟩,
  ⟨"DER_T0", 0x54, 1, 0x0, 1, 0, 15, 0, .rw, 1280⟩,
  ⟨"T_OFF", 0x58, 1, 0x0, 1, 0, 31, 16, .rw, 1920⟩,
  ⟨"DER_MIN", 0x58, 1, 0x0, 1, 0, 8, 0, .rw, 128⟩,
  ⟨"LAMP_STAT.T_LAMP", 0x5C, 1, 0x0, 1, 0, 31, 16, .ro, 0⟩,
  ⟨"LAMP_STAT.HOT", 0x5C, 1, 0x0, 1, 0, 12, 12, .ro, 0⟩,
  ⟨"LAMP_STAT.THERM_FAULT", 0x5C, 1, 0x0, 1, 0, 11, 11, .ro, 0⟩,
  ⟨"LAMP_STAT.SCALE", 0x5C, 1, 0x0, 1, 0, 8, 0, .ro, 256⟩,
  ⟨"DIAG_CFG.SHORT_MV", 0x60, 1, 0x0, 1, 0, 31, 16, .rw, 8000⟩,
  ⟨"DIAG_CFG.OPEN_PCT", 0x60, 1, 0x0, 1, 0, 14, 8, .rw, 50⟩,
  ⟨"DIAG_CFG.CONFIRM", 0x60, 1, 0x0, 1, 0, 3, 0, .rw, 3⟩,
  ⟨"SWAP_COUNT", 0x64, 1, 0x0, 1, 0, 31, 16, .ro, 0⟩,
  ⟨"SYNC_COUNT", 0x64, 1, 0x0, 1, 0, 15, 0, .ro, 0⟩,
  ⟨"LED_DIAG", 0x100, 1, 0x0, 32, 4, 31, 0, .ro, 0⟩,
  ⟨"DIAG_UNAVAIL", 0x180, 1, 0x0, 16, 4, 31, 0, .ro, 0⟩,
  ⟨"DIAG_CLEAR", 0x1C0, 1, 0x0, 1, 0, 31, 0, .wo, 0⟩]
/-- Fields of DDR (12 R380). -/
def ddrRows1 : List RegRow := [
  ⟨"CFG.DENSITY", 0x40, 1, 0x0, 1, 0, 19, 16, .ro, 0⟩,
  ⟨"CFG.CAP_GB", 0x40, 1, 0x0, 1, 0, 15, 8, .ro, 0⟩,
  ⟨"CFG.TRAINED", 0x40, 1, 0x0, 1, 0, 0, 0, .ro, 0⟩,
  ⟨"MARK.M1_EN", 0x44, 1, 0x0, 1, 0, 15, 15, .rw, 0⟩,
  ⟨"MARK.M1_DEV", 0x44, 1, 0x0, 1, 0, 11, 8, .rw, 0⟩,
  ⟨"MARK.M0_EN", 0x44, 1, 0x0, 1, 0, 7, 7, .rw, 0⟩,
  ⟨"MARK.M0_DEV", 0x44, 1, 0x0, 1, 0, 3, 0, .rw, 0⟩,
  ⟨"MARK_N", 0x48, 1, 0x0, 1, 0, 7, 0, .rw, 16⟩,
  ⟨"CE_COUNT", 0x4C, 1, 0x0, 1, 0, 31, 0, .ro, 0⟩,
  ⟨"POISON_COUNT", 0x50, 1, 0x0, 1, 0, 31, 16, .ro, 0⟩,
  ⟨"UE_COUNT", 0x50, 1, 0x0, 1, 0, 15, 0, .ro, 0⟩,
  ⟨"LAST_UE_LO", 0x54, 1, 0x0, 1, 0, 31, 0, .ro, 0⟩,
  ⟨"LAST_UE_HI", 0x58, 1, 0x0, 1, 0, 31, 0, .ro, 0⟩,
  ⟨"LAST_UE_INFO.CLASS", 0x5C, 1, 0x0, 1, 0, 17, 16, .ro, 0⟩,
  ⟨"LAST_UE_INFO.DEVS", 0x5C, 1, 0x0, 1, 0, 9, 0, .ro, 0⟩,
  ⟨"DEV_CE_EVEN", 0x60, 1, 0x0, 10, 4, 15, 0, .ro, 0⟩,
  ⟨"DEV_CE_ODD", 0x60, 1, 0x0, 10, 4, 31, 16, .ro, 0⟩,
  ⟨"SCRUB_HOURS", 0x88, 1, 0x0, 1, 0, 15, 0, .rw, 24⟩,
  ⟨"SCRUB_STAT.PASSES", 0x8C, 1, 0x0, 1, 0, 31, 16, .ro, 0⟩,
  ⟨"SCRUB_STAT.PCT", 0x8C, 1, 0x0, 1, 0, 6, 0, .ro, 0⟩,
  ⟨"REF_CTRL.TEMP_2X", 0x90, 1, 0x0, 1, 0, 8, 8, .ro, 0⟩,
  ⟨"REF_CTRL.POSTPONE_MAX", 0x90, 1, 0x0, 1, 0, 2, 0, .rw, 4⟩,
  ⟨"REF_STAT.FORCED_COUNT", 0x94, 1, 0x0, 1, 0, 31, 16, .ro, 0⟩,
  ⟨"REF_STAT.OWED1", 0x94, 1, 0x0, 1, 0, 6, 4, .ro, 0⟩,
  ⟨"REF_STAT.OWED0", 0x94, 1, 0x0, 1, 0, 2, 0, .ro, 0⟩,
  ⟨"NR_CTRL.EN", 0x98, 1, 0x0, 1, 0, 16, 16, .rw, 1⟩,
  ⟨"NR_CTRL.K", 0x98, 1, 0x0, 1, 0, 12, 8, .rw, 10⟩,
  ⟨"NR_CTRL.RFM_REQ", 0x98, 1, 0x0, 1, 0, 1, 1, .ro, 0⟩,
  ⟨"NR_CTRL.RADIUS", 0x98, 1, 0x0, 1, 0, 0, 0, .rw, 0⟩,
  ⟨"RFM_COUNT", 0x9C, 1, 0x0, 1, 0, 31, 16, .ro, 0⟩,
  ⟨"NR_COUNT", 0x9C, 1, 0x0, 1, 0, 15, 0, .ro, 0⟩,
  ⟨"PD_CTRL.RUN_PD", 0xA0, 1, 0x0, 1, 0, 17, 17, .rw, 0⟩,
  ⟨"PD_CTRL.PD_EN", 0xA0, 1, 0x0, 1, 0, 16, 16, .rw, 1⟩,
  ⟨"PD_CTRL.PD_IDLE", 0xA0, 1, 0x0, 1, 0, 15, 0, .rw, 1024⟩,
  ⟨"AGE_RT", 0xA4, 1, 0x0, 1, 0, 15, 0, .ro, 160⟩,
  ⟨"AGE_HOST", 0xA8, 1, 0x0, 1, 0, 31, 16, .rw, 8000⟩,
  ⟨"AGE_IMG", 0xA8, 1, 0x0, 1, 0, 15, 0, .rw, 1600⟩,
  ⟨"AGE_MGMT", 0xAC, 1, 0x0, 1, 0, 15, 0, .rw, 16000⟩,
  ⟨"PPR_CTRL.ROW_CE_LIMIT", 0xB0, 1, 0x0, 1, 0, 15, 8, .rw, 4⟩,
  ⟨"PPR_CTRL.AUTO", 0xB0, 1, 0x0, 1, 0, 0, 0, .rw, 1⟩]
/-- Fields of DDR (12 R380). -/
def ddrRows2 : List RegRow := [
  ⟨"PPR_CMD.KEY", 0xB4, 1, 0x0, 1, 0, 31, 16, .wo, 0⟩,
  ⟨"PPR_CMD.OP", 0xB4, 1, 0x0, 1, 0, 1, 0, .wo, 0⟩,
  ⟨"PPR_STAT.PENDING", 0xB8, 1, 0x0, 1, 0, 31, 24, .ro, 0⟩,
  ⟨"PPR_STAT.SOFT", 0xB8, 1, 0x0, 1, 0, 23, 16, .ro, 0⟩,
  ⟨"PPR_STAT.HARD", 0xB8, 1, 0x0, 1, 0, 15, 8, .ro, 0⟩,
  ⟨"PPR_STAT.STATE", 0xB8, 1, 0x0, 1, 0, 1, 0, .ro, 0⟩,
  ⟨"PPR_RES", 0xBC, 1, 0x0, 1, 0, 7, 0, .ro, 0⟩,
  ⟨"PPR_LOGi.ADDR_LO", 0x100, 1, 0x0, 8, 16, 31, 0, .ro, 0⟩,
  ⟨"PPR_LOGi.ADDR_HI", 0x104, 1, 0x0, 8, 16, 31, 0, .ro, 0⟩,
  ⟨"PPR_LOGi.STATE", 0x108, 1, 0x0, 8, 16, 31, 29, .ro, 0⟩,
  ⟨"PPR_LOGi.DEV", 0x108, 1, 0x0, 8, 16, 28, 24, .ro, 0⟩,
  ⟨"PPR_LOGi.CE", 0x108, 1, 0x0, 8, 16, 15, 0, .ro, 0⟩]
/-- Fields of DMA (13 R396). -/
def dmaRows : List RegRow := [
  ⟨"CH_CTRL.PRIO", 0x40, 1, 0x0, 1, 0, 8, 8, .rw, 0⟩,
  ⟨"CH_CTRL.TRIG_LATCH", 0x40, 1, 0x0, 1, 0, 4, 4, .rw, 0⟩,
  ⟨"CH_CTRL.TRIG_SRC", 0x40, 1, 0x0, 1, 0, 2, 0, .rw, 0⟩,
  ⟨"TRIG_CH", 0x44, 1, 0x0, 1, 0, 4, 0, .rw, 0⟩,
  ⟨"TIMER_US", 0x48, 1, 0x0, 1, 0, 23, 0, .rw, 1000⟩,
  ⟨"FRAME_DIV", 0x4C, 1, 0x0, 1, 0, 15, 0, .rw, 1⟩,
  ⟨"CHAIN_LO", 0x50, 1, 0x0, 1, 0, 31, 6, .rw, 0⟩,
  ⟨"CHAIN_HI", 0x54, 1, 0x0, 1, 0, 31, 0, .rw, 0⟩,
  ⟨"CH_CMD.KEY", 0x58, 1, 0x0, 1, 0, 31, 16, .wo, 0⟩,
  ⟨"CH_CMD.OP", 0x58, 1, 0x0, 1, 0, 2, 0, .wo, 0⟩,
  ⟨"DOORBELL", 0x5C, 1, 0x0, 1, 0, 31, 0, .wo, 0⟩,
  ⟨"CH_STAT.STATE", 0x60, 1, 0x0, 1, 0, 31, 28, .ro, 0⟩,
  ⟨"CH_STAT.DB_PEND", 0x60, 1, 0x0, 1, 0, 24, 24, .ro, 0⟩,
  ⟨"CH_STAT.TRIG_PEND", 0x60, 1, 0x0, 1, 0, 23, 23, .ro, 0⟩,
  ⟨"CH_STAT.ERR_CODE", 0x60, 1, 0x0, 1, 0, 15, 8, .ro, 0⟩,
  ⟨"CH_STAT.CMD_RESULT", 0x60, 1, 0x0, 1, 0, 3, 0, .ro, 0⟩,
  ⟨"CUR_LO", 0x64, 1, 0x0, 1, 0, 31, 0, .ro, 0⟩,
  ⟨"CUR_HI", 0x68, 1, 0x0, 1, 0, 31, 0, .ro, 0⟩,
  ⟨"TAIL_LO", 0x6C, 1, 0x0, 1, 0, 31, 0, .ro, 0⟩,
  ⟨"TAIL_HI", 0x70, 1, 0x0, 1, 0, 31, 0, .ro, 0⟩,
  ⟨"DONE_COUNT", 0x74, 1, 0x0, 1, 0, 31, 0, .ro, 0⟩,
  ⟨"BYTES_LEFT", 0x78, 1, 0x0, 1, 0, 31, 0, .ro, 0⟩,
  ⟨"TRIG_MISSED", 0x7C, 1, 0x0, 1, 0, 15, 0, .ro, 0⟩,
  ⟨"MISMATCH_LO", 0x80, 1, 0x0, 1, 0, 31, 0, .ro, 4294967295⟩,
  ⟨"MISMATCH_HI", 0x84, 1, 0x0, 1, 0, 31, 0, .ro, 4294967295⟩,
  ⟨"CH_FLAGS.TRIG_MISSED", 0x88, 1, 0x0, 1, 0, 2, 2, .w1c, 0⟩,
  ⟨"CH_FLAGS.MISMATCH", 0x88, 1, 0x0, 1, 0, 1, 1, .w1c, 0⟩,
  ⟨"CH_FLAGS.OVERLAP", 0x88, 1, 0x0, 1, 0, 0, 0, .w1c, 0⟩]
/-- Fields of PCIE (02 R537). -/
def pcieRows : List RegRow := [
  ⟨"LINK_STAT.UP", 0x40, 1, 0x0, 1, 0, 16, 16, .ro, 0⟩,
  ⟨"LINK_STAT.WIDTH", 0x40, 1, 0x0, 1, 0, 9, 4, .ro, 0⟩,
  ⟨"LINK_STAT.SPEED", 0x40, 1, 0x0, 1, 0, 3, 0, .ro, 0⟩,
  ⟨"BAD_ACC_COUNT", 0x44, 1, 0x0, 1, 0, 31, 0, .ro, 0⟩,
  ⟨"BAD_ACC_ADDR_LO", 0x48, 1, 0x0, 1, 0, 31, 0, .ro, 0⟩,
  ⟨"BAD_ACC_ADDR_HI.BAR", 0x4C, 1, 0x0, 1, 0, 31, 31, .ro, 0⟩,
  ⟨"BAD_ACC_ADDR_HI.OFS", 0x4C, 1, 0x0, 1, 0, 3, 0, .ro, 0⟩]
/-- Fields of ETH (15 R451). -/
def ethRows : List RegRow := [
  ⟨"MDIO_CMD.CL45", 0x40, 1, 0x0, 1, 0, 31, 31, .wo, 0⟩,
  ⟨"MDIO_CMD.OP", 0x40, 1, 0x0, 1, 0, 29, 28, .wo, 0⟩,
  ⟨"MDIO_CMD.PHYAD", 0x40, 1, 0x0, 1, 0, 25, 21, .wo, 0⟩,
  ⟨"MDIO_CMD.REG", 0x40, 1, 0x0, 1, 0, 20, 16, .wo, 0⟩,
  ⟨"MDIO_CMD.DATA", 0x40, 1, 0x0, 1, 0, 15, 0, .wo, 0⟩,
  ⟨"MDIO_STAT.BUSY", 0x44, 1, 0x0, 1, 0, 31, 31, .ro, 0⟩,
  ⟨"MDIO_STAT.DATA", 0x44, 1, 0x0, 1, 0, 15, 0, .ro, 0⟩]
/-- Fields of ETHP (15 R451). -/
def ethpRows : List RegRow := [
  ⟨"PORT_CTRL.AN_EN", 0x80, 2, 0x40, 1, 0, 8, 8, .rw, 1⟩,
  ⟨"PORT_CTRL.SPEED", 0x80, 2, 0x40, 1, 0, 4, 4, .rw, 0⟩,
  ⟨"PORT_CTRL.TX_EN", 0x80, 2, 0x40, 1, 0, 1, 1, .rw, 0⟩,
  ⟨"PORT_CTRL.RX_EN", 0x80, 2, 0x40, 1, 0, 0, 0, .rw, 0⟩,
  ⟨"PORT_STAT.LINK", 0x84, 2, 0x40, 1, 0, 31, 31, .ro, 0⟩,
  ⟨"PORT_STAT.AN_DONE", 0x84, 2, 0x40, 1, 0, 30, 30, .ro, 0⟩,
  ⟨"RX_BASE_LO", 0x88, 2, 0x40, 1, 0, 31, 11, .rw, 0⟩,
  ⟨"RX_BASE_HI", 0x8C, 2, 0x40, 1, 0, 31, 0, .rw, 0⟩,
  ⟨"TX_BASE_LO", 0x90, 2, 0x40, 1, 0, 31, 11, .rw, 0⟩,
  ⟨"TX_BASE_HI", 0x94, 2, 0x40, 1, 0, 31, 0, .rw, 0⟩,
  ⟨"LOG2.TX", 0x98, 2, 0x40, 1, 0, 11, 8, .rw, 4⟩,
  ⟨"LOG2.RX", 0x98, 2, 0x40, 1, 0, 3, 0, .rw, 4⟩,
  ⟨"RX_WR", 0x9C, 2, 0x40, 1, 0, 11, 0, .ro, 0⟩,
  ⟨"RX_RD", 0xA0, 2, 0x40, 1, 0, 11, 0, .rw, 0⟩,
  ⟨"TX_WR", 0xA4, 2, 0x40, 1, 0, 11, 0, .rw, 0⟩,
  ⟨"TX_RD", 0xA8, 2, 0x40, 1, 0, 11, 0, .ro, 0⟩,
  ⟨"TS_TX_OFS", 0xAC, 2, 0x40, 1, 0, 31, 16, .rw, 0⟩,
  ⟨"TS_RX_OFS", 0xAC, 2, 0x40, 1, 0, 15, 0, .rw, 0⟩,
  ⟨"CNT_RX_FULL", 0xB0, 2, 0x40, 1, 0, 31, 16, .ro, 0⟩,
  ⟨"CNT_RX_FCS", 0xB0, 2, 0x40, 1, 0, 15, 0, .ro, 0⟩,
  ⟨"CNT_TX_BAD", 0xB4, 2, 0x40, 1, 0, 31, 16, .ro, 0⟩,
  ⟨"CNT_RX_LONG", 0xB4, 2, 0x40, 1, 0, 15, 0, .ro, 0⟩,
  ⟨"CNT_CLEAR", 0xB8, 2, 0x40, 1, 0, 31, 0, .wo, 0⟩]
/-- Fields of ISO (17 R490). -/
def isoRows : List RegRow := [
  ⟨"ISO_STAT.LINK_OK", 0x40, 1, 0x0, 1, 0, 31, 31, .ro, 0⟩,
  ⟨"ISO_STAT.VSYS_UV", 0x40, 1, 0x0, 1, 0, 30, 30, .ro, 0⟩,
  ⟨"ISO_STAT.ISO_HOT", 0x40, 1, 0x0, 1, 0, 29, 29, .ro, 0⟩,
  ⟨"ISO_STAT.CRIT_LATCH", 0x40, 1, 0x0, 1, 0, 28, 28, .ro, 0⟩,
  ⟨"ISO_STAT.AGE", 0x40, 1, 0x0, 1, 0, 7, 0, .ro, 255⟩,
  ⟨"PERMIT_STAT.VOTE", 0x44, 1, 0x0, 1, 0, 31, 31, .ro, 0⟩,
  ⟨"PERMIT_STAT.LEVEL", 0x44, 1, 0x0, 1, 0, 26, 24, .ro, 0⟩,
  ⟨"PERMIT_STAT.FAULTED", 0x44, 1, 0x0, 1, 0, 18, 16, .ro, 0⟩,
  ⟨"PERMIT_STAT.CLEARABLE", 0x44, 1, 0x0, 1, 0, 10, 8, .ro, 0⟩,
  ⟨"PERMIT_CFG.FILT_US", 0x48, 1, 0x0, 1, 0, 25, 16, .rw, 500⟩,
  ⟨"PERMIT_CFG.DISC_MS", 0x48, 1, 0x0, 1, 0, 15, 0, .rw, 100⟩,
  ⟨"PERMIT_CLEAR.KEY", 0x4C, 1, 0x0, 1, 0, 31, 16, .wo, 0⟩,
  ⟨"LE_MASK_LO", 0x50, 1, 0x0, 1, 0, 31, 0, .rw, 0⟩,
  ⟨"LE_MASK_HI", 0x54, 1, 0x0, 1, 0, 15, 0, .rw, 0⟩,
  ⟨"LE_CMD_LO", 0x58, 1, 0x0, 1, 0, 31, 0, .ro, 0⟩,
  ⟨"LE_CMD_HI", 0x5C, 1, 0x0, 1, 0, 15, 0, .ro, 0⟩,
  ⟨"LE_OUT_LO", 0x60, 1, 0x0, 1, 0, 31, 0, .ro, 0⟩,
  ⟨"LE_OUT_HI", 0x64, 1, 0x0, 1, 0, 15, 0, .ro, 0⟩,
  ⟨"LE_OVL_LO", 0x68, 1, 0x0, 1, 0, 31, 0, .w1c, 0⟩,
  ⟨"LE_OVL_HI", 0x6C, 1, 0x0, 1, 0, 15, 0, .w1c, 0⟩,
  ⟨"LE_STUCK_LO", 0x70, 1, 0x0, 1, 0, 31, 0, .ro, 0⟩,
  ⟨"LE_STUCK_HI", 0x74, 1, 0x0, 1, 0, 15, 0, .ro, 0⟩,
  ⟨"DI_LO", 0x78, 1, 0x0, 1, 0, 31, 0, .ro, 0⟩,
  ⟨"DI_HI", 0x7C, 1, 0x0, 1, 0, 15, 0, .ro, 0⟩,
  ⟨"DO_OUT", 0x80, 1, 0x0, 1, 0, 15, 0, .rw, 0⟩,
  ⟨"DO_SAFE", 0x84, 1, 0x0, 1, 0, 15, 0, .rw, 0⟩,
  ⟨"DO_STAT.FAULT", 0x88, 1, 0x0, 1, 0, 31, 16, .w1c, 0⟩,
  ⟨"DO_STAT.OUT", 0x88, 1, 0x0, 1, 0, 15, 0, .ro, 0⟩,
  ⟨"CNT_LINK_LOSS", 0x8C, 1, 0x0, 1, 0, 31, 16, .ro, 0⟩,
  ⟨"CNT_LINK_ERR", 0x8C, 1, 0x0, 1, 0, 15, 0, .ro, 0⟩,
  ⟨"CNT_CLEAR", 0x90, 1, 0x0, 1, 0, 31, 0, .wo, 0⟩,
  ⟨"DI_FILT_F0", 0xC0, 1, 0x0, 12, 4, 7, 0, .rw, 0⟩,
  ⟨"DI_FILT_F1", 0xC0, 1, 0x0, 12, 4, 15, 8, .rw, 0⟩,
  ⟨"DI_FILT_F2", 0xC0, 1, 0x0, 12, 4, 23, 16, .rw, 0⟩,
  ⟨"DI_FILT_F3", 0xC0, 1, 0x0, 12, 4, 31, 24, .rw, 0⟩]
/-- Fields of SC (18 R495). -/
def scRows : List RegRow := [
  ⟨"SC_ID.PART", 0x0, 1, 0x0, 1, 0, 31, 16, .ro, 23570⟩,
  ⟨"SC_ID.REV", 0x0, 1, 0x0, 1, 0, 15, 0, .ro, 0⟩,
  ⟨"SC_CTRL.ENABLE", 0x4, 1, 0x0, 1, 0, 0, 0, .rw, 0⟩,
  ⟨"SC_DONE", 0x8, 1, 0x0, 1, 0, 11, 0, .ro, 0⟩,
  ⟨"SC_DONE_CLR", 0xC, 1, 0x0, 1, 0, 31, 0, .wo, 0⟩,
  ⟨"SC_BUSY.RUN", 0x10, 1, 0x0, 1, 0, 23, 12, .ro, 0⟩,
  ⟨"SC_BUSY.LOADED", 0x10, 1, 0x0, 1, 0, 11, 0, .ro, 0⟩,
  ⟨"SC_GO", 0x14, 1, 0x0, 1, 0, 11, 0, .wo, 0⟩,
  ⟨"SC_STOP", 0x18, 1, 0x0, 1, 0, 31, 0, .wo, 0⟩,
  ⟨"SC_IRQ_EN.ERR", 0x1C, 1, 0x0, 1, 0, 31, 31, .rw, 0⟩,
  ⟨"SC_IRQ_EN.DONE", 0x1C, 1, 0x0, 1, 0, 11, 0, .rw, 0⟩,
  ⟨"SC_ERR.CHANNEL", 0x20, 1, 0x0, 1, 0, 11, 8, .ro, 0⟩,
  ⟨"SC_ERR.CODE", 0x20, 1, 0x0, 1, 0, 7, 0, .ro, 0⟩,
  ⟨"X_MAP_VALID", 0xF000, 1, 0x0, 1, 0, 11, 0, .ro, 0⟩,
  ⟨"X_MAPc.HEAD", 0xF004, 1, 0x0, 12, 4, 5, 0, .ro, 0⟩,
  ⟨"X_MERGED", 0xF040, 1, 0x0, 1, 0, 31, 0, .ro, 0⟩,
  ⟨"X_CLAMPED", 0xF044, 1, 0x0, 1, 0, 31, 0, .ro, 0⟩,
  ⟨"X_PARAM_IGN", 0xF048, 1, 0x0, 1, 0, 15, 0, .ro, 0⟩,
  ⟨"X_HO.MAPPED", 0xF04C, 1, 0x0, 1, 0, 31, 16, .ro, 0⟩,
  ⟨"X_HO.SPARE", 0xF04C, 1, 0x0, 1, 0, 15, 0, .ro, 0⟩,
  ⟨"X_CTX_USED", 0xF050, 1, 0x0, 1, 0, 7, 0, .ro, 0⟩,
  ⟨"X_REFUSE.CHANNEL", 0xF054, 1, 0x0, 1, 0, 19, 16, .ro, 0⟩,
  ⟨"X_REFUSE.SEG", 0xF054, 1, 0x0, 1, 0, 15, 0, .ro, 0⟩,
  ⟨"X_PRESET_REJ", 0xF058, 1, 0x0, 1, 0, 15, 0, .ro, 0⟩]
/-- Fields of SCC (18 R495). -/
def sccRows : List RegRow := [
  ⟨"CH_LIST_PORT", 0x1000, 12, 0x1000, 1, 0, 31, 0, .wo, 0⟩,
  ⟨"CH_LIST_FREE", 0x1004, 12, 0x1000, 1, 0, 16, 0, .ro, 65536⟩,
  ⟨"CH_LIST_RESET", 0x1008, 12, 0x1000, 1, 0, 31, 0, .wo, 0⟩,
  ⟨"CH_POS_X", 0x100C, 12, 0x1000, 1, 0, 31, 0, .ro, 0⟩,
  ⟨"CH_POS_Y", 0x1010, 12, 0x1000, 1, 0, 31, 0, .ro, 0⟩,
  ⟨"CH_SEG", 0x1014, 12, 0x1000, 1, 0, 15, 0, .ro, 0⟩,
  ⟨"CH_STATE", 0x1018, 12, 0x1000, 1, 0, 2, 0, .ro, 0⟩,
  ⟨"CH_PARAMi", 0x1100, 12, 0x1000, 64, 4, 31, 0, .rw, 0⟩,
  ⟨"CH_CORR", 0x1800, 12, 0x1000, 512, 4, 31, 0, .rw, 0⟩]
end RegTable

/-- The pages of BAR0 (19 R505) and the SC-12 window (18 R494), which has the layout of a page without a header. -/
inductive Pg where
  | sys | boot | irq | unit | time | evr | hk | cal | seq | hd | loop | ploop | ibex | fire | cp | ip | ax | bp | led | ddr | dma | pcie | eth | iso | sc
  deriving DecidableEq, Repr

/-- The field rows above the header of each page. -/
def Pg.rows : Pg → List RegRow
  | .sys => RegTable.sysRows
  | .boot => RegTable.bootRows
  | .irq => RegTable.irqRows
  | .unit => RegTable.unitRows1 ++ RegTable.unitRows2
  | .time => RegTable.timeRows
  | .evr => RegTable.evrRows
  | .hk => RegTable.hkRows
  | .cal => RegTable.calRows
  | .seq => RegTable.seqRows
  | .hd => RegTable.hdRows1 ++ RegTable.hdRows2 ++ RegTable.hdRows3 ++ RegTable.hdRows4
  | .loop => RegTable.loopRows ++ RegTable.slotRows1 ++ RegTable.slotRows2
  | .ploop => RegTable.ploopRows ++ RegTable.plRows1 ++ RegTable.plRows2
  | .ibex => RegTable.ibexRows
  | .fire => RegTable.fireRows
  | .cp => RegTable.cpRows
  | .ip => RegTable.ipRows ++ RegTable.ipsRows
  | .ax => RegTable.axRows1 ++ RegTable.axRows2
  | .bp => RegTable.bpRows ++ RegTable.bpsRows
  | .led => RegTable.ledRows
  | .ddr => RegTable.ddrRows1 ++ RegTable.ddrRows2
  | .dma => RegTable.dmaRows
  | .pcie => RegTable.pcieRows
  | .eth => RegTable.ethRows ++ RegTable.ethpRows
  | .iso => RegTable.isoRows
  | .sc => RegTable.scRows ++ RegTable.sccRows

/-- One row of R505: base, number of instances, TYPE, SHADOWED, LAYER_COMMIT, reset of ENABLE. -/
structure PgInfo where
  pg : Pg
  base : Nat
  count : Nat
  type : Nat
  shd : Bool
  lc : Bool
  en : Bool
  deriving DecidableEq, Repr

/-- The page index (19 R505). -/
def pageIndex : List PgInfo := [
  ⟨.sys, 0x0, 1, 0x1, false, false, true⟩,
  ⟨.boot, 0x1000, 1, 0x2, false, false, true⟩,
  ⟨.irq, 0x2000, 1, 0x3, false, false, true⟩,
  ⟨.unit, 0x3000, 1, 0x4, false, false, true⟩,
  ⟨.time, 0x4000, 1, 0x5, false, false, true⟩,
  ⟨.evr, 0x5000, 1, 0x6, false, false, true⟩,
  ⟨.hk, 0x6000, 1, 0x7, false, false, true⟩,
  ⟨.cal, 0x7000, 1, 0x8, false, false, true⟩,
  ⟨.seq, 0x8000, 1, 0x10, false, false, true⟩,
  ⟨.hd, 0x10000, 48, 0x11, true, true, true⟩,
  ⟨.loop, 0x40000, 10, 0x12, true, true, true⟩,
  ⟨.ploop, 0x50000, 4, 0x13, true, true, true⟩,
  ⟨.ibex, 0x60000, 1, 0x14, true, true, true⟩,
  ⟨.fire, 0x70000, 1, 0x15, true, true, true⟩,
  ⟨.cp, 0x80000, 12, 0x20, true, true, false⟩,
  ⟨.ip, 0x90000, 7, 0x21, true, true, false⟩,
  ⟨.ax, 0xA0000, 16, 0x30, true, true, false⟩,
  ⟨.bp, 0xB0000, 8, 0x31, false, false, false⟩,
  ⟨.led, 0xC0000, 1, 0x32, false, false, false⟩,
  ⟨.ddr, 0xD0000, 1, 0x40, false, false, true⟩,
  ⟨.dma, 0xE0000, 32, 0x41, false, false, true⟩,
  ⟨.pcie, 0x100000, 1, 0x50, false, false, true⟩,
  ⟨.eth, 0x110000, 1, 0x51, false, false, true⟩,
  ⟨.iso, 0x120000, 1, 0x60, false, false, true⟩]

end Sys2Proof.Machine
end

