-- ==== Sys2Proof/Machine/Fields.lean ====
section
/-!
DEFINITION. The register fields of the spec by name: word address in BAR0 and bits. `n` is the page instance, `b` the block in the page,
`i` the word of an array. Names are <page>_<REGISTER>_<FIELD> as in the spec's field tables.
-/
namespace Sys2Proof.Machine

/-- A field: the BAR0 address of its register and its bits. -/
structure Fld where
  addr : Nat
  hi : Nat
  lo : Nat
  deriving DecidableEq, Repr

namespace F

/-- PAGE_ID.TYPE (02 R52). -/ abbrev hdr_PAGE_ID_TYPE (p : Nat) : Fld := ⟨p + 0x0, 31, 16⟩
/-- PAGE_ID.INST (02 R52). -/ abbrev hdr_PAGE_ID_INST (p : Nat) : Fld := ⟨p + 0x0, 15, 8⟩
/-- PAGE_ID.LAYOUT (02 R52). -/ abbrev hdr_PAGE_ID_LAYOUT (p : Nat) : Fld := ⟨p + 0x0, 7, 0⟩
/-- PAGE_CAP.SHADOWED (02 R52). -/ abbrev hdr_PAGE_CAP_SHADOWED (p : Nat) : Fld := ⟨p + 0x4, 31, 31⟩
/-- PAGE_CAP.LAYER_COMMIT (02 R52). -/ abbrev hdr_PAGE_CAP_LAYER_COMMIT (p : Nat) : Fld := ⟨p + 0x4, 30, 30⟩
/-- PAGE_CAP.BLOCK_CAP (02 R52). -/ abbrev hdr_PAGE_CAP_BLOCK_CAP (p : Nat) : Fld := ⟨p + 0x4, 29, 0⟩
/-- PAGE_CTRL.ERR_CLR (02 R52). -/ abbrev hdr_PAGE_CTRL_ERR_CLR (p : Nat) : Fld := ⟨p + 0x8, 3, 3⟩
/-- PAGE_CTRL.LOCK (02 R52). -/ abbrev hdr_PAGE_CTRL_LOCK (p : Nat) : Fld := ⟨p + 0x8, 2, 2⟩
/-- PAGE_CTRL.SOFT_RESET (02 R52). -/ abbrev hdr_PAGE_CTRL_SOFT_RESET (p : Nat) : Fld := ⟨p + 0x8, 1, 1⟩
/-- PAGE_CTRL.ENABLE (02 R52). -/ abbrev hdr_PAGE_CTRL_ENABLE (p : Nat) : Fld := ⟨p + 0x8, 0, 0⟩
/-- PAGE_STAT.BLOCK_STAT (02 R52). -/ abbrev hdr_PAGE_STAT_BLOCK_STAT (p : Nat) : Fld := ⟨p + 0xC, 31, 16⟩
/-- PAGE_STAT.ERR (02 R52). -/ abbrev hdr_PAGE_STAT_ERR (p : Nat) : Fld := ⟨p + 0xC, 3, 3⟩
/-- PAGE_STAT.LOCKED (02 R52). -/ abbrev hdr_PAGE_STAT_LOCKED (p : Nat) : Fld := ⟨p + 0xC, 2, 2⟩
/-- PAGE_STAT.COMMIT_PENDING (02 R52). -/ abbrev hdr_PAGE_STAT_COMMIT_PENDING (p : Nat) : Fld := ⟨p + 0xC, 1, 1⟩
/-- PAGE_STAT.ENABLED (02 R52). -/ abbrev hdr_PAGE_STAT_ENABLED (p : Nat) : Fld := ⟨p + 0xC, 0, 0⟩
/-- EVT_RAW.EVENTS (02 R52). -/ abbrev hdr_EVT_RAW_EVENTS (p : Nat) : Fld := ⟨p + 0x10, 31, 0⟩
/-- EVT_EN.ENABLES (02 R52). -/ abbrev hdr_EVT_EN_ENABLES (p : Nat) : Fld := ⟨p + 0x14, 31, 0⟩
/-- EVT_FORCE.FORCE (02 R52). -/ abbrev hdr_EVT_FORCE_FORCE (p : Nat) : Fld := ⟨p + 0x18, 31, 0⟩
/-- EVT_ROUTE.ROUTE_EN (02 R52). -/ abbrev hdr_EVT_ROUTE_ROUTE_EN (p : Nat) : Fld := ⟨p + 0x1C, 31, 31⟩
/-- EVT_ROUTE.VECTOR (02 R52). -/ abbrev hdr_EVT_ROUTE_VECTOR (p : Nat) : Fld := ⟨p + 0x1C, 5, 0⟩
/-- ERR_INFO.CODE (02 R52). -/ abbrev hdr_ERR_INFO_CODE (p : Nat) : Fld := ⟨p + 0x20, 31, 24⟩
/-- ERR_INFO.COUNT (02 R52). -/ abbrev hdr_ERR_INFO_COUNT (p : Nat) : Fld := ⟨p + 0x20, 23, 16⟩
/-- ERR_INFO.DETAIL (02 R52). -/ abbrev hdr_ERR_INFO_DETAIL (p : Nat) : Fld := ⟨p + 0x20, 15, 0⟩
/-- ERR_ADDR.ADDR (02 R52). -/ abbrev hdr_ERR_ADDR_ADDR (p : Nat) : Fld := ⟨p + 0x24, 31, 0⟩
/-- SHADOW_CTRL.COMMIT_COUNT (02 R52). -/ abbrev hdr_SHADOW_CTRL_COMMIT_COUNT (p : Nat) : Fld := ⟨p + 0x28, 31, 16⟩
/-- SHADOW_CTRL.POINT (02 R52). -/ abbrev hdr_SHADOW_CTRL_POINT (p : Nat) : Fld := ⟨p + 0x28, 1, 0⟩
/-- SYS_STATE.FAULT_CAUSE (02 R74). -/ abbrev sys_SYS_STATE_FAULT_CAUSE : Fld := ⟨0x40, 15, 8⟩
/-- SYS_STATE.MODE (02 R74). -/ abbrev sys_SYS_STATE_MODE : Fld := ⟨0x40, 7, 4⟩
/-- SYS_STATE.STATE (02 R74). -/ abbrev sys_SYS_STATE_STATE : Fld := ⟨0x40, 3, 0⟩
/-- SYS_CMD.KEY (02 R74). -/ abbrev sys_SYS_CMD_KEY : Fld := ⟨0x44, 31, 16⟩
/-- SYS_CMD.CMD (02 R74). -/ abbrev sys_SYS_CMD_CMD : Fld := ⟨0x44, 3, 0⟩
/-- CMD_STAT.RESULT (02 R74). -/ abbrev sys_CMD_STAT_RESULT : Fld := ⟨0x48, 7, 4⟩
/-- CMD_STAT.CMD (02 R74). -/ abbrev sys_CMD_STAT_CMD : Fld := ⟨0x48, 3, 0⟩
/-- DEV_RESET (02 R74). -/ abbrev sys_DEV_RESET : Fld := ⟨0x4C, 31, 0⟩
/-- HOST_WDOG.ACTION (02 R74). -/ abbrev sys_HOST_WDOG_ACTION : Fld := ⟨0x50, 16, 16⟩
/-- HOST_WDOG.TIMEOUT (02 R74). -/ abbrev sys_HOST_WDOG_TIMEOUT : Fld := ⟨0x50, 15, 0⟩
/-- HOST_KICK (02 R74). -/ abbrev sys_HOST_KICK : Fld := ⟨0x54, 31, 0⟩
/-- SHADOW_RELEASE (02 R74). -/ abbrev sys_SHADOW_RELEASE : Fld := ⟨0x58, 1, 0⟩
/-- DEV_ID.PART (02 R74). -/ abbrev sys_DEV_ID_PART : Fld := ⟨0x5C, 31, 16⟩
/-- DEV_ID.STEPPING (02 R74). -/ abbrev sys_DEV_ID_STEPPING : Fld := ⟨0x5C, 15, 8⟩
/-- DEV_ID.GRADE (02 R74). -/ abbrev sys_DEV_ID_GRADE : Fld := ⟨0x5C, 7, 0⟩
/-- IMG_LEN (02 R68). -/ abbrev boot_IMG_LEN : Fld := ⟨0x1000 + 0x40, 31, 0⟩
/-- IMG_GO (02 R68). -/ abbrev boot_IMG_GO : Fld := ⟨0x1000 + 0x44, 31, 0⟩
/-- IMG_STATUS.SECTION (02 R68). -/ abbrev boot_IMG_STATUS_SECTION : Fld := ⟨0x1000 + 0x48, 11, 8⟩
/-- IMG_STATUS.CODE (02 R68). -/ abbrev boot_IMG_STATUS_CODE : Fld := ⟨0x1000 + 0x48, 7, 0⟩
/-- IMG_INFO.SEC_VER (02 R68). -/ abbrev boot_IMG_INFO_SEC_VER : Fld := ⟨0x1000 + 0x4C, 21, 16⟩
/-- IMG_INFO.KEY_SLOT (02 R68). -/ abbrev boot_IMG_INFO_KEY_SLOT : Fld := ⟨0x1000 + 0x4C, 9, 8⟩
/-- IMG_INFO.MODE (02 R68). -/ abbrev boot_IMG_INFO_MODE : Fld := ⟨0x1000 + 0x4C, 3, 0⟩
/-- SLOT_STATE (02 R68). -/ abbrev boot_SLOT_STATE : Fld := ⟨0x1000 + 0x50, 7, 0⟩
/-- SEC_VER_MIN (02 R68). -/ abbrev boot_SEC_VER_MIN : Fld := ⟨0x1000 + 0x54, 5, 0⟩
/-- ENROLL_DIGEST (02 R68). -/ abbrev boot_ENROLL_DIGEST (i : Nat) : Fld := ⟨0x1000 + 4 * i + 0x60, 31, 0⟩
/-- ENROLL_CMD.KEY (02 R68). -/ abbrev boot_ENROLL_CMD_KEY : Fld := ⟨0x1000 + 0x80, 31, 16⟩
/-- ENROLL_CMD.SLOT (02 R68). -/ abbrev boot_ENROLL_CMD_SLOT : Fld := ⟨0x1000 + 0x80, 3, 2⟩
/-- ENROLL_CMD.OP (02 R68). -/ abbrev boot_ENROLL_CMD_OP : Fld := ⟨0x1000 + 0x80, 1, 0⟩
/-- ENROLL_STAT (02 R68). -/ abbrev boot_ENROLL_STAT : Fld := ⟨0x1000 + 0x84, 1, 0⟩
/-- ROM_KEY (02 R68). -/ abbrev boot_ROM_KEY (i : Nat) : Fld := ⟨0x1000 + 4 * i + 0xA0, 31, 0⟩
/-- PEND_LO (02 R61). -/ abbrev irq_PEND_LO : Fld := ⟨0x2000 + 0x40, 31, 0⟩
/-- PEND_HI (02 R61). -/ abbrev irq_PEND_HI : Fld := ⟨0x2000 + 0x44, 31, 0⟩
/-- HOLDOFF (02 R61). -/ abbrev irq_HOLDOFF (i : Nat) : Fld := ⟨0x2000 + 4 * i + 0x100, 15, 0⟩
/-- UNIT_STAT.ACTIVE (14 R428). -/ abbrev unit_UNIT_STAT_ACTIVE : Fld := ⟨0x3000 + 0x40, 31, 31⟩
/-- UNIT_STAT.REDUNDANT (14 R428). -/ abbrev unit_UNIT_STAT_REDUNDANT : Fld := ⟨0x3000 + 0x40, 30, 30⟩
/-- UNIT_STAT.A_STATE (14 R428). -/ abbrev unit_UNIT_STAT_A_STATE : Fld := ⟨0x3000 + 0x40, 27, 24⟩
/-- UNIT_STAT.B_STATE (14 R428). -/ abbrev unit_UNIT_STAT_B_STATE : Fld := ⟨0x3000 + 0x40, 23, 20⟩
/-- UNIT_STAT.A_WORD (14 R428). -/ abbrev unit_UNIT_STAT_A_WORD : Fld := ⟨0x3000 + 0x40, 17, 16⟩
/-- UNIT_STAT.B_WORD (14 R428). -/ abbrev unit_UNIT_STAT_B_WORD : Fld := ⟨0x3000 + 0x40, 13, 12⟩
/-- UNIT_STAT.PATH_MGMT_OK (14 R428). -/ abbrev unit_UNIT_STAT_PATH_MGMT_OK : Fld := ⟨0x3000 + 0x40, 9, 9⟩
/-- UNIT_STAT.PATH_DIE_OK (14 R428). -/ abbrev unit_UNIT_STAT_PATH_DIE_OK : Fld := ⟨0x3000 + 0x40, 8, 8⟩
/-- UNIT_STAT.LAST_CAUSE (14 R428). -/ abbrev unit_UNIT_STAT_LAST_CAUSE : Fld := ⟨0x3000 + 0x40, 3, 0⟩
/-- REVERT_COUNT (14 R428). -/ abbrev unit_REVERT_COUNT : Fld := ⟨0x3000 + 0x44, 31, 16⟩
/-- FAILOVER_COUNT (14 R428). -/ abbrev unit_FAILOVER_COUNT : Fld := ⟨0x3000 + 0x44, 15, 0⟩
/-- REV_DEFER (14 R428). -/ abbrev unit_REV_DEFER : Fld := ⟨0x3000 + 0x48, 3, 0⟩
/-- REV_DWELL (14 R428). -/ abbrev unit_REV_DWELL : Fld := ⟨0x3000 + 0x4C, 5, 0⟩
/-- REV_STAT.STATE (14 R428). -/ abbrev unit_REV_STAT_STATE : Fld := ⟨0x3000 + 0x50, 31, 30⟩
/-- REV_STAT.DEFER_LEFT (14 R428). -/ abbrev unit_REV_STAT_DEFER_LEFT : Fld := ⟨0x3000 + 0x50, 27, 24⟩
/-- REV_STAT.DWELL_LEFT (14 R428). -/ abbrev unit_REV_STAT_DWELL_LEFT : Fld := ⟨0x3000 + 0x50, 15, 0⟩
/-- BLEAT_STAT.DIE_MISS (14 R428). -/ abbrev unit_BLEAT_STAT_DIE_MISS : Fld := ⟨0x3000 + 0x54, 31, 24⟩
/-- BLEAT_STAT.MGMT_MISS (14 R428). -/ abbrev unit_BLEAT_STAT_MGMT_MISS : Fld := ⟨0x3000 + 0x54, 23, 16⟩
/-- PATH_FAULTS.MGMT (14 R428). -/ abbrev unit_PATH_FAULTS_MGMT : Fld := ⟨0x3000 + 0x58, 31, 16⟩
/-- PATH_FAULTS.DIE (14 R428). -/ abbrev unit_PATH_FAULTS_DIE : Fld := ⟨0x3000 + 0x58, 15, 0⟩
/-- DIVERGE_COUNT (14 R428). -/ abbrev unit_DIVERGE_COUNT : Fld := ⟨0x3000 + 0x5C, 31, 16⟩
/-- UNEXPLAINED (14 R428). -/ abbrev unit_UNEXPLAINED : Fld := ⟨0x3000 + 0x5C, 15, 0⟩
/-- DIVERGE_INFO.FRAME (14 R428). -/ abbrev unit_DIVERGE_INFO_FRAME : Fld := ⟨0x3000 + 0x60, 31, 16⟩
/-- DIVERGE_INFO.ITEM (14 R428). -/ abbrev unit_DIVERGE_INFO_ITEM : Fld := ⟨0x3000 + 0x60, 15, 12⟩
/-- DIVERGE_INFO.INDEX (14 R428). -/ abbrev unit_DIVERGE_INFO_INDEX : Fld := ⟨0x3000 + 0x60, 7, 0⟩
/-- UNIT_CMD.KEY (14 R428). -/ abbrev unit_UNIT_CMD_KEY : Fld := ⟨0x3000 + 0x64, 31, 16⟩
/-- UNIT_CMD.OP (14 R428). -/ abbrev unit_UNIT_CMD_OP : Fld := ⟨0x3000 + 0x64, 3, 0⟩
/-- A_PASSES (14 R428). -/ abbrev unit_A_PASSES : Fld := ⟨0x3000 + 0x68, 31, 0⟩
/-- B_PASSES (14 R428). -/ abbrev unit_B_PASSES : Fld := ⟨0x3000 + 0x6C, 31, 0⟩
/-- A_FAILS (14 R428). -/ abbrev unit_A_FAILS : Fld := ⟨0x3000 + 0x70, 31, 16⟩
/-- B_FAILS (14 R428). -/ abbrev unit_B_FAILS : Fld := ⟨0x3000 + 0x70, 15, 0⟩
/-- LAST_FAIL.UNIT (14 R428). -/ abbrev unit_LAST_FAIL_UNIT : Fld := ⟨0x3000 + 0x74, 31, 31⟩
/-- LAST_FAIL.CLASS (14 R428). -/ abbrev unit_LAST_FAIL_CLASS : Fld := ⟨0x3000 + 0x74, 27, 24⟩
/-- LAST_FAIL.BLOCK (14 R428). -/ abbrev unit_LAST_FAIL_BLOCK : Fld := ⟨0x3000 + 0x74, 23, 16⟩
/-- LAST_FAIL.INDEX (14 R428). -/ abbrev unit_LAST_FAIL_INDEX : Fld := ⟨0x3000 + 0x74, 15, 0⟩
/-- REMAP_CTRL.AUTO (14 R428). -/ abbrev unit_REMAP_CTRL_AUTO : Fld := ⟨0x3000 + 0x78, 0, 0⟩
/-- REMAP_REQ.KEY (14 R428). -/ abbrev unit_REMAP_REQ_KEY : Fld := ⟨0x3000 + 0x7C, 31, 16⟩
/-- REMAP_REQ.KIND (14 R428). -/ abbrev unit_REMAP_REQ_KIND : Fld := ⟨0x3000 + 0x7C, 13, 12⟩
/-- REMAP_REQ.INDEX (14 R428). -/ abbrev unit_REMAP_REQ_INDEX : Fld := ⟨0x3000 + 0x7C, 7, 0⟩
/-- REMAP_GO (14 R428). -/ abbrev unit_REMAP_GO : Fld := ⟨0x3000 + 0x80, 31, 0⟩
/-- SPARE_STAT.LS_FREE (14 R428). -/ abbrev unit_SPARE_STAT_LS_FREE : Fld := ⟨0x3000 + 0x84, 31, 24⟩
/-- SPARE_STAT.PL_FREE (14 R428). -/ abbrev unit_SPARE_STAT_PL_FREE : Fld := ⟨0x3000 + 0x84, 23, 16⟩
/-- SPARE_STAT.IP_FREE (14 R428). -/ abbrev unit_SPARE_STAT_IP_FREE : Fld := ⟨0x3000 + 0x84, 15, 8⟩
/-- SPARE_STAT.PENDING (14 R428). -/ abbrev unit_SPARE_STAT_PENDING : Fld := ⟨0x3000 + 0x84, 7, 0⟩
/-- SRAM_SPARE.FREE (14 R428). -/ abbrev unit_SRAM_SPARE_FREE : Fld := ⟨0x3000 + 0x88, 31, 16⟩
/-- SRAM_SPARE.USED (14 R428). -/ abbrev unit_SRAM_SPARE_USED : Fld := ⟨0x3000 + 0x88, 15, 0⟩
/-- CONFLICT_COUNT (14 R428). -/ abbrev unit_CONFLICT_COUNT : Fld := ⟨0x3000 + 0x8C, 15, 0⟩
/-- HEAD_MGMT_DOWN_LO (14 R428). -/ abbrev unit_HEAD_MGMT_DOWN_LO : Fld := ⟨0x3000 + 0x90, 31, 0⟩
/-- HEAD_MGMT_DOWN_HI (14 R428). -/ abbrev unit_HEAD_MGMT_DOWN_HI : Fld := ⟨0x3000 + 0x94, 15, 0⟩
/-- HEAD_MGMT_LIMIT_LO (14 R428). -/ abbrev unit_HEAD_MGMT_LIMIT_LO : Fld := ⟨0x3000 + 0x98, 31, 0⟩
/-- HEAD_MGMT_LIMIT_HI (14 R428). -/ abbrev unit_HEAD_MGMT_LIMIT_HI : Fld := ⟨0x3000 + 0x9C, 15, 0⟩
/-- HEAD_DOWN_LO (14 R428). -/ abbrev unit_HEAD_DOWN_LO : Fld := ⟨0x3000 + 0xA0, 31, 0⟩
/-- HEAD_DOWN_HI (14 R428). -/ abbrev unit_HEAD_DOWN_HI : Fld := ⟨0x3000 + 0xA4, 15, 0⟩
/-- HEAD_LIMITED_LO (14 R428). -/ abbrev unit_HEAD_LIMITED_LO : Fld := ⟨0x3000 + 0xA8, 31, 0⟩
/-- HEAD_LIMITED_HI (14 R428). -/ abbrev unit_HEAD_LIMITED_HI : Fld := ⟨0x3000 + 0xAC, 15, 0⟩
/-- HEALTH (14 R428). -/ abbrev unit_HEALTH (i : Nat) : Fld := ⟨0x3000 + 4 * i + 0xC0, 31, 0⟩
/-- REMAP_Qi.STATE (14 R428). -/ abbrev unit_REMAP_Qi_STATE (i : Nat) : Fld := ⟨0x3000 + 8 * i + 0x100, 31, 29⟩
/-- REMAP_Qi.KIND (14 R428). -/ abbrev unit_REMAP_Qi_KIND (i : Nat) : Fld := ⟨0x3000 + 8 * i + 0x100, 27, 24⟩
/-- REMAP_Qi.FROM (14 R428). -/ abbrev unit_REMAP_Qi_FROM (i : Nat) : Fld := ⟨0x3000 + 8 * i + 0x100, 23, 12⟩
/-- REMAP_Qi.TO (14 R428). -/ abbrev unit_REMAP_Qi_TO (i : Nat) : Fld := ⟨0x3000 + 8 * i + 0x100, 11, 0⟩
/-- REMAP_Qi.ROW (14 R428). -/ abbrev unit_REMAP_Qi_ROW (i : Nat) : Fld := ⟨0x3000 + 8 * i + 0x104, 31, 0⟩
/-- TIME_INC_LO (15 R449). -/ abbrev time_TIME_INC_LO : Fld := ⟨0x4000 + 0x40, 31, 0⟩
/-- TIME_INC_HI (15 R449). -/ abbrev time_TIME_INC_HI : Fld := ⟨0x4000 + 0x44, 1, 0⟩
/-- SET_NS (15 R449). -/ abbrev time_SET_NS : Fld := ⟨0x4000 + 0x48, 29, 0⟩
/-- SET_SEC_LO (15 R449). -/ abbrev time_SET_SEC_LO : Fld := ⟨0x4000 + 0x4C, 31, 0⟩
/-- SET_SEC_HI (15 R449). -/ abbrev time_SET_SEC_HI : Fld := ⟨0x4000 + 0x50, 15, 0⟩
/-- ADD_NS (15 R449). -/ abbrev time_ADD_NS : Fld := ⟨0x4000 + 0x54, 31, 0⟩
/-- ADD_SEC (15 R449). -/ abbrev time_ADD_SEC : Fld := ⟨0x4000 + 0x58, 31, 0⟩
/-- TIME_CMD.KEY (15 R449). -/ abbrev time_TIME_CMD_KEY : Fld := ⟨0x4000 + 0x5C, 31, 16⟩
/-- TIME_CMD.OP (15 R449). -/ abbrev time_TIME_CMD_OP : Fld := ⟨0x4000 + 0x5C, 2, 0⟩
/-- TIME_STAT.CAP_PENDING (15 R449). -/ abbrev time_TIME_STAT_CAP_PENDING : Fld := ⟨0x4000 + 0x60, 1, 1⟩
/-- TIME_STAT.STEP_PENDING (15 R449). -/ abbrev time_TIME_STAT_STEP_PENDING : Fld := ⟨0x4000 + 0x60, 0, 0⟩
/-- CAP_NS (15 R449). -/ abbrev time_CAP_NS : Fld := ⟨0x4000 + 0x64, 29, 0⟩
/-- CAP_SEC_LO (15 R449). -/ abbrev time_CAP_SEC_LO : Fld := ⟨0x4000 + 0x68, 31, 0⟩
/-- CAP_SEC_HI (15 R449). -/ abbrev time_CAP_SEC_HI : Fld := ⟨0x4000 + 0x6C, 15, 0⟩
/-- CAP_FRAC (15 R449). -/ abbrev time_CAP_FRAC : Fld := ⟨0x4000 + 0x70, 31, 0⟩
/-- CAP_FRAME_LO (15 R449). -/ abbrev time_CAP_FRAME_LO : Fld := ⟨0x4000 + 0x74, 31, 0⟩
/-- CAP_FRAME_HI (15 R449). -/ abbrev time_CAP_FRAME_HI : Fld := ⟨0x4000 + 0x78, 31, 0⟩
/-- CAP_CYCLE (15 R449). -/ abbrev time_CAP_CYCLE : Fld := ⟨0x4000 + 0x7C, 10, 0⟩
/-- STEP_COUNT (15 R449). -/ abbrev time_STEP_COUNT : Fld := ⟨0x4000 + 0x80, 15, 0⟩
/-- TCMPk.CTRL.EN (15 R449). -/ abbrev time_TCMPk_CTRL_EN (i : Nat) : Fld := ⟨0x4000 + 32 * i + 0x100, 0, 0⟩
/-- TCMPk.TARGET_NS (15 R449). -/ abbrev time_TCMPk_TARGET_NS (i : Nat) : Fld := ⟨0x4000 + 32 * i + 0x104, 29, 0⟩
/-- TCMPk.TARGET_SEC_LO (15 R449). -/ abbrev time_TCMPk_TARGET_SEC_LO (i : Nat) : Fld := ⟨0x4000 + 32 * i + 0x108, 31, 0⟩
/-- TCMPk.TARGET_SEC_HI (15 R449). -/ abbrev time_TCMPk_TARGET_SEC_HI (i : Nat) : Fld := ⟨0x4000 + 32 * i + 0x10C, 15, 0⟩
/-- TCMPk.PERIOD (15 R449). -/ abbrev time_TCMPk_PERIOD (i : Nat) : Fld := ⟨0x4000 + 32 * i + 0x110, 31, 0⟩
/-- TCMPk.STAT.ARMED (15 R449). -/ abbrev time_TCMPk_STAT_ARMED (i : Nat) : Fld := ⟨0x4000 + 32 * i + 0x114, 31, 31⟩
/-- TCMPk.STAT.MISSED (15 R449). -/ abbrev time_TCMPk_STAT_MISSED (i : Nat) : Fld := ⟨0x4000 + 32 * i + 0x114, 15, 0⟩
/-- REGION_LO (15 R450). -/ abbrev evr_REGION_LO : Fld := ⟨0x5000 + 0x40, 31, 0⟩
/-- REGION_HI (15 R450). -/ abbrev evr_REGION_HI : Fld := ⟨0x5000 + 0x44, 31, 0⟩
/-- KEEP_END (15 R450). -/ abbrev evr_KEEP_END : Fld := ⟨0x5000 + 0x48, 21, 0⟩
/-- KEEP_STAT.FULL (15 R450). -/ abbrev evr_KEEP_STAT_FULL : Fld := ⟨0x5000 + 0x4C, 31, 31⟩
/-- KEEP_STAT.COUNT (15 R450). -/ abbrev evr_KEEP_STAT_COUNT : Fld := ⟨0x5000 + 0x4C, 23, 0⟩
/-- EVR_CMD.SNAP (15 R450). -/ abbrev evr_EVR_CMD_SNAP : Fld := ⟨0x5000 + 0x50, 0, 0⟩
/-- SNAP_HEAD_SEQ_LO (15 R450). -/ abbrev evr_SNAP_HEAD_SEQ_LO : Fld := ⟨0x5000 + 0x54, 31, 0⟩
/-- SNAP_HEAD_SEQ_HI (15 R450). -/ abbrev evr_SNAP_HEAD_SEQ_HI : Fld := ⟨0x5000 + 0x58, 31, 0⟩
/-- SNAP_HEAD_OFS (15 R450). -/ abbrev evr_SNAP_HEAD_OFS : Fld := ⟨0x5000 + 0x5C, 21, 0⟩
/-- SNAP_OLD_SEQ_LO (15 R450). -/ abbrev evr_SNAP_OLD_SEQ_LO : Fld := ⟨0x5000 + 0x60, 31, 0⟩
/-- SNAP_OLD_SEQ_HI (15 R450). -/ abbrev evr_SNAP_OLD_SEQ_HI : Fld := ⟨0x5000 + 0x64, 31, 0⟩
/-- SNAP_OLD_OFS (15 R450). -/ abbrev evr_SNAP_OLD_OFS : Fld := ⟨0x5000 + 0x68, 21, 0⟩
/-- CNT_LOST (15 R450). -/ abbrev evr_CNT_LOST : Fld := ⟨0x5000 + 0x6C, 31, 0⟩
/-- QUEUE.PEAK (15 R450). -/ abbrev evr_QUEUE_PEAK : Fld := ⟨0x5000 + 0x70, 26, 16⟩
/-- QUEUE.NOW (15 R450). -/ abbrev evr_QUEUE_NOW : Fld := ⟨0x5000 + 0x70, 10, 0⟩
/-- WRAP_LAPS (15 R450). -/ abbrev evr_WRAP_LAPS : Fld := ⟨0x5000 + 0x74, 31, 0⟩
/-- THERM_STAT.LEVEL (16 R471). -/ abbrev hk_THERM_STAT_LEVEL : Fld := ⟨0x6000 + 0x40, 29, 28⟩
/-- THERM_STAT.THR_LEVEL (16 R471). -/ abbrev hk_THERM_STAT_THR_LEVEL : Fld := ⟨0x6000 + 0x40, 26, 24⟩
/-- THERM_STAT.RISE (16 R471). -/ abbrev hk_THERM_STAT_RISE : Fld := ⟨0x6000 + 0x40, 20, 20⟩
/-- THERM_STAT.SENSOR_BROKEN (16 R471). -/ abbrev hk_THERM_STAT_SENSOR_BROKEN : Fld := ⟨0x6000 + 0x40, 19, 19⟩
/-- THERM_STAT.T_DIE (16 R471). -/ abbrev hk_THERM_STAT_T_DIE : Fld := ⟨0x6000 + 0x40, 15, 0⟩
/-- T_WARN (16 R471). -/ abbrev hk_T_WARN : Fld := ⟨0x6000 + 0x44, 15, 0⟩
/-- T_THROTTLE (16 R471). -/ abbrev hk_T_THROTTLE : Fld := ⟨0x6000 + 0x48, 15, 0⟩
/-- T_CRIT (16 R471). -/ abbrev hk_T_CRIT : Fld := ⟨0x6000 + 0x4C, 15, 0⟩
/-- RISE_LIM (16 R471). -/ abbrev hk_RISE_LIM : Fld := ⟨0x6000 + 0x50, 15, 0⟩
/-- THR_MIN (16 R471). -/ abbrev hk_THR_MIN : Fld := ⟨0x6000 + 0x54, 2, 0⟩
/-- ROUND_COUNT (16 R471). -/ abbrev hk_ROUND_COUNT : Fld := ⟨0x6000 + 0x58, 31, 0⟩
/-- T_PEAK (16 R471). -/ abbrev hk_T_PEAK : Fld := ⟨0x6000 + 0x5C, 15, 0⟩
/-- SUPPLY_STAT (16 R471). -/ abbrev hk_SUPPLY_STAT : Fld := ⟨0x6000 + 0x60, 15, 0⟩
/-- CNT_BROKEN (16 R471). -/ abbrev hk_CNT_BROKEN : Fld := ⟨0x6000 + 0x64, 15, 0⟩
/-- T_RISE (16 R471). -/ abbrev hk_T_RISE : Fld := ⟨0x6000 + 0x68, 15, 0⟩
/-- HK_CHc.BROKEN (16 R471). -/ abbrev hk_HK_CHc_BROKEN (i : Nat) : Fld := ⟨0x6000 + 4 * i + 0x80, 31, 31⟩
/-- HK_CHc.OUT_OF_WINDOW (16 R471). -/ abbrev hk_HK_CHc_OUT_OF_WINDOW (i : Nat) : Fld := ⟨0x6000 + 4 * i + 0x80, 30, 30⟩
/-- HK_CHc.VALUE (16 R471). -/ abbrev hk_HK_CHc_VALUE (i : Nat) : Fld := ⟨0x6000 + 4 * i + 0x80, 15, 0⟩
/-- CAL_CMD.KEY (16 R472). -/ abbrev cal_CAL_CMD_KEY : Fld := ⟨0x7000 + 0x40, 31, 16⟩
/-- CAL_CMD.HEAD (16 R472). -/ abbrev cal_CAL_CMD_HEAD : Fld := ⟨0x7000 + 0x40, 13, 8⟩
/-- CAL_CMD.TYPE (16 R472). -/ abbrev cal_CAL_CMD_TYPE : Fld := ⟨0x7000 + 0x40, 6, 4⟩
/-- CAL_CMD.OP (16 R472). -/ abbrev cal_CAL_CMD_OP : Fld := ⟨0x7000 + 0x40, 3, 0⟩
/-- CAL_RESULT.OP (16 R472). -/ abbrev cal_CAL_RESULT_OP : Fld := ⟨0x7000 + 0x44, 31, 28⟩
/-- CAL_RESULT.CODE (16 R472). -/ abbrev cal_CAL_RESULT_CODE : Fld := ⟨0x7000 + 0x44, 3, 0⟩
/-- CAND_LO (16 R472). -/ abbrev cal_CAND_LO : Fld := ⟨0x7000 + 0x48, 31, 3⟩
/-- CAND_HI (16 R472). -/ abbrev cal_CAND_HI : Fld := ⟨0x7000 + 0x4C, 31, 0⟩
/-- NOR_ADDR (16 R472). -/ abbrev cal_NOR_ADDR : Fld := ⟨0x7000 + 0x50, 22, 0⟩
/-- NOR_LEN (16 R472). -/ abbrev cal_NOR_LEN : Fld := ⟨0x7000 + 0x54, 8, 0⟩
/-- RUN_STAT.STATE (16 R472). -/ abbrev cal_RUN_STAT_STATE : Fld := ⟨0x7000 + 0x58, 29, 28⟩
/-- RUN_STAT.HEAD (16 R472). -/ abbrev cal_RUN_STAT_HEAD : Fld := ⟨0x7000 + 0x58, 13, 8⟩
/-- RUN_STAT.TYPE (16 R472). -/ abbrev cal_RUN_STAT_TYPE : Fld := ⟨0x7000 + 0x58, 6, 4⟩
/-- DIFF_WORD (16 R472). -/ abbrev cal_DIFF_WORD : Fld := ⟨0x7000 + 0x5C, 15, 0⟩
/-- TOLt.REL (16 R472). -/ abbrev cal_TOLt_REL (i : Nat) : Fld := ⟨0x7000 + 4 * i + 0x60, 31, 16⟩
/-- TOLt.ABS (16 R472). -/ abbrev cal_TOLt_ABS (i : Nat) : Fld := ⟨0x7000 + 4 * i + 0x60, 15, 0⟩
/-- CAL_STATh.VALID (16 R472). -/ abbrev cal_CAL_STATh_VALID (i : Nat) : Fld := ⟨0x7000 + 4 * i + 0x80, 20, 16⟩
/-- CAL_STATh.STALE (16 R472). -/ abbrev cal_CAL_STATh_STALE (i : Nat) : Fld := ⟨0x7000 + 4 * i + 0x80, 12, 8⟩
/-- CAL_STATh.SERIAL_MISMATCH (16 R472). -/ abbrev cal_CAL_STATh_SERIAL_MISMATCH (i : Nat) : Fld := ⟨0x7000 + 4 * i + 0x80, 4, 4⟩
/-- NOR_BUF (16 R472). -/ abbrev cal_NOR_BUF (i : Nat) : Fld := ⟨0x7000 + 4 * i + 0x200, 31, 0⟩
/-- SEQ_STAT.RESUMED (03 R111). -/ abbrev seq_SEQ_STAT_RESUMED : Fld := ⟨0x8000 + 0x40, 20, 20⟩
/-- SEQ_STAT.STEP (03 R111). -/ abbrev seq_SEQ_STAT_STEP : Fld := ⟨0x8000 + 0x40, 19, 16⟩
/-- SEQ_STAT.PC (03 R111). -/ abbrev seq_SEQ_STAT_PC : Fld := ⟨0x8000 + 0x40, 11, 0⟩
/-- TBL_LEN (03 R111). -/ abbrev seq_TBL_LEN : Fld := ⟨0x8000 + 0x44, 12, 0⟩
/-- TBL_STAT.ERR_ENTRY (03 R111). -/ abbrev seq_TBL_STAT_ERR_ENTRY : Fld := ⟨0x8000 + 0x48, 27, 16⟩
/-- TBL_STAT.ERR_CODE (03 R111). -/ abbrev seq_TBL_STAT_ERR_CODE : Fld := ⟨0x8000 + 0x48, 15, 8⟩
/-- TBL_STAT.VALID (03 R111). -/ abbrev seq_TBL_STAT_VALID : Fld := ⟨0x8000 + 0x48, 0, 0⟩
/-- TBL_CHECK (03 R111). -/ abbrev seq_TBL_CHECK : Fld := ⟨0x8000 + 0x4C, 0, 0⟩
/-- LQ_BASE_LO (03 R111). -/ abbrev seq_LQ_BASE_LO : Fld := ⟨0x8000 + 0x50, 31, 10⟩
/-- LQ_BASE_HI (03 R111). -/ abbrev seq_LQ_BASE_HI : Fld := ⟨0x8000 + 0x54, 31, 0⟩
/-- LQ_ENTRIES (03 R111). -/ abbrev seq_LQ_ENTRIES : Fld := ⟨0x8000 + 0x58, 12, 0⟩
/-- LQ_RD (03 R111). -/ abbrev seq_LQ_RD : Fld := ⟨0x8000 + 0x5C, 11, 0⟩
/-- LQ_CTRL.RESET (03 R111). -/ abbrev seq_LQ_CTRL_RESET : Fld := ⟨0x8000 + 0x60, 0, 0⟩
/-- LAYER_NUM (03 R111). -/ abbrev seq_LAYER_NUM : Fld := ⟨0x8000 + 0x64, 31, 0⟩
/-- LAYER_STAT.LAST (03 R111). -/ abbrev seq_LAYER_STAT_LAST : Fld := ⟨0x8000 + 0x68, 1, 1⟩
/-- LAYER_STAT.OPEN (03 R111). -/ abbrev seq_LAYER_STAT_OPEN : Fld := ⟨0x8000 + 0x68, 0, 0⟩
/-- LAYER_FRAMES (03 R111). -/ abbrev seq_LAYER_FRAMES : Fld := ⟨0x8000 + 0x6C, 31, 0⟩
/-- CTX_COMMIT.POINT (03 R111). -/ abbrev seq_CTX_COMMIT_POINT : Fld := ⟨0x8000 + 0x70, 8, 8⟩
/-- CTX_COMMIT.CTX (03 R111). -/ abbrev seq_CTX_COMMIT_CTX : Fld := ⟨0x8000 + 0x70, 7, 0⟩
/-- RESUME_ENTRY (03 R111). -/ abbrev seq_RESUME_ENTRY : Fld := ⟨0x8000 + 0x74, 11, 0⟩
/-- STALL_INFO.ENTRY (03 R111). -/ abbrev seq_STALL_INFO_ENTRY : Fld := ⟨0x8000 + 0x78, 31, 16⟩
/-- CONTINUE (03 R111). -/ abbrev seq_CONTINUE : Fld := ⟨0x8000 + 0x7C, 15, 0⟩
/-- CTX_PEND (03 R111). -/ abbrev seq_CTX_PEND (i : Nat) : Fld := ⟨0x8000 + 4 * i + 0x80, 31, 0⟩
/-- PLAN_STAT.CTX (03 R112). -/ abbrev hd_PLAN_STAT_CTX (n : Nat) : Fld := ⟨0x10000 + 0x1000 * n + 0x100, 15, 8⟩
/-- PLAN_STAT.STATE (03 R112). -/ abbrev hd_PLAN_STAT_STATE (n : Nat) : Fld := ⟨0x10000 + 0x1000 * n + 0x100, 3, 0⟩
/-- REC_INDEX (03 R112). -/ abbrev hd_REC_INDEX (n : Nat) : Fld := ⟨0x10000 + 0x1000 * n + 0x104, 31, 0⟩
/-- REC_AVAIL (03 R112). -/ abbrev hd_REC_AVAIL (n : Nat) : Fld := ⟨0x10000 + 0x1000 * n + 0x108, 6, 0⟩
/-- STREAM_RETRY (03 R112). -/ abbrev hd_STREAM_RETRY (n : Nat) : Fld := ⟨0x10000 + 0x1000 * n + 0x10C, 31, 0⟩
/-- LIM_VMAX_X (03 R112). -/ abbrev hd_LIM_VMAX_X (n : Nat) : Fld := ⟨0x10000 + 0x1000 * n + 0x110, 23, 0⟩
/-- LIM_AMAX_X (03 R112). -/ abbrev hd_LIM_AMAX_X (n : Nat) : Fld := ⟨0x10000 + 0x1000 * n + 0x114, 23, 0⟩
/-- LIM_VMAX_Y (03 R112). -/ abbrev hd_LIM_VMAX_Y (n : Nat) : Fld := ⟨0x10000 + 0x1000 * n + 0x118, 23, 0⟩
/-- LIM_AMAX_Y (03 R112). -/ abbrev hd_LIM_AMAX_Y (n : Nat) : Fld := ⟨0x10000 + 0x1000 * n + 0x11C, 23, 0⟩
/-- LIM_VMAX_F (03 R112). -/ abbrev hd_LIM_VMAX_F (n : Nat) : Fld := ⟨0x10000 + 0x1000 * n + 0x120, 23, 0⟩
/-- LIM_AMAX_F (03 R112). -/ abbrev hd_LIM_AMAX_F (n : Nat) : Fld := ⟨0x10000 + 0x1000 * n + 0x124, 23, 0⟩
/-- CLIP_TOL (03 R112). -/ abbrev hd_CLIP_TOL (n : Nat) : Fld := ⟨0x10000 + 0x1000 * n + 0x128, 15, 0⟩
/-- CLIP_COUNT (03 R112). -/ abbrev hd_CLIP_COUNT (n : Nat) : Fld := ⟨0x10000 + 0x1000 * n + 0x12C, 15, 0⟩
/-- STRETCH_COUNT (03 R112). -/ abbrev hd_STRETCH_COUNT (n : Nat) : Fld := ⟨0x10000 + 0x1000 * n + 0x130, 15, 0⟩
/-- CAL_ON_FWD (03 R112). -/ abbrev hd_CAL_ON_FWD (n : Nat) : Fld := ⟨0x10000 + 0x1000 * n + 0x140, 31, 0⟩
/-- CAL_OFF_FWD (03 R112). -/ abbrev hd_CAL_OFF_FWD (n : Nat) : Fld := ⟨0x10000 + 0x1000 * n + 0x144, 31, 0⟩
/-- CAL_ON_REV (03 R112). -/ abbrev hd_CAL_ON_REV (n : Nat) : Fld := ⟨0x10000 + 0x1000 * n + 0x148, 31, 0⟩
/-- CAL_OFF_REV (03 R112). -/ abbrev hd_CAL_OFF_REV (n : Nat) : Fld := ⟨0x10000 + 0x1000 * n + 0x14C, 31, 0⟩
/-- CAL_ALIGN_FWD (03 R112). -/ abbrev hd_CAL_ALIGN_FWD (n : Nat) : Fld := ⟨0x10000 + 0x1000 * n + 0x150, 31, 0⟩
/-- CAL_ALIGN_REV (03 R112). -/ abbrev hd_CAL_ALIGN_REV (n : Nat) : Fld := ⟨0x10000 + 0x1000 * n + 0x154, 31, 0⟩
/-- FC_CX (04 R156). -/ abbrev hd_FC_CX (n : Nat) : Fld := ⟨0x10000 + 0x1000 * n + 0x180, 31, 0⟩
/-- FC_CY (04 R156). -/ abbrev hd_FC_CY (n : Nat) : Fld := ⟨0x10000 + 0x1000 * n + 0x184, 31, 0⟩
/-- FC_PITCH (04 R156). -/ abbrev hd_FC_PITCH (n : Nat) : Fld := ⟨0x10000 + 0x1000 * n + 0x188, 31, 0⟩
/-- FC_M00 (04 R156). -/ abbrev hd_FC_M00 (n : Nat) : Fld := ⟨0x10000 + 0x1000 * n + 0x18C, 31, 0⟩
/-- FC_M01 (04 R156). -/ abbrev hd_FC_M01 (n : Nat) : Fld := ⟨0x10000 + 0x1000 * n + 0x190, 31, 0⟩
/-- FC_M10 (04 R156). -/ abbrev hd_FC_M10 (n : Nat) : Fld := ⟨0x10000 + 0x1000 * n + 0x194, 31, 0⟩
/-- FC_M11 (04 R156). -/ abbrev hd_FC_M11 (n : Nat) : Fld := ⟨0x10000 + 0x1000 * n + 0x198, 31, 0⟩
/-- FC_KF (04 R156). -/ abbrev hd_FC_KF (n : Nat) : Fld := ⟨0x10000 + 0x1000 * n + 0x19C, 31, 0⟩
/-- FC_STAT.OOF_COUNT (04 R156). -/ abbrev hd_FC_STAT_OOF_COUNT (n : Nat) : Fld := ⟨0x10000 + 0x1000 * n + 0x1A0, 31, 16⟩
/-- FC_STAT.ECC_CORR (04 R156). -/ abbrev hd_FC_STAT_ECC_CORR (n : Nat) : Fld := ⟨0x10000 + 0x1000 * n + 0x1A0, 15, 8⟩
/-- FC_STAT.HOST_WRITTEN (04 R156). -/ abbrev hd_FC_STAT_HOST_WRITTEN (n : Nat) : Fld := ⟨0x10000 + 0x1000 * n + 0x1A0, 1, 1⟩
/-- FC_STAT.VALID (04 R156). -/ abbrev hd_FC_STAT_VALID (n : Nat) : Fld := ⟨0x10000 + 0x1000 * n + 0x1A0, 0, 0⟩
/-- PARK_X (04 R156). -/ abbrev hd_PARK_X (n : Nat) : Fld := ⟨0x10000 + 0x1000 * n + 0x1A4, 31, 0⟩
/-- PARK_Y (04 R156). -/ abbrev hd_PARK_Y (n : Nat) : Fld := ⟨0x10000 + 0x1000 * n + 0x1A8, 31, 0⟩
/-- PARK_F (04 R156). -/ abbrev hd_PARK_F (n : Nat) : Fld := ⟨0x10000 + 0x1000 * n + 0x1AC, 31, 0⟩
/-- PARK_TIME (04 R156). -/ abbrev hd_PARK_TIME (n : Nat) : Fld := ⟨0x10000 + 0x1000 * n + 0x1B0, 31, 16⟩
/-- PARK_TOL (04 R156). -/ abbrev hd_PARK_TOL (n : Nat) : Fld := ⟨0x10000 + 0x1000 * n + 0x1B0, 15, 0⟩
/-- FC_ACCEPT (04 R156). -/ abbrev hd_FC_ACCEPT (n : Nat) : Fld := ⟨0x10000 + 0x1000 * n + 0x1B4, 15, 0⟩
/-- SERVO_RESTART (04 R156). -/ abbrev hd_SERVO_RESTART (n : Nat) : Fld := ⟨0x10000 + 0x1000 * n + 0x1B4, 31, 16⟩
/-- SERVO_SLOTS.F (04 R156). -/ abbrev hd_SERVO_SLOTS_F (n : Nat) : Fld := ⟨0x10000 + 0x1000 * n + 0x1B8, 23, 16⟩
/-- SERVO_SLOTS.Y (04 R156). -/ abbrev hd_SERVO_SLOTS_Y (n : Nat) : Fld := ⟨0x10000 + 0x1000 * n + 0x1B8, 15, 8⟩
/-- SERVO_SLOTS.X (04 R156). -/ abbrev hd_SERVO_SLOTS_X (n : Nat) : Fld := ⟨0x10000 + 0x1000 * n + 0x1B8, 7, 0⟩
/-- PARK_REQ (04 R156). -/ abbrev hd_PARK_REQ (n : Nat) : Fld := ⟨0x10000 + 0x1000 * n + 0x1BC, 0, 0⟩
/-- FIRE_CTRL.PGROUP (05 R196). -/ abbrev hd_FIRE_CTRL_PGROUP (n : Nat) : Fld := ⟨0x10000 + 0x1000 * n + 0x200, 18, 16⟩
/-- FIRE_CTRL.JITTER_WIN (05 R196). -/ abbrev hd_FIRE_CTRL_JITTER_WIN (n : Nat) : Fld := ⟨0x10000 + 0x1000 * n + 0x200, 15, 8⟩
/-- FIRE_CTRL.MODE (05 R196). -/ abbrev hd_FIRE_CTRL_MODE (n : Nat) : Fld := ⟨0x10000 + 0x1000 * n + 0x200, 0, 0⟩
/-- FIRE_MAX_HZ (05 R196). -/ abbrev hd_FIRE_MAX_HZ (n : Nat) : Fld := ⟨0x10000 + 0x1000 * n + 0x204, 23, 0⟩
/-- MIN_OFF (05 R196). -/ abbrev hd_MIN_OFF (n : Nat) : Fld := ⟨0x10000 + 0x1000 * n + 0x208, 15, 0⟩
/-- PWR_GAIN (05 R196). -/ abbrev hd_PWR_GAIN (n : Nat) : Fld := ⟨0x10000 + 0x1000 * n + 0x20C, 31, 0⟩
/-- PWR_OFS (05 R196). -/ abbrev hd_PWR_OFS (n : Nat) : Fld := ⟨0x10000 + 0x1000 * n + 0x210, 15, 0⟩
/-- GATE_CTRL.PERIOD (05 R196). -/ abbrev hd_GATE_CTRL_PERIOD (n : Nat) : Fld := ⟨0x10000 + 0x1000 * n + 0x214, 23, 16⟩
/-- GATE_CTRL.RISE (05 R196). -/ abbrev hd_GATE_CTRL_RISE (n : Nat) : Fld := ⟨0x10000 + 0x1000 * n + 0x214, 11, 0⟩
/-- DROP_CTRL.FAIL_Q (05 R196). -/ abbrev hd_DROP_CTRL_FAIL_Q (n : Nat) : Fld := ⟨0x10000 + 0x1000 * n + 0x218, 31, 16⟩
/-- DROP_CTRL.LIMIT (05 R196). -/ abbrev hd_DROP_CTRL_LIMIT (n : Nat) : Fld := ⟨0x10000 + 0x1000 * n + 0x218, 7, 0⟩
/-- FIRE_FLAGS.EDGE_LATE (05 R196). -/ abbrev hd_FIRE_FLAGS_EDGE_LATE (n : Nat) : Fld := ⟨0x10000 + 0x1000 * n + 0x21C, 8, 8⟩
/-- FIRE_FLAGS.DWELL_MISS (05 R196). -/ abbrev hd_FIRE_FLAGS_DWELL_MISS (n : Nat) : Fld := ⟨0x10000 + 0x1000 * n + 0x21C, 7, 7⟩
/-- FIRE_FLAGS.DUTY_OVERSIZE (05 R196). -/ abbrev hd_FIRE_FLAGS_DUTY_OVERSIZE (n : Nat) : Fld := ⟨0x10000 + 0x1000 * n + 0x21C, 6, 6⟩
/-- FIRE_FLAGS.DUTY_OVERRUN (05 R196). -/ abbrev hd_FIRE_FLAGS_DUTY_OVERRUN (n : Nat) : Fld := ⟨0x10000 + 0x1000 * n + 0x21C, 5, 5⟩
/-- FIRE_FLAGS.ORDER (05 R196). -/ abbrev hd_FIRE_FLAGS_ORDER (n : Nat) : Fld := ⟨0x10000 + 0x1000 * n + 0x21C, 3, 3⟩
/-- FIRE_FLAGS.UNDER_DENSE (05 R196). -/ abbrev hd_FIRE_FLAGS_UNDER_DENSE (n : Nat) : Fld := ⟨0x10000 + 0x1000 * n + 0x21C, 2, 2⟩
/-- FIRE_FLAGS.REVERSAL (05 R196). -/ abbrev hd_FIRE_FLAGS_REVERSAL (n : Nat) : Fld := ⟨0x10000 + 0x1000 * n + 0x21C, 1, 1⟩
/-- FIRE_FLAGS.DROPOUT (05 R196). -/ abbrev hd_FIRE_FLAGS_DROPOUT (n : Nat) : Fld := ⟨0x10000 + 0x1000 * n + 0x21C, 0, 0⟩
/-- DROP_COUNT (05 R196). -/ abbrev hd_DROP_COUNT (n : Nat) : Fld := ⟨0x10000 + 0x1000 * n + 0x220, 31, 16⟩
/-- UNDER_DENSE_COUNT (05 R196). -/ abbrev hd_UNDER_DENSE_COUNT (n : Nat) : Fld := ⟨0x10000 + 0x1000 * n + 0x220, 15, 0⟩
/-- START_WAITS (05 R196). -/ abbrev hd_START_WAITS (n : Nat) : Fld := ⟨0x10000 + 0x1000 * n + 0x224, 31, 16⟩
/-- REVERSAL_COUNT (05 R196). -/ abbrev hd_REVERSAL_COUNT (n : Nat) : Fld := ⟨0x10000 + 0x1000 * n + 0x224, 15, 0⟩
/-- DUTY_LEVEL (05 R196). -/ abbrev hd_DUTY_LEVEL (n : Nat) : Fld := ⟨0x10000 + 0x1000 * n + 0x228, 31, 0⟩
/-- PWR_CODE_NOW (05 R196). -/ abbrev hd_PWR_CODE_NOW (n : Nat) : Fld := ⟨0x10000 + 0x1000 * n + 0x22C, 15, 0⟩
/-- DWELL_TOL (05 R196). -/ abbrev hd_DWELL_TOL (n : Nat) : Fld := ⟨0x10000 + 0x1000 * n + 0x230, 15, 0⟩
/-- CAS_STAT.WRITE_PENDING (05 R196). -/ abbrev hd_CAS_STAT_WRITE_PENDING (n : Nat) : Fld := ⟨0x10000 + 0x1000 * n + 0x280, 8, 8⟩
/-- CAS_STAT.STATE (05 R196). -/ abbrev hd_CAS_STAT_STATE (n : Nat) : Fld := ⟨0x10000 + 0x1000 * n + 0x280, 3, 0⟩
/-- CAS_SERIAL_LO (05 R196). -/ abbrev hd_CAS_SERIAL_LO (n : Nat) : Fld := ⟨0x10000 + 0x1000 * n + 0x284, 31, 0⟩
/-- CAS_SERIAL_HI (05 R196). -/ abbrev hd_CAS_SERIAL_HI (n : Nat) : Fld := ⟨0x10000 + 0x1000 * n + 0x288, 31, 0⟩
/-- CAS_USED_LO (05 R196). -/ abbrev hd_CAS_USED_LO (n : Nat) : Fld := ⟨0x10000 + 0x1000 * n + 0x28C, 31, 0⟩
/-- CAS_USED_HI (05 R196). -/ abbrev hd_CAS_USED_HI (n : Nat) : Fld := ⟨0x10000 + 0x1000 * n + 0x290, 31, 0⟩
/-- CAS_LIMIT_LO (05 R196). -/ abbrev hd_CAS_LIMIT_LO (n : Nat) : Fld := ⟨0x10000 + 0x1000 * n + 0x294, 31, 0⟩
/-- CAS_LIMIT_HI (05 R196). -/ abbrev hd_CAS_LIMIT_HI (n : Nat) : Fld := ⟨0x10000 + 0x1000 * n + 0x298, 31, 0⟩
/-- CAS_SEQ (05 R196). -/ abbrev hd_CAS_SEQ (n : Nat) : Fld := ⟨0x10000 + 0x1000 * n + 0x29C, 31, 0⟩
/-- CAS_REREAD (05 R196). -/ abbrev hd_CAS_REREAD (n : Nat) : Fld := ⟨0x10000 + 0x1000 * n + 0x2A0, 31, 0⟩
/-- IBEX_STAT.HELD (06 R231). -/ abbrev hd_IBEX_STAT_HELD (n : Nat) : Fld := ⟨0x10000 + 0x1000 * n + 0x300, 31, 31⟩
/-- IBEX_STAT.SPLIT (06 R231). -/ abbrev hd_IBEX_STAT_SPLIT (n : Nat) : Fld := ⟨0x10000 + 0x1000 * n + 0x300, 30, 30⟩
/-- IBEX_STAT.HOLD_BY (06 R231). -/ abbrev hd_IBEX_STAT_HOLD_BY (n : Nat) : Fld := ⟨0x10000 + 0x1000 * n + 0x300, 21, 16⟩
/-- IBEX_STAT.HOLD_FRAMES (06 R231). -/ abbrev hd_IBEX_STAT_HOLD_FRAMES (n : Nat) : Fld := ⟨0x10000 + 0x1000 * n + 0x300, 15, 0⟩
/-- HO_QUEUED (06 R231). -/ abbrev hd_HO_QUEUED (n : Nat) : Fld := ⟨0x10000 + 0x1000 * n + 0x304, 31, 0⟩
/-- HO_ITEMS (06 R231). -/ abbrev hd_HO_ITEMS (n : Nat) : Fld := ⟨0x10000 + 0x1000 * n + 0x308, 15, 0⟩
/-- FAIL.FAILED (06 R231). -/ abbrev hd_FAIL_FAILED (n : Nat) : Fld := ⟨0x10000 + 0x1000 * n + 0x30C, 8, 8⟩
/-- FAIL.CAUSE (06 R231). -/ abbrev hd_FAIL_CAUSE (n : Nat) : Fld := ⟨0x10000 + 0x1000 * n + 0x30C, 7, 0⟩
/-- SPLIT_COUNT (06 R231). -/ abbrev hd_SPLIT_COUNT (n : Nat) : Fld := ⟨0x10000 + 0x1000 * n + 0x310, 31, 16⟩
/-- HOLD_COUNT (06 R231). -/ abbrev hd_HOLD_COUNT (n : Nat) : Fld := ⟨0x10000 + 0x1000 * n + 0x310, 15, 0⟩
/-- REJOIN (06 R231). -/ abbrev hd_REJOIN (n : Nat) : Fld := ⟨0x10000 + 0x1000 * n + 0x314, 15, 0⟩
/-- PD_GAIN_A (07 R255). -/ abbrev hd_PD_GAIN_A (n : Nat) : Fld := ⟨0x10000 + 0x1000 * n + 0x340, 31, 0⟩
/-- PD_GAIN_B (07 R255). -/ abbrev hd_PD_GAIN_B (n : Nat) : Fld := ⟨0x10000 + 0x1000 * n + 0x344, 31, 0⟩
/-- PD_DARK_A (07 R255). -/ abbrev hd_PD_DARK_A (n : Nat) : Fld := ⟨0x10000 + 0x1000 * n + 0x348, 15, 0⟩
/-- PD_DARK_B (07 R255). -/ abbrev hd_PD_DARK_B (n : Nat) : Fld := ⟨0x10000 + 0x1000 * n + 0x34C, 15, 0⟩
/-- PD_STAT.SAT_COUNT (07 R255). -/ abbrev hd_PD_STAT_SAT_COUNT (n : Nat) : Fld := ⟨0x10000 + 0x1000 * n + 0x350, 31, 16⟩
/-- PD_STAT.VALID (07 R255). -/ abbrev hd_PD_STAT_VALID (n : Nat) : Fld := ⟨0x10000 + 0x1000 * n + 0x350, 0, 0⟩
/-- PD_SUM_A_NOW (07 R255). -/ abbrev hd_PD_SUM_A_NOW (n : Nat) : Fld := ⟨0x10000 + 0x1000 * n + 0x354, 19, 0⟩
/-- PD_SUM_B_NOW (07 R255). -/ abbrev hd_PD_SUM_B_NOW (n : Nat) : Fld := ⟨0x10000 + 0x1000 * n + 0x358, 19, 0⟩
/-- PL_SLOT (07 R255). -/ abbrev hd_PL_SLOT (n : Nat) : Fld := ⟨0x10000 + 0x1000 * n + 0x35C, 5, 0⟩
/-- LANE_CTRL.RETRY_MAX (09 R311). -/ abbrev hd_LANE_CTRL_RETRY_MAX (n : Nat) : Fld := ⟨0x10000 + 0x1000 * n + 0x380, 23, 20⟩
/-- LANE_CTRL.RETRY_TMO (09 R311). -/ abbrev hd_LANE_CTRL_RETRY_TMO (n : Nat) : Fld := ⟨0x10000 + 0x1000 * n + 0x380, 19, 16⟩
/-- LANE_CTRL.LOSS_FRAMES (09 R311). -/ abbrev hd_LANE_CTRL_LOSS_FRAMES (n : Nat) : Fld := ⟨0x10000 + 0x1000 * n + 0x380, 11, 8⟩
/-- LANE_CTRL.RETRAIN (09 R311). -/ abbrev hd_LANE_CTRL_RETRAIN (n : Nat) : Fld := ⟨0x10000 + 0x1000 * n + 0x380, 1, 1⟩
/-- LANE_CTRL.EN (09 R311). -/ abbrev hd_LANE_CTRL_EN (n : Nat) : Fld := ⟨0x10000 + 0x1000 * n + 0x380, 0, 0⟩
/-- LANE_STAT.FAULT_CODE (09 R311). -/ abbrev hd_LANE_STAT_FAULT_CODE (n : Nat) : Fld := ⟨0x10000 + 0x1000 * n + 0x384, 23, 16⟩
/-- LANE_STAT.LOSS_CAUSE (09 R311). -/ abbrev hd_LANE_STAT_LOSS_CAUSE (n : Nat) : Fld := ⟨0x10000 + 0x1000 * n + 0x384, 11, 8⟩
/-- LANE_STAT.STATE (09 R311). -/ abbrev hd_LANE_STAT_STATE (n : Nat) : Fld := ⟨0x10000 + 0x1000 * n + 0x384, 3, 0⟩
/-- RTD (09 R311). -/ abbrev hd_RTD (n : Nat) : Fld := ⟨0x10000 + 0x1000 * n + 0x388, 9, 0⟩
/-- CNT_US_MISSING (09 R311). -/ abbrev hd_CNT_US_MISSING (n : Nat) : Fld := ⟨0x10000 + 0x1000 * n + 0x38C, 31, 16⟩
/-- CNT_DS_ERR (09 R311). -/ abbrev hd_CNT_DS_ERR (n : Nat) : Fld := ⟨0x10000 + 0x1000 * n + 0x38C, 15, 0⟩
/-- CNT_CODE_ERR (09 R311). -/ abbrev hd_CNT_CODE_ERR (n : Nat) : Fld := ⟨0x10000 + 0x1000 * n + 0x390, 31, 16⟩
/-- CNT_RESEND (09 R311). -/ abbrev hd_CNT_RESEND (n : Nat) : Fld := ⟨0x10000 + 0x1000 * n + 0x390, 15, 0⟩
/-- CNT_MSG_UNKNOWN (09 R311). -/ abbrev hd_CNT_MSG_UNKNOWN (n : Nat) : Fld := ⟨0x10000 + 0x1000 * n + 0x394, 31, 16⟩
/-- CNT_LOSS (09 R311). -/ abbrev hd_CNT_LOSS (n : Nat) : Fld := ⟨0x10000 + 0x1000 * n + 0x394, 15, 0⟩
/-- CNT_CLEAR (09 R311). -/ abbrev hd_CNT_CLEAR (n : Nat) : Fld := ⟨0x10000 + 0x1000 * n + 0x398, 31, 0⟩
/-- HEAD_STAT.TEMP (09 R311). -/ abbrev hd_HEAD_STAT_TEMP (n : Nat) : Fld := ⟨0x10000 + 0x1000 * n + 0x39C, 31, 16⟩
/-- HEAD_STAT.FAULT_CODE (09 R311). -/ abbrev hd_HEAD_STAT_FAULT_CODE (n : Nat) : Fld := ⟨0x10000 + 0x1000 * n + 0x39C, 15, 8⟩
/-- HEAD_STAT.HEAD_FAULT (09 R311). -/ abbrev hd_HEAD_STAT_HEAD_FAULT (n : Nat) : Fld := ⟨0x10000 + 0x1000 * n + 0x39C, 2, 2⟩
/-- HEAD_STAT.STATE (09 R311). -/ abbrev hd_HEAD_STAT_STATE (n : Nat) : Fld := ⟨0x10000 + 0x1000 * n + 0x39C, 1, 0⟩
/-- CAP_ID.MODEL (09 R311). -/ abbrev hd_CAP_ID_MODEL (n : Nat) : Fld := ⟨0x10000 + 0x1000 * n + 0x3A0, 31, 16⟩
/-- CAP_ID.VENDOR (09 R311). -/ abbrev hd_CAP_ID_VENDOR (n : Nat) : Fld := ⟨0x10000 + 0x1000 * n + 0x3A0, 15, 0⟩
/-- CAP_SERIAL_LO (09 R311). -/ abbrev hd_CAP_SERIAL_LO (n : Nat) : Fld := ⟨0x10000 + 0x1000 * n + 0x3A4, 31, 0⟩
/-- CAP_SERIAL_HI (09 R311). -/ abbrev hd_CAP_SERIAL_HI (n : Nat) : Fld := ⟨0x10000 + 0x1000 * n + 0x3A8, 31, 0⟩
/-- CAP_INFO.TURN (09 R311). -/ abbrev hd_CAP_INFO_TURN (n : Nat) : Fld := ⟨0x10000 + 0x1000 * n + 0x3AC, 31, 24⟩
/-- CAP_INFO.SAMPLE_OFS (09 R311). -/ abbrev hd_CAP_INFO_SAMPLE_OFS (n : Nat) : Fld := ⟨0x10000 + 0x1000 * n + 0x3AC, 23, 16⟩
/-- CAP_INFO.FEATURES (09 R311). -/ abbrev hd_CAP_INFO_FEATURES (n : Nat) : Fld := ⟨0x10000 + 0x1000 * n + 0x3AC, 15, 0⟩
/-- LINK_ACCEPT (09 R311). -/ abbrev hd_LINK_ACCEPT (n : Nat) : Fld := ⟨0x10000 + 0x1000 * n + 0x3B0, 15, 0⟩
/-- MSG_TX (09 R311). -/ abbrev hd_MSG_TX (n i : Nat) : Fld := ⟨0x10000 + 0x1000 * n + 4 * i + 0x400, 31, 0⟩
/-- MSG_TX_LEN (09 R311). -/ abbrev hd_MSG_TX_LEN (n : Nat) : Fld := ⟨0x10000 + 0x1000 * n + 0x440, 6, 0⟩
/-- MSG_TX_GO (09 R311). -/ abbrev hd_MSG_TX_GO (n : Nat) : Fld := ⟨0x10000 + 0x1000 * n + 0x444, 31, 0⟩
/-- MSG_TX_STAT (09 R311). -/ abbrev hd_MSG_TX_STAT (n : Nat) : Fld := ⟨0x10000 + 0x1000 * n + 0x448, 1, 0⟩
/-- MSG_RX (09 R311). -/ abbrev hd_MSG_RX (n i : Nat) : Fld := ⟨0x10000 + 0x1000 * n + 4 * i + 0x480, 31, 0⟩
/-- MSG_RX_STAT.LOST (09 R311). -/ abbrev hd_MSG_RX_STAT_LOST (n : Nat) : Fld := ⟨0x10000 + 0x1000 * n + 0x4C0, 31, 16⟩
/-- MSG_RX_STAT.FULL (09 R311). -/ abbrev hd_MSG_RX_STAT_FULL (n : Nat) : Fld := ⟨0x10000 + 0x1000 * n + 0x4C0, 8, 8⟩
/-- MSG_RX_STAT.LEN (09 R311). -/ abbrev hd_MSG_RX_STAT_LEN (n : Nat) : Fld := ⟨0x10000 + 0x1000 * n + 0x4C0, 6, 0⟩
/-- MSG_RX_FREE (09 R311). -/ abbrev hd_MSG_RX_FREE (n : Nat) : Fld := ⟨0x10000 + 0x1000 * n + 0x4C4, 31, 0⟩
/-- SUM_FAULT (04 R155). -/ abbrev loop_SUM_FAULT (n : Nat) : Fld := ⟨0x40000 + 0x1000 * n + 0x40, 15, 0⟩
/-- SUM_FB (04 R155). -/ abbrev loop_SUM_FB (n : Nat) : Fld := ⟨0x40000 + 0x1000 * n + 0x44, 15, 0⟩
/-- SUM_FLAG (04 R155). -/ abbrev loop_SUM_FLAG (n : Nat) : Fld := ⟨0x40000 + 0x1000 * n + 0x48, 15, 0⟩
/-- TRACE_ARM (04 R155). -/ abbrev loop_TRACE_ARM (n : Nat) : Fld := ⟨0x40000 + 0x1000 * n + 0x4C, 15, 0⟩
/-- TRACE_FORCE (04 R155). -/ abbrev loop_TRACE_FORCE (n : Nat) : Fld := ⟨0x40000 + 0x1000 * n + 0x50, 15, 0⟩
/-- TRACE_BASE_LO (04 R155). -/ abbrev loop_TRACE_BASE_LO (n : Nat) : Fld := ⟨0x40000 + 0x1000 * n + 0x54, 31, 20⟩
/-- TRACE_BASE_HI (04 R155). -/ abbrev loop_TRACE_BASE_HI (n : Nat) : Fld := ⟨0x40000 + 0x1000 * n + 0x58, 31, 0⟩
/-- SLOT_CTRL.HOLD_SET (04 R155). -/ abbrev slot_SLOT_CTRL_HOLD_SET (n b : Nat) : Fld := ⟨0x40000 + 0x1000 * n + 0xF8 * b + 0x80, 13, 12⟩
/-- SLOT_CTRL.SET_OVR_EN (04 R155). -/ abbrev slot_SLOT_CTRL_SET_OVR_EN (n b : Nat) : Fld := ⟨0x40000 + 0x1000 * n + 0xF8 * b + 0x80, 9, 9⟩
/-- SLOT_CTRL.SET_OVR (04 R155). -/ abbrev slot_SLOT_CTRL_SET_OVR (n b : Nat) : Fld := ⟨0x40000 + 0x1000 * n + 0xF8 * b + 0x80, 5, 4⟩
/-- SLOT_CTRL.FB_FORCE (04 R155). -/ abbrev slot_SLOT_CTRL_FB_FORCE (n b : Nat) : Fld := ⟨0x40000 + 0x1000 * n + 0xF8 * b + 0x80, 1, 1⟩
/-- SLOT_CTRL.EN (04 R155). -/ abbrev slot_SLOT_CTRL_EN (n b : Nat) : Fld := ⟨0x40000 + 0x1000 * n + 0xF8 * b + 0x80, 0, 0⟩
/-- SLOT_MAP.MAPPED (04 R155). -/ abbrev slot_SLOT_MAP_MAPPED (n b : Nat) : Fld := ⟨0x40000 + 0x1000 * n + 0xF8 * b + 0x84, 31, 31⟩
/-- SLOT_MAP.AXIS (04 R155). -/ abbrev slot_SLOT_MAP_AXIS (n b : Nat) : Fld := ⟨0x40000 + 0x1000 * n + 0xF8 * b + 0x84, 9, 8⟩
/-- SLOT_MAP.HEAD (04 R155). -/ abbrev slot_SLOT_MAP_HEAD (n b : Nat) : Fld := ⟨0x40000 + 0x1000 * n + 0xF8 * b + 0x84, 5, 0⟩
/-- SLOT_STAT.FE_COUNT (04 R155). -/ abbrev slot_SLOT_STAT_FE_COUNT (n b : Nat) : Fld := ⟨0x40000 + 0x1000 * n + 0xF8 * b + 0x88, 31, 16⟩
/-- SLOT_STAT.COAST_COUNT (04 R155). -/ abbrev slot_SLOT_STAT_COAST_COUNT (n b : Nat) : Fld := ⟨0x40000 + 0x1000 * n + 0xF8 * b + 0x88, 15, 12⟩
/-- SLOT_STAT.SET (04 R155). -/ abbrev slot_SLOT_STAT_SET (n b : Nat) : Fld := ⟨0x40000 + 0x1000 * n + 0xF8 * b + 0x88, 9, 8⟩
/-- SLOT_STAT.MODE (04 R155). -/ abbrev slot_SLOT_STAT_MODE (n b : Nat) : Fld := ⟨0x40000 + 0x1000 * n + 0xF8 * b + 0x88, 3, 0⟩
/-- SLOT_FLAGS.REMAPPED (04 R155). -/ abbrev slot_SLOT_FLAGS_REMAPPED (n b : Nat) : Fld := ⟨0x40000 + 0x1000 * n + 0xF8 * b + 0x8C, 10, 10⟩
/-- SLOT_FLAGS.TRACE_GAP (04 R155). -/ abbrev slot_SLOT_FLAGS_TRACE_GAP (n b : Nat) : Fld := ⟨0x40000 + 0x1000 * n + 0xF8 * b + 0x8C, 9, 9⟩
/-- SLOT_FLAGS.FE_FAULT (04 R155). -/ abbrev slot_SLOT_FLAGS_FE_FAULT (n b : Nat) : Fld := ⟨0x40000 + 0x1000 * n + 0xF8 * b + 0x8C, 8, 8⟩
/-- SLOT_FLAGS.PARK_CURRENT (04 R155). -/ abbrev slot_SLOT_FLAGS_PARK_CURRENT (n b : Nat) : Fld := ⟨0x40000 + 0x1000 * n + 0xF8 * b + 0x8C, 7, 7⟩
/-- SLOT_FLAGS.FB_POS (04 R155). -/ abbrev slot_SLOT_FLAGS_FB_POS (n b : Nat) : Fld := ⟨0x40000 + 0x1000 * n + 0xF8 * b + 0x8C, 6, 6⟩
/-- SLOT_FLAGS.FB_SAT (04 R155). -/ abbrev slot_SLOT_FLAGS_FB_SAT (n b : Nat) : Fld := ⟨0x40000 + 0x1000 * n + 0xF8 * b + 0x8C, 5, 5⟩
/-- SLOT_FLAGS.SAT (04 R155). -/ abbrev slot_SLOT_FLAGS_SAT (n b : Nat) : Fld := ⟨0x40000 + 0x1000 * n + 0xF8 * b + 0x8C, 4, 0⟩
/-- FE_LIM (04 R155). -/ abbrev slot_FE_LIM (n b : Nat) : Fld := ⟨0x40000 + 0x1000 * n + 0xF8 * b + 0x90, 31, 0⟩
/-- SAT_LIMIT (04 R155). -/ abbrev slot_SAT_LIMIT (n b : Nat) : Fld := ⟨0x40000 + 0x1000 * n + 0xF8 * b + 0x94, 31, 16⟩
/-- FE_TIME (04 R155). -/ abbrev slot_FE_TIME (n b : Nat) : Fld := ⟨0x40000 + 0x1000 * n + 0xF8 * b + 0x94, 15, 0⟩
/-- RECOVER (04 R155). -/ abbrev slot_RECOVER (n b : Nat) : Fld := ⟨0x40000 + 0x1000 * n + 0xF8 * b + 0x98, 31, 24⟩
/-- COAST_MAX (04 R155). -/ abbrev slot_COAST_MAX (n b : Nat) : Fld := ⟨0x40000 + 0x1000 * n + 0xF8 * b + 0x98, 19, 16⟩
/-- IMAX (04 R155). -/ abbrev slot_IMAX (n b : Nat) : Fld := ⟨0x40000 + 0x1000 * n + 0xF8 * b + 0x98, 14, 0⟩
/-- KV (04 R155). -/ abbrev slot_KV (n b : Nat) : Fld := ⟨0x40000 + 0x1000 * n + 0xF8 * b + 0x9C, 31, 0⟩
/-- KA (04 R155). -/ abbrev slot_KA (n b : Nat) : Fld := ⟨0x40000 + 0x1000 * n + 0xF8 * b + 0xA0, 31, 0⟩
/-- FE_NOW (04 R155). -/ abbrev slot_FE_NOW (n b : Nat) : Fld := ⟨0x40000 + 0x1000 * n + 0xF8 * b + 0xA4, 31, 0⟩
/-- CMD_NOW (04 R155). -/ abbrev slot_CMD_NOW (n b : Nat) : Fld := ⟨0x40000 + 0x1000 * n + 0xF8 * b + 0xA8, 15, 0⟩
/-- TRACE_SEL (04 R155). -/ abbrev slot_TRACE_SEL (n b : Nat) : Fld := ⟨0x40000 + 0x1000 * n + 0xF8 * b + 0xAC, 19, 0⟩
/-- TRACE_TRIG.PRE (04 R155). -/ abbrev slot_TRACE_TRIG_PRE (n b : Nat) : Fld := ⟨0x40000 + 0x1000 * n + 0xF8 * b + 0xB0, 31, 20⟩
/-- TRACE_TRIG.SRC (04 R155). -/ abbrev slot_TRACE_TRIG_SRC (n b : Nat) : Fld := ⟨0x40000 + 0x1000 * n + 0xF8 * b + 0xB0, 2, 0⟩
/-- TRACE_LEVEL (04 R155). -/ abbrev slot_TRACE_LEVEL (n b : Nat) : Fld := ⟨0x40000 + 0x1000 * n + 0xF8 * b + 0xB4, 31, 0⟩
/-- TRACE_STAT.TRIG_INDEX (04 R155). -/ abbrev slot_TRACE_STAT_TRIG_INDEX (n b : Nat) : Fld := ⟨0x40000 + 0x1000 * n + 0xF8 * b + 0xB8, 31, 20⟩
/-- TRACE_STAT.VALID_PRE (04 R155). -/ abbrev slot_TRACE_STAT_VALID_PRE (n b : Nat) : Fld := ⟨0x40000 + 0x1000 * n + 0xF8 * b + 0xB8, 19, 8⟩
/-- TRACE_STAT.GAP_COUNT (04 R155). -/ abbrev slot_TRACE_STAT_GAP_COUNT (n b : Nat) : Fld := ⟨0x40000 + 0x1000 * n + 0xF8 * b + 0xB8, 7, 4⟩
/-- TRACE_STAT.STATE (04 R155). -/ abbrev slot_TRACE_STAT_STATE (n b : Nat) : Fld := ⟨0x40000 + 0x1000 * n + 0xF8 * b + 0xB8, 1, 0⟩
/-- OBS_KA (04 R155). -/ abbrev slot_OBS_KA (n b : Nat) : Fld := ⟨0x40000 + 0x1000 * n + 0xF8 * b + 0xBC, 31, 0⟩
/-- OBS_AI (04 R155). -/ abbrev slot_OBS_AI (n b : Nat) : Fld := ⟨0x40000 + 0x1000 * n + 0xF8 * b + 0xC0, 31, 0⟩
/-- OBS_BI (04 R155). -/ abbrev slot_OBS_BI (n b : Nat) : Fld := ⟨0x40000 + 0x1000 * n + 0xF8 * b + 0xC4, 31, 0⟩
/-- OBS_L (04 R155). -/ abbrev slot_OBS_L (n b i : Nat) : Fld := ⟨0x40000 + 0x1000 * n + 0xF8 * b + 4 * i + 0xC8, 31, 0⟩
/-- OBS_K (04 R155). -/ abbrev slot_OBS_K (n b i : Nat) : Fld := ⟨0x40000 + 0x1000 * n + 0xF8 * b + 4 * i + 0xE8, 31, 0⟩
/-- SETk.B0 (04 R155). -/ abbrev slot_SETk_B0 (n b i : Nat) : Fld := ⟨0x40000 + 0x1000 * n + 0xF8 * b + 32 * i + 0xF8, 31, 0⟩
/-- SETk.B1 (04 R155). -/ abbrev slot_SETk_B1 (n b i : Nat) : Fld := ⟨0x40000 + 0x1000 * n + 0xF8 * b + 32 * i + 0xFC, 31, 0⟩
/-- SETk.B2 (04 R155). -/ abbrev slot_SETk_B2 (n b i : Nat) : Fld := ⟨0x40000 + 0x1000 * n + 0xF8 * b + 32 * i + 0x100, 31, 0⟩
/-- SETk.B3 (04 R155). -/ abbrev slot_SETk_B3 (n b i : Nat) : Fld := ⟨0x40000 + 0x1000 * n + 0xF8 * b + 32 * i + 0x104, 31, 0⟩
/-- SETk.A1 (04 R155). -/ abbrev slot_SETk_A1 (n b i : Nat) : Fld := ⟨0x40000 + 0x1000 * n + 0xF8 * b + 32 * i + 0x108, 31, 0⟩
/-- SETk.A2 (04 R155). -/ abbrev slot_SETk_A2 (n b i : Nat) : Fld := ⟨0x40000 + 0x1000 * n + 0xF8 * b + 32 * i + 0x10C, 31, 0⟩
/-- SETk.A3 (04 R155). -/ abbrev slot_SETk_A3 (n b i : Nat) : Fld := ⟨0x40000 + 0x1000 * n + 0xF8 * b + 32 * i + 0x110, 31, 0⟩
/-- SETk.ORDER (04 R155). -/ abbrev slot_SETk_ORDER (n b i : Nat) : Fld := ⟨0x40000 + 0x1000 * n + 0xF8 * b + 32 * i + 0x114, 8, 8⟩
/-- SETk.OSHIFT (04 R155). -/ abbrev slot_SETk_OSHIFT (n b i : Nat) : Fld := ⟨0x40000 + 0x1000 * n + 0xF8 * b + 32 * i + 0x114, 3, 0⟩
/-- SUM_ACTIVE (07 R254). -/ abbrev ploop_SUM_ACTIVE (n : Nat) : Fld := ⟨0x50000 + 0x1000 * n + 0x40, 13, 0⟩
/-- SUM_PIN (07 R254). -/ abbrev ploop_SUM_PIN (n : Nat) : Fld := ⟨0x50000 + 0x1000 * n + 0x44, 13, 0⟩
/-- SUM_FLAG (07 R254). -/ abbrev ploop_SUM_FLAG (n : Nat) : Fld := ⟨0x50000 + 0x1000 * n + 0x48, 13, 0⟩
/-- PL_CTRL.SIG_SEL (07 R254). -/ abbrev pl_PL_CTRL_SIG_SEL (n b : Nat) : Fld := ⟨0x50000 + 0x1000 * n + 0x118 * b + 0x80, 17, 16⟩
/-- PL_CTRL.CARRY (07 R254). -/ abbrev pl_PL_CTRL_CARRY (n b : Nat) : Fld := ⟨0x50000 + 0x1000 * n + 0x118 * b + 0x80, 12, 12⟩
/-- PL_CTRL.SET_OVR_EN (07 R254). -/ abbrev pl_PL_CTRL_SET_OVR_EN (n b : Nat) : Fld := ⟨0x50000 + 0x1000 * n + 0x118 * b + 0x80, 9, 9⟩
/-- PL_CTRL.SET_OVR (07 R254). -/ abbrev pl_PL_CTRL_SET_OVR (n b : Nat) : Fld := ⟨0x50000 + 0x1000 * n + 0x118 * b + 0x80, 5, 4⟩
/-- PL_CTRL.FREEZE (07 R254). -/ abbrev pl_PL_CTRL_FREEZE (n b : Nat) : Fld := ⟨0x50000 + 0x1000 * n + 0x118 * b + 0x80, 1, 1⟩
/-- PL_CTRL.EN (07 R254). -/ abbrev pl_PL_CTRL_EN (n b : Nat) : Fld := ⟨0x50000 + 0x1000 * n + 0x118 * b + 0x80, 0, 0⟩
/-- PL_MAP.MAPPED (07 R254). -/ abbrev pl_PL_MAP_MAPPED (n b : Nat) : Fld := ⟨0x50000 + 0x1000 * n + 0x118 * b + 0x84, 31, 31⟩
/-- PL_MAP.HEAD (07 R254). -/ abbrev pl_PL_MAP_HEAD (n b : Nat) : Fld := ⟨0x50000 + 0x1000 * n + 0x118 * b + 0x84, 5, 0⟩
/-- PL_STAT.PIN_COUNT (07 R254). -/ abbrev pl_PL_STAT_PIN_COUNT (n b : Nat) : Fld := ⟨0x50000 + 0x1000 * n + 0x118 * b + 0x88, 31, 16⟩
/-- PL_STAT.SET (07 R254). -/ abbrev pl_PL_STAT_SET (n b : Nat) : Fld := ⟨0x50000 + 0x1000 * n + 0x118 * b + 0x88, 9, 8⟩
/-- PL_STAT.MODE (07 R254). -/ abbrev pl_PL_STAT_MODE (n b : Nat) : Fld := ⟨0x50000 + 0x1000 * n + 0x118 * b + 0x88, 3, 0⟩
/-- PL_FLAGS.REMAPPED (07 R254). -/ abbrev pl_PL_FLAGS_REMAPPED (n b : Nat) : Fld := ⟨0x50000 + 0x1000 * n + 0x118 * b + 0x8C, 8, 8⟩
/-- PL_FLAGS.PL_OPEN (07 R254). -/ abbrev pl_PL_FLAGS_PL_OPEN (n b : Nat) : Fld := ⟨0x50000 + 0x1000 * n + 0x118 * b + 0x8C, 7, 7⟩
/-- PL_FLAGS.FF_STALE (07 R254). -/ abbrev pl_PL_FLAGS_FF_STALE (n b : Nat) : Fld := ⟨0x50000 + 0x1000 * n + 0x118 * b + 0x8C, 6, 6⟩
/-- PL_FLAGS.SIG_SAT (07 R254). -/ abbrev pl_PL_FLAGS_SIG_SAT (n b : Nat) : Fld := ⟨0x50000 + 0x1000 * n + 0x118 * b + 0x8C, 5, 5⟩
/-- PL_FLAGS.RATIO_LOW (07 R254). -/ abbrev pl_PL_FLAGS_RATIO_LOW (n b : Nat) : Fld := ⟨0x50000 + 0x1000 * n + 0x118 * b + 0x8C, 4, 4⟩
/-- PL_FLAGS.STATE_SAT (07 R254). -/ abbrev pl_PL_FLAGS_STATE_SAT (n b : Nat) : Fld := ⟨0x50000 + 0x1000 * n + 0x118 * b + 0x8C, 3, 3⟩
/-- PL_FLAGS.ERR_SAT (07 R254). -/ abbrev pl_PL_FLAGS_ERR_SAT (n b : Nat) : Fld := ⟨0x50000 + 0x1000 * n + 0x118 * b + 0x8C, 2, 2⟩
/-- PL_FLAGS.PIN_LO (07 R254). -/ abbrev pl_PL_FLAGS_PIN_LO (n b : Nat) : Fld := ⟨0x50000 + 0x1000 * n + 0x118 * b + 0x8C, 1, 1⟩
/-- PL_FLAGS.PIN_HI (07 R254). -/ abbrev pl_PL_FLAGS_PIN_HI (n b : Nat) : Fld := ⟨0x50000 + 0x1000 * n + 0x118 * b + 0x8C, 0, 0⟩
/-- PIN_TIME (07 R254). -/ abbrev pl_PIN_TIME (n b : Nat) : Fld := ⟨0x50000 + 0x1000 * n + 0x118 * b + 0x90, 31, 16⟩
/-- START_BLANK (07 R254). -/ abbrev pl_START_BLANK (n b : Nat) : Fld := ⟨0x50000 + 0x1000 * n + 0x118 * b + 0x90, 7, 0⟩
/-- CARRY_GAP (07 R254). -/ abbrev pl_CARRY_GAP (n b : Nat) : Fld := ⟨0x50000 + 0x1000 * n + 0x118 * b + 0x94, 15, 0⟩
/-- SIG_BMIN (07 R254). -/ abbrev pl_SIG_BMIN (n b : Nat) : Fld := ⟨0x50000 + 0x1000 * n + 0x118 * b + 0x98, 31, 0⟩
/-- FF_SRC.EN (07 R254). -/ abbrev pl_FF_SRC_EN (n b : Nat) : Fld := ⟨0x50000 + 0x1000 * n + 0x118 * b + 0x9C, 31, 31⟩
/-- FF_SRC.PIPE (07 R254). -/ abbrev pl_FF_SRC_PIPE (n b : Nat) : Fld := ⟨0x50000 + 0x1000 * n + 0x118 * b + 0x9C, 18, 16⟩
/-- FF_SRC.WORD (07 R254). -/ abbrev pl_FF_SRC_WORD (n b : Nat) : Fld := ⟨0x50000 + 0x1000 * n + 0x118 * b + 0x9C, 11, 8⟩
/-- FF_SRC.COV_MIN (07 R254). -/ abbrev pl_FF_SRC_COV_MIN (n b : Nat) : Fld := ⟨0x50000 + 0x1000 * n + 0x118 * b + 0x9C, 6, 0⟩
/-- FF_GAIN (07 R254). -/ abbrev pl_FF_GAIN (n b : Nat) : Fld := ⟨0x50000 + 0x1000 * n + 0x118 * b + 0xA0, 31, 0⟩
/-- FF_REF (07 R254). -/ abbrev pl_FF_REF (n b : Nat) : Fld := ⟨0x50000 + 0x1000 * n + 0x118 * b + 0xA4, 31, 0⟩
/-- FF_LIM (07 R254). -/ abbrev pl_FF_LIM (n b : Nat) : Fld := ⟨0x50000 + 0x1000 * n + 0x118 * b + 0xA8, 23, 0⟩
/-- FF_AGE.HOLD (07 R254). -/ abbrev pl_FF_AGE_HOLD (n b : Nat) : Fld := ⟨0x50000 + 0x1000 * n + 0x118 * b + 0xAC, 31, 16⟩
/-- FF_AGE.DECAY (07 R254). -/ abbrev pl_FF_AGE_DECAY (n b : Nat) : Fld := ⟨0x50000 + 0x1000 * n + 0x118 * b + 0xAC, 15, 0⟩
/-- SIG_NOW (07 R254). -/ abbrev pl_SIG_NOW (n b : Nat) : Fld := ⟨0x50000 + 0x1000 * n + 0x118 * b + 0xB0, 31, 0⟩
/-- DP_NOW (07 R254). -/ abbrev pl_DP_NOW (n b : Nat) : Fld := ⟨0x50000 + 0x1000 * n + 0x118 * b + 0xB4, 31, 0⟩
/-- FF_NOW (07 R254). -/ abbrev pl_FF_NOW (n b : Nat) : Fld := ⟨0x50000 + 0x1000 * n + 0x118 * b + 0xB8, 31, 0⟩
/-- PWR_NOW (07 R254). -/ abbrev pl_PWR_NOW (n b : Nat) : Fld := ⟨0x50000 + 0x1000 * n + 0x118 * b + 0xBC, 23, 0⟩
/-- PIN_DEMAND (07 R254). -/ abbrev pl_PIN_DEMAND (n b : Nat) : Fld := ⟨0x50000 + 0x1000 * n + 0x118 * b + 0xC0, 31, 0⟩
/-- FF_AGE_NOW (07 R254). -/ abbrev pl_FF_AGE_NOW (n b : Nat) : Fld := ⟨0x50000 + 0x1000 * n + 0x118 * b + 0xC4, 15, 0⟩
/-- SETk.TARGET (07 R254). -/ abbrev pl_SETk_TARGET (n b i : Nat) : Fld := ⟨0x50000 + 0x1000 * n + 0x118 * b + 32 * i + 0xC8, 31, 0⟩
/-- SETk.B0 (07 R254). -/ abbrev pl_SETk_B0 (n b i : Nat) : Fld := ⟨0x50000 + 0x1000 * n + 0x118 * b + 32 * i + 0xCC, 31, 0⟩
/-- SETk.B1 (07 R254). -/ abbrev pl_SETk_B1 (n b i : Nat) : Fld := ⟨0x50000 + 0x1000 * n + 0x118 * b + 32 * i + 0xD0, 31, 0⟩
/-- SETk.B2 (07 R254). -/ abbrev pl_SETk_B2 (n b i : Nat) : Fld := ⟨0x50000 + 0x1000 * n + 0x118 * b + 32 * i + 0xD4, 31, 0⟩
/-- SETk.A1 (07 R254). -/ abbrev pl_SETk_A1 (n b i : Nat) : Fld := ⟨0x50000 + 0x1000 * n + 0x118 * b + 32 * i + 0xD8, 31, 0⟩
/-- SETk.A2 (07 R254). -/ abbrev pl_SETk_A2 (n b i : Nat) : Fld := ⟨0x50000 + 0x1000 * n + 0x118 * b + 32 * i + 0xDC, 31, 0⟩
/-- SETk.OSHIFT (07 R254). -/ abbrev pl_SETk_OSHIFT (n b i : Nat) : Fld := ⟨0x50000 + 0x1000 * n + 0x118 * b + 32 * i + 0xE0, 3, 0⟩
/-- SEP_MIN (06 R230). -/ abbrev ibex_SEP_MIN : Fld := ⟨0x60000 + 0x40, 31, 0⟩
/-- FLOW_X (06 R230). -/ abbrev ibex_FLOW_X : Fld := ⟨0x60000 + 0x44, 31, 0⟩
/-- FLOW_Y (06 R230). -/ abbrev ibex_FLOW_Y : Fld := ⟨0x60000 + 0x48, 31, 0⟩
/-- PLUME_LEN (06 R230). -/ abbrev ibex_PLUME_LEN : Fld := ⟨0x60000 + 0x4C, 31, 0⟩
/-- WEDGE_W0 (06 R230). -/ abbrev ibex_WEDGE_W0 : Fld := ⟨0x60000 + 0x50, 31, 0⟩
/-- WEDGE_TAN (06 R230). -/ abbrev ibex_WEDGE_TAN : Fld := ⟨0x60000 + 0x54, 15, 0⟩
/-- HOLD_MAX (06 R230). -/ abbrev ibex_HOLD_MAX : Fld := ⟨0x60000 + 0x58, 31, 0⟩
/-- HO_CTRL.RATE (06 R230). -/ abbrev ibex_HO_CTRL_RATE : Fld := ⟨0x60000 + 0x5C, 23, 16⟩
/-- HO_CTRL.TAKE (06 R230). -/ abbrev ibex_HO_CTRL_TAKE : Fld := ⟨0x60000 + 0x5C, 8, 8⟩
/-- HO_CTRL.REPAIR_MAX (06 R230). -/ abbrev ibex_HO_CTRL_REPAIR_MAX : Fld := ⟨0x60000 + 0x5C, 3, 0⟩
/-- TILE_X0 (06 R230). -/ abbrev ibex_TILE_X0 : Fld := ⟨0x60000 + 0x60, 31, 0⟩
/-- TILE_Y0 (06 R230). -/ abbrev ibex_TILE_Y0 : Fld := ⟨0x60000 + 0x64, 31, 0⟩
/-- TILE_SIZE (06 R230). -/ abbrev ibex_TILE_SIZE : Fld := ⟨0x60000 + 0x68, 31, 0⟩
/-- TILE_DIM.NY (06 R230). -/ abbrev ibex_TILE_DIM_NY : Fld := ⟨0x60000 + 0x6C, 31, 16⟩
/-- TILE_DIM.NX (06 R230). -/ abbrev ibex_TILE_DIM_NX : Fld := ⟨0x60000 + 0x6C, 15, 0⟩
/-- TILE_EDIT_IDX (06 R230). -/ abbrev ibex_TILE_EDIT_IDX : Fld := ⟨0x60000 + 0x70, 14, 0⟩
/-- TILE_EDIT_LO (06 R230). -/ abbrev ibex_TILE_EDIT_LO : Fld := ⟨0x60000 + 0x74, 31, 0⟩
/-- TILE_EDIT_HI (06 R230). -/ abbrev ibex_TILE_EDIT_HI : Fld := ⟨0x60000 + 0x78, 31, 0⟩
/-- TILE_EDIT_CMD.KEY (06 R230). -/ abbrev ibex_TILE_EDIT_CMD_KEY : Fld := ⟨0x60000 + 0x7C, 31, 16⟩
/-- HELD_LO (06 R230). -/ abbrev ibex_HELD_LO : Fld := ⟨0x60000 + 0x80, 31, 0⟩
/-- HELD_HI (06 R230). -/ abbrev ibex_HELD_HI : Fld := ⟨0x60000 + 0x84, 15, 0⟩
/-- FAILED_LO (06 R230). -/ abbrev ibex_FAILED_LO : Fld := ⟨0x60000 + 0x88, 31, 0⟩
/-- FAILED_HI (06 R230). -/ abbrev ibex_FAILED_HI : Fld := ⟨0x60000 + 0x8C, 15, 0⟩
/-- HO_STAT.ITEMS (06 R230). -/ abbrev ibex_HO_STAT_ITEMS : Fld := ⟨0x60000 + 0x90, 31, 16⟩
/-- HO_STAT.ORPHANS (06 R230). -/ abbrev ibex_HO_STAT_ORPHANS : Fld := ⟨0x60000 + 0x90, 15, 0⟩
/-- HO_COUNT.REPAIRS (06 R230). -/ abbrev ibex_HO_COUNT_REPAIRS : Fld := ⟨0x60000 + 0x94, 31, 16⟩
/-- HO_COUNT.HANDOFFS (06 R230). -/ abbrev ibex_HO_COUNT_HANDOFFS : Fld := ⟨0x60000 + 0x94, 15, 0⟩
/-- BREACH_COUNT (06 R230). -/ abbrev ibex_BREACH_COUNT : Fld := ⟨0x60000 + 0x98, 15, 0⟩
/-- FAIL_REQ.KEY (06 R230). -/ abbrev ibex_FAIL_REQ_KEY : Fld := ⟨0x60000 + 0x9C, 31, 16⟩
/-- FAIL_REQ.HEAD (06 R230). -/ abbrev ibex_FAIL_REQ_HEAD : Fld := ⟨0x60000 + 0x9C, 5, 0⟩
/-- TILE_STAT.EDIT_PENDING (06 R230). -/ abbrev ibex_TILE_STAT_EDIT_PENDING : Fld := ⟨0x60000 + 0xA0, 0, 0⟩
/-- CAS_KEY (05 R195). -/ abbrev fire_CAS_KEY (i : Nat) : Fld := ⟨0x70000 + 4 * i + 0x40, 31, 0⟩
/-- CAS_KEY_STAT.KCV (05 R195). -/ abbrev fire_CAS_KEY_STAT_KCV : Fld := ⟨0x70000 + 0x60, 31, 16⟩
/-- CAS_KEY_STAT.LOADED (05 R195). -/ abbrev fire_CAS_KEY_STAT_LOADED : Fld := ⟨0x70000 + 0x60, 0, 0⟩
/-- CAS_STEP (05 R195). -/ abbrev fire_CAS_STEP : Fld := ⟨0x70000 + 0x64, 23, 0⟩
/-- CAS_TIMEOUT (05 R195). -/ abbrev fire_CAS_TIMEOUT : Fld := ⟨0x70000 + 0x68, 15, 0⟩
/-- PGg.K (05 R195). -/ abbrev fire_PGg_K (i : Nat) : Fld := ⟨0x70000 + 16 * i + 0x80, 20, 16⟩
/-- PGg.AVG (05 R195). -/ abbrev fire_PGg_AVG (i : Nat) : Fld := ⟨0x70000 + 16 * i + 0x84, 23, 0⟩
/-- PGg.CAP (05 R195). -/ abbrev fire_PGg_CAP (i : Nat) : Fld := ⟨0x70000 + 16 * i + 0x88, 23, 0⟩
/-- PGg.LEVEL (05 R195). -/ abbrev fire_PGg_LEVEL (i : Nat) : Fld := ⟨0x70000 + 16 * i + 0x8C, 31, 8⟩
/-- PGg.ROT (05 R195). -/ abbrev fire_PGg_ROT (i : Nat) : Fld := ⟨0x70000 + 16 * i + 0x8C, 5, 0⟩
/-- DCLASSc.CAP (05 R195). -/ abbrev fire_DCLASSc_CAP (i : Nat) : Fld := ⟨0x70000 + 8 * i + 0x100, 23, 0⟩
/-- DCLASSc.RATE (05 R195). -/ abbrev fire_DCLASSc_RATE (i : Nat) : Fld := ⟨0x70000 + 8 * i + 0x104, 23, 0⟩
/-- CP_CTRL.PIX_BITS (08 R279). -/ abbrev cp_CP_CTRL_PIX_BITS (n : Nat) : Fld := ⟨0x80000 + 0x1000 * n + 0x40, 9, 8⟩
/-- CP_CTRL.LV_POL (08 R279). -/ abbrev cp_CP_CTRL_LV_POL (n : Nat) : Fld := ⟨0x80000 + 0x1000 * n + 0x40, 4, 4⟩
/-- CP_CTRL.FV_POL (08 R279). -/ abbrev cp_CP_CTRL_FV_POL (n : Nat) : Fld := ⟨0x80000 + 0x1000 * n + 0x40, 3, 3⟩
/-- CP_CTRL.EDGE (08 R279). -/ abbrev cp_CP_CTRL_EDGE (n : Nat) : Fld := ⟨0x80000 + 0x1000 * n + 0x40, 2, 2⟩
/-- CP_SIZE.HEIGHT (08 R279). -/ abbrev cp_CP_SIZE_HEIGHT (n : Nat) : Fld := ⟨0x80000 + 0x1000 * n + 0x44, 31, 16⟩
/-- CP_SIZE.WIDTH (08 R279). -/ abbrev cp_CP_SIZE_WIDTH (n : Nat) : Fld := ⟨0x80000 + 0x1000 * n + 0x44, 15, 0⟩
/-- FRAME_TMO (08 R279). -/ abbrev cp_FRAME_TMO (n : Nat) : Fld := ⟨0x80000 + 0x1000 * n + 0x48, 15, 0⟩
/-- CP_STAT.PCLK_PRESENT (08 R279). -/ abbrev cp_CP_STAT_PCLK_PRESENT (n : Nat) : Fld := ⟨0x80000 + 0x1000 * n + 0x4C, 31, 31⟩
/-- CP_STAT.IN_FRAME (08 R279). -/ abbrev cp_CP_STAT_IN_FRAME (n : Nat) : Fld := ⟨0x80000 + 0x1000 * n + 0x4C, 30, 30⟩
/-- CP_STAT.ROLE (08 R279). -/ abbrev cp_CP_STAT_ROLE (n : Nat) : Fld := ⟨0x80000 + 0x1000 * n + 0x4C, 29, 28⟩
/-- CP_STAT.PIPE (08 R279). -/ abbrev cp_CP_STAT_PIPE (n : Nat) : Fld := ⟨0x80000 + 0x1000 * n + 0x4C, 26, 24⟩
/-- CP_STAT.LINE (08 R279). -/ abbrev cp_CP_STAT_LINE (n : Nat) : Fld := ⟨0x80000 + 0x1000 * n + 0x4C, 12, 0⟩
/-- PCLK_KHZ (08 R279). -/ abbrev cp_PCLK_KHZ (n : Nat) : Fld := ⟨0x80000 + 0x1000 * n + 0x50, 17, 0⟩
/-- FRAME_COUNT (08 R279). -/ abbrev cp_FRAME_COUNT (n : Nat) : Fld := ⟨0x80000 + 0x1000 * n + 0x54, 31, 0⟩
/-- CNT_SHORT_LINE (08 R279). -/ abbrev cp_CNT_SHORT_LINE (n : Nat) : Fld := ⟨0x80000 + 0x1000 * n + 0x58, 31, 16⟩
/-- CNT_LONG_LINE (08 R279). -/ abbrev cp_CNT_LONG_LINE (n : Nat) : Fld := ⟨0x80000 + 0x1000 * n + 0x58, 15, 0⟩
/-- CNT_SHORT_FRAME (08 R279). -/ abbrev cp_CNT_SHORT_FRAME (n : Nat) : Fld := ⟨0x80000 + 0x1000 * n + 0x5C, 31, 16⟩
/-- CNT_LONG_FRAME (08 R279). -/ abbrev cp_CNT_LONG_FRAME (n : Nat) : Fld := ⟨0x80000 + 0x1000 * n + 0x5C, 15, 0⟩
/-- CNT_TIMEOUT (08 R279). -/ abbrev cp_CNT_TIMEOUT (n : Nat) : Fld := ⟨0x80000 + 0x1000 * n + 0x60, 31, 16⟩
/-- CNT_OVERFLOW (08 R279). -/ abbrev cp_CNT_OVERFLOW (n : Nat) : Fld := ⟨0x80000 + 0x1000 * n + 0x60, 15, 0⟩
/-- CNT_CLEAR (08 R279). -/ abbrev cp_CNT_CLEAR (n : Nat) : Fld := ⟨0x80000 + 0x1000 * n + 0x64, 31, 0⟩
/-- IP_SRC.IL_EN (08 R280). -/ abbrev ip_IP_SRC_IL_EN (n : Nat) : Fld := ⟨0x90000 + 0x1000 * n + 0x40, 31, 31⟩
/-- IP_SRC.IL_PORT (08 R280). -/ abbrev ip_IP_SRC_IL_PORT (n : Nat) : Fld := ⟨0x90000 + 0x1000 * n + 0x40, 27, 24⟩
/-- IP_SRC.VM_EN (08 R280). -/ abbrev ip_IP_SRC_VM_EN (n : Nat) : Fld := ⟨0x90000 + 0x1000 * n + 0x40, 15, 15⟩
/-- IP_SRC.VM_PORT (08 R280). -/ abbrev ip_IP_SRC_VM_PORT (n : Nat) : Fld := ⟨0x90000 + 0x1000 * n + 0x40, 11, 8⟩
/-- IP_MAP.MAPPED (08 R280). -/ abbrev ip_IP_MAP_MAPPED (n : Nat) : Fld := ⟨0x90000 + 0x1000 * n + 0x44, 31, 31⟩
/-- IP_MAP.LOGICAL (08 R280). -/ abbrev ip_IP_MAP_LOGICAL (n : Nat) : Fld := ⟨0x90000 + 0x1000 * n + 0x44, 2, 0⟩
/-- IP_STAT.SOURCE (08 R280). -/ abbrev ip_IP_STAT_SOURCE (n : Nat) : Fld := ⟨0x90000 + 0x1000 * n + 0x48, 31, 30⟩
/-- IP_STAT.FAILED (08 R280). -/ abbrev ip_IP_STAT_FAILED (n : Nat) : Fld := ⟨0x90000 + 0x1000 * n + 0x48, 29, 29⟩
/-- IP_STAT.THROTTLED (08 R280). -/ abbrev ip_IP_STAT_THROTTLED (n : Nat) : Fld := ⟨0x90000 + 0x1000 * n + 0x48, 28, 28⟩
/-- IP_STAT.RING_USED (08 R280). -/ abbrev ip_IP_STAT_RING_USED (n : Nat) : Fld := ⟨0x90000 + 0x1000 * n + 0x48, 26, 24⟩
/-- IL_BUF_NOW (08 R280). -/ abbrev ip_IL_BUF_NOW (n : Nat) : Fld := ⟨0x90000 + 0x1000 * n + 0x4C, 17, 0⟩
/-- RING_BASE_LO (08 R280). -/ abbrev ip_RING_BASE_LO (n : Nat) : Fld := ⟨0x90000 + 0x1000 * n + 0x50, 31, 12⟩
/-- RING_BASE_HI (08 R280). -/ abbrev ip_RING_BASE_HI (n : Nat) : Fld := ⟨0x90000 + 0x1000 * n + 0x54, 31, 0⟩
/-- REC_BASE_LO (08 R280). -/ abbrev ip_REC_BASE_LO (n : Nat) : Fld := ⟨0x90000 + 0x1000 * n + 0x58, 31, 6⟩
/-- REC_BASE_HI (08 R280). -/ abbrev ip_REC_BASE_HI (n : Nat) : Fld := ⟨0x90000 + 0x1000 * n + 0x5C, 31, 0⟩
/-- REC_LOG2 (08 R280). -/ abbrev ip_REC_LOG2 (n : Nat) : Fld := ⟨0x90000 + 0x1000 * n + 0x60, 4, 0⟩
/-- REC_WR (08 R280). -/ abbrev ip_REC_WR (n : Nat) : Fld := ⟨0x90000 + 0x1000 * n + 0x64, 15, 0⟩
/-- REC_COUNT (08 R280). -/ abbrev ip_REC_COUNT (n : Nat) : Fld := ⟨0x90000 + 0x1000 * n + 0x68, 31, 0⟩
/-- REC_DROP (08 R280). -/ abbrev ip_REC_DROP (n : Nat) : Fld := ⟨0x90000 + 0x1000 * n + 0x6C, 15, 0⟩
/-- IP_FLAGS.REMAPPED (08 R280). -/ abbrev ip_IP_FLAGS_REMAPPED (n : Nat) : Fld := ⟨0x90000 + 0x1000 * n + 0x70, 5, 5⟩
/-- IP_FLAGS.FAULT (08 R280). -/ abbrev ip_IP_FLAGS_FAULT (n : Nat) : Fld := ⟨0x90000 + 0x1000 * n + 0x70, 4, 4⟩
/-- IP_FLAGS.CFG_REFUSED (08 R280). -/ abbrev ip_IP_FLAGS_CFG_REFUSED (n : Nat) : Fld := ⟨0x90000 + 0x1000 * n + 0x70, 3, 3⟩
/-- IP_FLAGS.DPC_REFUSED (08 R280). -/ abbrev ip_IP_FLAGS_DPC_REFUSED (n : Nat) : Fld := ⟨0x90000 + 0x1000 * n + 0x70, 2, 2⟩
/-- IP_FLAGS.BLOB_LIMIT (08 R280). -/ abbrev ip_IP_FLAGS_BLOB_LIMIT (n : Nat) : Fld := ⟨0x90000 + 0x1000 * n + 0x70, 1, 1⟩
/-- IP_FLAGS.OVERFLOW (08 R280). -/ abbrev ip_IP_FLAGS_OVERFLOW (n : Nat) : Fld := ⟨0x90000 + 0x1000 * n + 0x70, 0, 0⟩
/-- BLACK (08 R280). -/ abbrev ips_BLACK (n b : Nat) : Fld := ⟨0x90000 + 0x1000 * n + 0x40 * b + 0x80, 15, 0⟩
/-- THRESH (08 R280). -/ abbrev ips_THRESH (n b : Nat) : Fld := ⟨0x90000 + 0x1000 * n + 0x40 * b + 0x84, 15, 0⟩
/-- ROI_Y0 (08 R280). -/ abbrev ips_ROI_Y0 (n b : Nat) : Fld := ⟨0x90000 + 0x1000 * n + 0x40 * b + 0x88, 31, 16⟩
/-- ROI_X0 (08 R280). -/ abbrev ips_ROI_X0 (n b : Nat) : Fld := ⟨0x90000 + 0x1000 * n + 0x40 * b + 0x88, 15, 0⟩
/-- ROI_H (08 R280). -/ abbrev ips_ROI_H (n b : Nat) : Fld := ⟨0x90000 + 0x1000 * n + 0x40 * b + 0x8C, 31, 16⟩
/-- ROI_W (08 R280). -/ abbrev ips_ROI_W (n b : Nat) : Fld := ⟨0x90000 + 0x1000 * n + 0x40 * b + 0x8C, 15, 0⟩
/-- SPAT_AMAX (08 R280). -/ abbrev ips_SPAT_AMAX (n b : Nat) : Fld := ⟨0x90000 + 0x1000 * n + 0x40 * b + 0x90, 31, 16⟩
/-- SPAT_AMIN (08 R280). -/ abbrev ips_SPAT_AMIN (n b : Nat) : Fld := ⟨0x90000 + 0x1000 * n + 0x40 * b + 0x90, 15, 0⟩
/-- DPC_BASE_LO (08 R280). -/ abbrev ips_DPC_BASE_LO (n b : Nat) : Fld := ⟨0x90000 + 0x1000 * n + 0x40 * b + 0x94, 31, 6⟩
/-- DPC_BASE_HI (08 R280). -/ abbrev ips_DPC_BASE_HI (n b : Nat) : Fld := ⟨0x90000 + 0x1000 * n + 0x40 * b + 0x98, 31, 0⟩
/-- DPC_COUNT (08 R280). -/ abbrev ips_DPC_COUNT (n b : Nat) : Fld := ⟨0x90000 + 0x1000 * n + 0x40 * b + 0x9C, 10, 0⟩
/-- DPC_STAT.COUNT (08 R280). -/ abbrev ips_DPC_STAT_COUNT (n b : Nat) : Fld := ⟨0x90000 + 0x1000 * n + 0x40 * b + 0xA0, 26, 16⟩
/-- DPC_STAT.STATE (08 R280). -/ abbrev ips_DPC_STAT_STATE (n b : Nat) : Fld := ⟨0x90000 + 0x1000 * n + 0x40 * b + 0xA0, 1, 0⟩
/-- AX_CFG.HOME_DIR (10 R339). -/ abbrev ax_AX_CFG_HOME_DIR (n : Nat) : Fld := ⟨0xA0000 + 0x1000 * n + 0x40, 8, 8⟩
/-- AX_CFG.LIM_MODE (10 R339). -/ abbrev ax_AX_CFG_LIM_MODE (n : Nat) : Fld := ⟨0xA0000 + 0x1000 * n + 0x40, 4, 4⟩
/-- AX_CFG.STALL_ACT (10 R339). -/ abbrev ax_AX_CFG_STALL_ACT (n : Nat) : Fld := ⟨0xA0000 + 0x1000 * n + 0x40, 2, 2⟩
/-- AX_CFG.STALL_EN (10 R339). -/ abbrev ax_AX_CFG_STALL_EN (n : Nat) : Fld := ⟨0xA0000 + 0x1000 * n + 0x40, 1, 1⟩
/-- AX_CFG.DIR_INV (10 R339). -/ abbrev ax_AX_CFG_DIR_INV (n : Nat) : Fld := ⟨0xA0000 + 0x1000 * n + 0x40, 0, 0⟩
/-- AX_IN.LIMN_EN (10 R339). -/ abbrev ax_AX_IN_LIMN_EN (n : Nat) : Fld := ⟨0xA0000 + 0x1000 * n + 0x44, 31, 31⟩
/-- AX_IN.LIMN_DI (10 R339). -/ abbrev ax_AX_IN_LIMN_DI (n : Nat) : Fld := ⟨0xA0000 + 0x1000 * n + 0x44, 29, 24⟩
/-- AX_IN.LIMP_EN (10 R339). -/ abbrev ax_AX_IN_LIMP_EN (n : Nat) : Fld := ⟨0xA0000 + 0x1000 * n + 0x44, 23, 23⟩
/-- AX_IN.LIMP_DI (10 R339). -/ abbrev ax_AX_IN_LIMP_DI (n : Nat) : Fld := ⟨0xA0000 + 0x1000 * n + 0x44, 21, 16⟩
/-- AX_IN.HOME_EN (10 R339). -/ abbrev ax_AX_IN_HOME_EN (n : Nat) : Fld := ⟨0xA0000 + 0x1000 * n + 0x44, 15, 15⟩
/-- AX_IN.HOME_DI (10 R339). -/ abbrev ax_AX_IN_HOME_DI (n : Nat) : Fld := ⟨0xA0000 + 0x1000 * n + 0x44, 13, 8⟩
/-- AX_IN.INV (10 R339). -/ abbrev ax_AX_IN_INV (n : Nat) : Fld := ⟨0xA0000 + 0x1000 * n + 0x44, 2, 0⟩
/-- STEP_NM (10 R339). -/ abbrev ax_STEP_NM (n : Nat) : Fld := ⟨0xA0000 + 0x1000 * n + 0x48, 31, 0⟩
/-- I_RUN (10 R339). -/ abbrev ax_I_RUN (n : Nat) : Fld := ⟨0xA0000 + 0x1000 * n + 0x4C, 31, 16⟩
/-- I_HOLD (10 R339). -/ abbrev ax_I_HOLD (n : Nat) : Fld := ⟨0xA0000 + 0x1000 * n + 0x4C, 15, 0⟩
/-- STBY_DELAY (10 R339). -/ abbrev ax_STBY_DELAY (n : Nat) : Fld := ⟨0xA0000 + 0x1000 * n + 0x50, 31, 16⟩
/-- STBY_PCT (10 R339). -/ abbrev ax_STBY_PCT (n : Nat) : Fld := ⟨0xA0000 + 0x1000 * n + 0x50, 6, 0⟩
/-- ALIM_STOP (10 R339). -/ abbrev ax_ALIM_STOP (n : Nat) : Fld := ⟨0xA0000 + 0x1000 * n + 0x54, 31, 0⟩
/-- JLIM_STOP (10 R339). -/ abbrev ax_JLIM_STOP (n : Nat) : Fld := ⟨0xA0000 + 0x1000 * n + 0x58, 31, 0⟩
/-- HOME_VFAST (10 R339). -/ abbrev ax_HOME_VFAST (n : Nat) : Fld := ⟨0xA0000 + 0x1000 * n + 0x5C, 31, 0⟩
/-- HOME_VSLOW (10 R339). -/ abbrev ax_HOME_VSLOW (n : Nat) : Fld := ⟨0xA0000 + 0x1000 * n + 0x60, 31, 0⟩
/-- HOME_OFS (10 R339). -/ abbrev ax_HOME_OFS (n : Nat) : Fld := ⟨0xA0000 + 0x1000 * n + 0x64, 31, 0⟩
/-- HOME_MAXDIST (10 R339). -/ abbrev ax_HOME_MAXDIST (n : Nat) : Fld := ⟨0xA0000 + 0x1000 * n + 0x68, 31, 0⟩
/-- CHAT.WIN (10 R339). -/ abbrev ax_CHAT_WIN (n : Nat) : Fld := ⟨0xA0000 + 0x1000 * n + 0x6C, 31, 24⟩
/-- CHAT.MAX (10 R339). -/ abbrev ax_CHAT_MAX (n : Nat) : Fld := ⟨0xA0000 + 0x1000 * n + 0x6C, 23, 16⟩
/-- DEBOUNCE (10 R339). -/ abbrev ax_DEBOUNCE (n : Nat) : Fld := ⟨0xA0000 + 0x1000 * n + 0x6C, 15, 0⟩
/-- STALL.N (10 R339). -/ abbrev ax_STALL_N (n : Nat) : Fld := ⟨0xA0000 + 0x1000 * n + 0x70, 15, 12⟩
/-- STALL.ANGLE (10 R339). -/ abbrev ax_STALL_ANGLE (n : Nat) : Fld := ⟨0xA0000 + 0x1000 * n + 0x70, 9, 0⟩
/-- STALL_VMIN (10 R339). -/ abbrev ax_STALL_VMIN (n : Nat) : Fld := ⟨0xA0000 + 0x1000 * n + 0x74, 31, 0⟩
/-- L_PHASE (10 R339). -/ abbrev ax_L_PHASE (n : Nat) : Fld := ⟨0xA0000 + 0x1000 * n + 0x78, 31, 16⟩
/-- R_PHASE (10 R339). -/ abbrev ax_R_PHASE (n : Nat) : Fld := ⟨0xA0000 + 0x1000 * n + 0x78, 15, 0⟩
/-- AX_CMD.KEY (10 R339). -/ abbrev ax_AX_CMD_KEY (n : Nat) : Fld := ⟨0xA0000 + 0x1000 * n + 0x7C, 31, 16⟩
/-- AX_CMD.MOVE (10 R339). -/ abbrev ax_AX_CMD_MOVE (n : Nat) : Fld := ⟨0xA0000 + 0x1000 * n + 0x7C, 6, 4⟩
/-- AX_CMD.OP (10 R339). -/ abbrev ax_AX_CMD_OP (n : Nat) : Fld := ⟨0xA0000 + 0x1000 * n + 0x7C, 2, 0⟩
/-- AX_STAT.STATE (10 R339). -/ abbrev ax_AX_STAT_STATE (n : Nat) : Fld := ⟨0xA0000 + 0x1000 * n + 0x80, 31, 28⟩
/-- AX_STAT.HOME_STEP (10 R339). -/ abbrev ax_AX_STAT_HOME_STEP (n : Nat) : Fld := ⟨0xA0000 + 0x1000 * n + 0x80, 27, 24⟩
/-- AX_STAT.CAUSE (10 R339). -/ abbrev ax_AX_STAT_CAUSE (n : Nat) : Fld := ⟨0xA0000 + 0x1000 * n + 0x80, 19, 16⟩
/-- AX_STAT.CMD_RESULT (10 R339). -/ abbrev ax_AX_STAT_CMD_RESULT (n : Nat) : Fld := ⟨0xA0000 + 0x1000 * n + 0x80, 13, 12⟩
/-- AX_STAT.HOMED (10 R339). -/ abbrev ax_AX_STAT_HOMED (n : Nat) : Fld := ⟨0xA0000 + 0x1000 * n + 0x80, 8, 8⟩
/-- AX_STAT.INPUTS (10 R339). -/ abbrev ax_AX_STAT_INPUTS (n : Nat) : Fld := ⟨0xA0000 + 0x1000 * n + 0x80, 7, 5⟩
/-- AX_STAT.DONE (10 R339). -/ abbrev ax_AX_STAT_DONE (n : Nat) : Fld := ⟨0xA0000 + 0x1000 * n + 0x80, 3, 3⟩
/-- AX_STAT.LEVEL (10 R339). -/ abbrev ax_AX_STAT_LEVEL (n : Nat) : Fld := ⟨0xA0000 + 0x1000 * n + 0x80, 1, 0⟩
/-- POS_NOW (10 R339). -/ abbrev ax_POS_NOW (n : Nat) : Fld := ⟨0xA0000 + 0x1000 * n + 0x84, 31, 0⟩
/-- VEL_NOW (10 R339). -/ abbrev ax_VEL_NOW (n : Nat) : Fld := ⟨0xA0000 + 0x1000 * n + 0x88, 31, 0⟩
/-- LOAD_ANGLE.VALID (10 R339). -/ abbrev ax_LOAD_ANGLE_VALID (n : Nat) : Fld := ⟨0xA0000 + 0x1000 * n + 0x8C, 31, 31⟩
/-- LOAD_ANGLE.D (10 R339). -/ abbrev ax_LOAD_ANGLE_D (n : Nat) : Fld := ⟨0xA0000 + 0x1000 * n + 0x8C, 9, 0⟩
/-- LATCH_POS (10 R339). -/ abbrev ax_LATCH_POS (n : Nat) : Fld := ⟨0xA0000 + 0x1000 * n + 0x90, 31, 0⟩
/-- LATCH_NS (10 R339). -/ abbrev ax_LATCH_NS (n : Nat) : Fld := ⟨0xA0000 + 0x1000 * n + 0x94, 29, 0⟩
/-- LATCH_S (10 R339). -/ abbrev ax_LATCH_S (n : Nat) : Fld := ⟨0xA0000 + 0x1000 * n + 0x98, 31, 0⟩
/-- HOME_POS (10 R339). -/ abbrev ax_HOME_POS (n : Nat) : Fld := ⟨0xA0000 + 0x1000 * n + 0x9C, 31, 0⟩
/-- AX_FLAGS.POS_LOST (10 R339). -/ abbrev ax_AX_FLAGS_POS_LOST (n : Nat) : Fld := ⟨0xA0000 + 0x1000 * n + 0xA0, 7, 7⟩
/-- AX_FLAGS.START_REFUSED (10 R339). -/ abbrev ax_AX_FLAGS_START_REFUSED (n : Nat) : Fld := ⟨0xA0000 + 0x1000 * n + 0xA0, 6, 6⟩
/-- AX_FLAGS.INPUT_LOST (10 R339). -/ abbrev ax_AX_FLAGS_INPUT_LOST (n : Nat) : Fld := ⟨0xA0000 + 0x1000 * n + 0xA0, 5, 5⟩
/-- AX_FLAGS.BRIDGE_FAULT (10 R339). -/ abbrev ax_AX_FLAGS_BRIDGE_FAULT (n : Nat) : Fld := ⟨0xA0000 + 0x1000 * n + 0xA0, 4, 4⟩
/-- AX_FLAGS.HOME_FAIL (10 R339). -/ abbrev ax_AX_FLAGS_HOME_FAIL (n : Nat) : Fld := ⟨0xA0000 + 0x1000 * n + 0xA0, 3, 3⟩
/-- AX_FLAGS.SWITCH_UNSTABLE (10 R339). -/ abbrev ax_AX_FLAGS_SWITCH_UNSTABLE (n : Nat) : Fld := ⟨0xA0000 + 0x1000 * n + 0xA0, 2, 2⟩
/-- AX_FLAGS.LIMIT_STOP (10 R339). -/ abbrev ax_AX_FLAGS_LIMIT_STOP (n : Nat) : Fld := ⟨0xA0000 + 0x1000 * n + 0xA0, 1, 1⟩
/-- AX_FLAGS.STALL (10 R339). -/ abbrev ax_AX_FLAGS_STALL (n : Nat) : Fld := ⟨0xA0000 + 0x1000 * n + 0xA0, 0, 0⟩
/-- CHAT_COUNT (10 R339). -/ abbrev ax_CHAT_COUNT (n : Nat) : Fld := ⟨0xA0000 + 0x1000 * n + 0xA4, 7, 0⟩
/-- MOVEk.TARGET (10 R339). -/ abbrev ax_MOVEk_TARGET (n i : Nat) : Fld := ⟨0xA0000 + 0x1000 * n + 32 * i + 0x100, 31, 0⟩
/-- MOVEk.MODE (10 R339). -/ abbrev ax_MOVEk_MODE (n i : Nat) : Fld := ⟨0xA0000 + 0x1000 * n + 32 * i + 0x104, 0, 0⟩
/-- MOVEk.VMAX (10 R339). -/ abbrev ax_MOVEk_VMAX (n i : Nat) : Fld := ⟨0xA0000 + 0x1000 * n + 32 * i + 0x108, 31, 0⟩
/-- MOVEk.AMAX (10 R339). -/ abbrev ax_MOVEk_AMAX (n i : Nat) : Fld := ⟨0xA0000 + 0x1000 * n + 32 * i + 0x10C, 31, 0⟩
/-- MOVEk.JMAX (10 R339). -/ abbrev ax_MOVEk_JMAX (n i : Nat) : Fld := ⟨0xA0000 + 0x1000 * n + 32 * i + 0x110, 31, 0⟩
/-- BP_STAT.STATE (10 R340). -/ abbrev bp_BP_STAT_STATE (n : Nat) : Fld := ⟨0xB0000 + 0x1000 * n + 0x40, 1, 0⟩
/-- LOSS_TICKS (10 R340). -/ abbrev bp_LOSS_TICKS (n : Nat) : Fld := ⟨0xB0000 + 0x1000 * n + 0x44, 3, 0⟩
/-- CNT_MISSING (10 R340). -/ abbrev bp_CNT_MISSING (n : Nat) : Fld := ⟨0xB0000 + 0x1000 * n + 0x48, 31, 16⟩
/-- CNT_CODE_ERR (10 R340). -/ abbrev bp_CNT_CODE_ERR (n : Nat) : Fld := ⟨0xB0000 + 0x1000 * n + 0x48, 15, 0⟩
/-- CNT_LOSS (10 R340). -/ abbrev bp_CNT_LOSS (n : Nat) : Fld := ⟨0xB0000 + 0x1000 * n + 0x4C, 15, 0⟩
/-- CNT_CLEAR (10 R340). -/ abbrev bp_CNT_CLEAR (n : Nat) : Fld := ⟨0xB0000 + 0x1000 * n + 0x50, 31, 0⟩
/-- MEAS_I.IB (10 R340). -/ abbrev bps_MEAS_I_IB (n b : Nat) : Fld := ⟨0xB0000 + 0x1000 * n + 0x20 * b + 0x60, 31, 16⟩
/-- MEAS_I.IA (10 R340). -/ abbrev bps_MEAS_I_IA (n b : Nat) : Fld := ⟨0xB0000 + 0x1000 * n + 0x20 * b + 0x60, 15, 0⟩
/-- MEAS_V.VB (10 R340). -/ abbrev bps_MEAS_V_VB (n b : Nat) : Fld := ⟨0xB0000 + 0x1000 * n + 0x20 * b + 0x64, 31, 16⟩
/-- MEAS_V.VA (10 R340). -/ abbrev bps_MEAS_V_VA (n b : Nat) : Fld := ⟨0xB0000 + 0x1000 * n + 0x20 * b + 0x64, 15, 0⟩
/-- VBUS (10 R340). -/ abbrev bps_VBUS (n b : Nat) : Fld := ⟨0xB0000 + 0x1000 * n + 0x20 * b + 0x68, 15, 0⟩
/-- DRV_STAT (10 R340). -/ abbrev bps_DRV_STAT (n b : Nat) : Fld := ⟨0xB0000 + 0x1000 * n + 0x20 * b + 0x6C, 7, 0⟩
/-- LED_CTRL.SUBP_MAX (11 R353). -/ abbrev led_LED_CTRL_SUBP_MAX : Fld := ⟨0xC0000 + 0x40, 21, 16⟩
/-- LED_CTRL.SYNC_IDX (11 R353). -/ abbrev led_LED_CTRL_SYNC_IDX : Fld := ⟨0xC0000 + 0x40, 13, 8⟩
/-- LED_CTRL.SYNC_SRC (11 R353). -/ abbrev led_LED_CTRL_SYNC_SRC : Fld := ⟨0xC0000 + 0x40, 7, 6⟩
/-- LED_CTRL.DIAG_OFF_EN (11 R353). -/ abbrev led_LED_CTRL_DIAG_OFF_EN : Fld := ⟨0xC0000 + 0x40, 5, 5⟩
/-- LED_CTRL.SYNC_MODE (11 R353). -/ abbrev led_LED_CTRL_SYNC_MODE : Fld := ⟨0xC0000 + 0x40, 4, 4⟩
/-- LED_CTRL.SYNC_EDGE (11 R353). -/ abbrev led_LED_CTRL_SYNC_EDGE : Fld := ⟨0xC0000 + 0x40, 3, 3⟩
/-- LED_CTRL.SHORT_ACT (11 R353). -/ abbrev led_LED_CTRL_SHORT_ACT : Fld := ⟨0xC0000 + 0x40, 1, 1⟩
/-- LED_CTRL.DIAG_EN (11 R353). -/ abbrev led_LED_CTRL_DIAG_EN : Fld := ⟨0xC0000 + 0x40, 0, 0⟩
/-- LED_CUR.I_COL (11 R353). -/ abbrev led_LED_CUR_I_COL : Fld := ⟨0xC0000 + 0x44, 7, 0⟩
/-- BLANK_MIN (11 R353). -/ abbrev led_BLANK_MIN : Fld := ⟨0xC0000 + 0x48, 15, 0⟩
/-- LED_SWAP.DISARM (11 R353). -/ abbrev led_LED_SWAP_DISARM : Fld := ⟨0xC0000 + 0x4C, 1, 1⟩
/-- LED_SWAP.ARM (11 R353). -/ abbrev led_LED_SWAP_ARM : Fld := ⟨0xC0000 + 0x4C, 0, 0⟩
/-- LED_STAT.FRONT (11 R353). -/ abbrev led_LED_STAT_FRONT : Fld := ⟨0xC0000 + 0x50, 31, 31⟩
/-- LED_STAT.ARMED (11 R353). -/ abbrev led_LED_STAT_ARMED : Fld := ⟨0xC0000 + 0x50, 30, 30⟩
/-- LED_STAT.ROW (11 R353). -/ abbrev led_LED_STAT_ROW : Fld := ⟨0xC0000 + 0x50, 27, 24⟩
/-- LED_STAT.MFRAMES (11 R353). -/ abbrev led_LED_STAT_MFRAMES : Fld := ⟨0xC0000 + 0x50, 15, 0⟩
/-- DER_T1 (11 R353). -/ abbrev led_DER_T1 : Fld := ⟨0xC0000 + 0x54, 31, 16⟩
/-- DER_T0 (11 R353). -/ abbrev led_DER_T0 : Fld := ⟨0xC0000 + 0x54, 15, 0⟩
/-- T_OFF (11 R353). -/ abbrev led_T_OFF : Fld := ⟨0xC0000 + 0x58, 31, 16⟩
/-- DER_MIN (11 R353). -/ abbrev led_DER_MIN : Fld := ⟨0xC0000 + 0x58, 8, 0⟩
/-- LAMP_STAT.T_LAMP (11 R353). -/ abbrev led_LAMP_STAT_T_LAMP : Fld := ⟨0xC0000 + 0x5C, 31, 16⟩
/-- LAMP_STAT.HOT (11 R353). -/ abbrev led_LAMP_STAT_HOT : Fld := ⟨0xC0000 + 0x5C, 12, 12⟩
/-- LAMP_STAT.THERM_FAULT (11 R353). -/ abbrev led_LAMP_STAT_THERM_FAULT : Fld := ⟨0xC0000 + 0x5C, 11, 11⟩
/-- LAMP_STAT.SCALE (11 R353). -/ abbrev led_LAMP_STAT_SCALE : Fld := ⟨0xC0000 + 0x5C, 8, 0⟩
/-- DIAG_CFG.SHORT_MV (11 R353). -/ abbrev led_DIAG_CFG_SHORT_MV : Fld := ⟨0xC0000 + 0x60, 31, 16⟩
/-- DIAG_CFG.OPEN_PCT (11 R353). -/ abbrev led_DIAG_CFG_OPEN_PCT : Fld := ⟨0xC0000 + 0x60, 14, 8⟩
/-- DIAG_CFG.CONFIRM (11 R353). -/ abbrev led_DIAG_CFG_CONFIRM : Fld := ⟨0xC0000 + 0x60, 3, 0⟩
/-- SWAP_COUNT (11 R353). -/ abbrev led_SWAP_COUNT : Fld := ⟨0xC0000 + 0x64, 31, 16⟩
/-- SYNC_COUNT (11 R353). -/ abbrev led_SYNC_COUNT : Fld := ⟨0xC0000 + 0x64, 15, 0⟩
/-- LED_DIAG (11 R353). -/ abbrev led_LED_DIAG (i : Nat) : Fld := ⟨0xC0000 + 4 * i + 0x100, 31, 0⟩
/-- DIAG_UNAVAIL (11 R353). -/ abbrev led_DIAG_UNAVAIL (i : Nat) : Fld := ⟨0xC0000 + 4 * i + 0x180, 31, 0⟩
/-- DIAG_CLEAR (11 R353). -/ abbrev led_DIAG_CLEAR : Fld := ⟨0xC0000 + 0x1C0, 31, 0⟩
/-- CFG.DENSITY (12 R380). -/ abbrev ddr_CFG_DENSITY : Fld := ⟨0xD0000 + 0x40, 19, 16⟩
/-- CFG.CAP_GB (12 R380). -/ abbrev ddr_CFG_CAP_GB : Fld := ⟨0xD0000 + 0x40, 15, 8⟩
/-- CFG.TRAINED (12 R380). -/ abbrev ddr_CFG_TRAINED : Fld := ⟨0xD0000 + 0x40, 0, 0⟩
/-- MARK.M1_EN (12 R380). -/ abbrev ddr_MARK_M1_EN : Fld := ⟨0xD0000 + 0x44, 15, 15⟩
/-- MARK.M1_DEV (12 R380). -/ abbrev ddr_MARK_M1_DEV : Fld := ⟨0xD0000 + 0x44, 11, 8⟩
/-- MARK.M0_EN (12 R380). -/ abbrev ddr_MARK_M0_EN : Fld := ⟨0xD0000 + 0x44, 7, 7⟩
/-- MARK.M0_DEV (12 R380). -/ abbrev ddr_MARK_M0_DEV : Fld := ⟨0xD0000 + 0x44, 3, 0⟩
/-- MARK_N (12 R380). -/ abbrev ddr_MARK_N : Fld := ⟨0xD0000 + 0x48, 7, 0⟩
/-- CE_COUNT (12 R380). -/ abbrev ddr_CE_COUNT : Fld := ⟨0xD0000 + 0x4C, 31, 0⟩
/-- POISON_COUNT (12 R380). -/ abbrev ddr_POISON_COUNT : Fld := ⟨0xD0000 + 0x50, 31, 16⟩
/-- UE_COUNT (12 R380). -/ abbrev ddr_UE_COUNT : Fld := ⟨0xD0000 + 0x50, 15, 0⟩
/-- LAST_UE_LO (12 R380). -/ abbrev ddr_LAST_UE_LO : Fld := ⟨0xD0000 + 0x54, 31, 0⟩
/-- LAST_UE_HI (12 R380). -/ abbrev ddr_LAST_UE_HI : Fld := ⟨0xD0000 + 0x58, 31, 0⟩
/-- LAST_UE_INFO.CLASS (12 R380). -/ abbrev ddr_LAST_UE_INFO_CLASS : Fld := ⟨0xD0000 + 0x5C, 17, 16⟩
/-- LAST_UE_INFO.DEVS (12 R380). -/ abbrev ddr_LAST_UE_INFO_DEVS : Fld := ⟨0xD0000 + 0x5C, 9, 0⟩
/-- DEV_CE_EVEN (12 R380). -/ abbrev ddr_DEV_CE_EVEN (i : Nat) : Fld := ⟨0xD0000 + 4 * i + 0x60, 15, 0⟩
/-- DEV_CE_ODD (12 R380). -/ abbrev ddr_DEV_CE_ODD (i : Nat) : Fld := ⟨0xD0000 + 4 * i + 0x60, 31, 16⟩
/-- SCRUB_HOURS (12 R380). -/ abbrev ddr_SCRUB_HOURS : Fld := ⟨0xD0000 + 0x88, 15, 0⟩
/-- SCRUB_STAT.PASSES (12 R380). -/ abbrev ddr_SCRUB_STAT_PASSES : Fld := ⟨0xD0000 + 0x8C, 31, 16⟩
/-- SCRUB_STAT.PCT (12 R380). -/ abbrev ddr_SCRUB_STAT_PCT : Fld := ⟨0xD0000 + 0x8C, 6, 0⟩
/-- REF_CTRL.TEMP_2X (12 R380). -/ abbrev ddr_REF_CTRL_TEMP_2X : Fld := ⟨0xD0000 + 0x90, 8, 8⟩
/-- REF_CTRL.POSTPONE_MAX (12 R380). -/ abbrev ddr_REF_CTRL_POSTPONE_MAX : Fld := ⟨0xD0000 + 0x90, 2, 0⟩
/-- REF_STAT.FORCED_COUNT (12 R380). -/ abbrev ddr_REF_STAT_FORCED_COUNT : Fld := ⟨0xD0000 + 0x94, 31, 16⟩
/-- REF_STAT.OWED1 (12 R380). -/ abbrev ddr_REF_STAT_OWED1 : Fld := ⟨0xD0000 + 0x94, 6, 4⟩
/-- REF_STAT.OWED0 (12 R380). -/ abbrev ddr_REF_STAT_OWED0 : Fld := ⟨0xD0000 + 0x94, 2, 0⟩
/-- NR_CTRL.EN (12 R380). -/ abbrev ddr_NR_CTRL_EN : Fld := ⟨0xD0000 + 0x98, 16, 16⟩
/-- NR_CTRL.K (12 R380). -/ abbrev ddr_NR_CTRL_K : Fld := ⟨0xD0000 + 0x98, 12, 8⟩
/-- NR_CTRL.RFM_REQ (12 R380). -/ abbrev ddr_NR_CTRL_RFM_REQ : Fld := ⟨0xD0000 + 0x98, 1, 1⟩
/-- NR_CTRL.RADIUS (12 R380). -/ abbrev ddr_NR_CTRL_RADIUS : Fld := ⟨0xD0000 + 0x98, 0, 0⟩
/-- RFM_COUNT (12 R380). -/ abbrev ddr_RFM_COUNT : Fld := ⟨0xD0000 + 0x9C, 31, 16⟩
/-- NR_COUNT (12 R380). -/ abbrev ddr_NR_COUNT : Fld := ⟨0xD0000 + 0x9C, 15, 0⟩
/-- PD_CTRL.RUN_PD (12 R380). -/ abbrev ddr_PD_CTRL_RUN_PD : Fld := ⟨0xD0000 + 0xA0, 17, 17⟩
/-- PD_CTRL.PD_EN (12 R380). -/ abbrev ddr_PD_CTRL_PD_EN : Fld := ⟨0xD0000 + 0xA0, 16, 16⟩
/-- PD_CTRL.PD_IDLE (12 R380). -/ abbrev ddr_PD_CTRL_PD_IDLE : Fld := ⟨0xD0000 + 0xA0, 15, 0⟩
/-- AGE_RT (12 R380). -/ abbrev ddr_AGE_RT : Fld := ⟨0xD0000 + 0xA4, 15, 0⟩
/-- AGE_HOST (12 R380). -/ abbrev ddr_AGE_HOST : Fld := ⟨0xD0000 + 0xA8, 31, 16⟩
/-- AGE_IMG (12 R380). -/ abbrev ddr_AGE_IMG : Fld := ⟨0xD0000 + 0xA8, 15, 0⟩
/-- AGE_MGMT (12 R380). -/ abbrev ddr_AGE_MGMT : Fld := ⟨0xD0000 + 0xAC, 15, 0⟩
/-- PPR_CTRL.ROW_CE_LIMIT (12 R380). -/ abbrev ddr_PPR_CTRL_ROW_CE_LIMIT : Fld := ⟨0xD0000 + 0xB0, 15, 8⟩
/-- PPR_CTRL.AUTO (12 R380). -/ abbrev ddr_PPR_CTRL_AUTO : Fld := ⟨0xD0000 + 0xB0, 0, 0⟩
/-- PPR_CMD.KEY (12 R380). -/ abbrev ddr_PPR_CMD_KEY : Fld := ⟨0xD0000 + 0xB4, 31, 16⟩
/-- PPR_CMD.OP (12 R380). -/ abbrev ddr_PPR_CMD_OP : Fld := ⟨0xD0000 + 0xB4, 1, 0⟩
/-- PPR_STAT.PENDING (12 R380). -/ abbrev ddr_PPR_STAT_PENDING : Fld := ⟨0xD0000 + 0xB8, 31, 24⟩
/-- PPR_STAT.SOFT (12 R380). -/ abbrev ddr_PPR_STAT_SOFT : Fld := ⟨0xD0000 + 0xB8, 23, 16⟩
/-- PPR_STAT.HARD (12 R380). -/ abbrev ddr_PPR_STAT_HARD : Fld := ⟨0xD0000 + 0xB8, 15, 8⟩
/-- PPR_STAT.STATE (12 R380). -/ abbrev ddr_PPR_STAT_STATE : Fld := ⟨0xD0000 + 0xB8, 1, 0⟩
/-- PPR_RES (12 R380). -/ abbrev ddr_PPR_RES : Fld := ⟨0xD0000 + 0xBC, 7, 0⟩
/-- PPR_LOGi.ADDR_LO (12 R380). -/ abbrev ddr_PPR_LOGi_ADDR_LO (i : Nat) : Fld := ⟨0xD0000 + 16 * i + 0x100, 31, 0⟩
/-- PPR_LOGi.ADDR_HI (12 R380). -/ abbrev ddr_PPR_LOGi_ADDR_HI (i : Nat) : Fld := ⟨0xD0000 + 16 * i + 0x104, 31, 0⟩
/-- PPR_LOGi.STATE (12 R380). -/ abbrev ddr_PPR_LOGi_STATE (i : Nat) : Fld := ⟨0xD0000 + 16 * i + 0x108, 31, 29⟩
/-- PPR_LOGi.DEV (12 R380). -/ abbrev ddr_PPR_LOGi_DEV (i : Nat) : Fld := ⟨0xD0000 + 16 * i + 0x108, 28, 24⟩
/-- PPR_LOGi.CE (12 R380). -/ abbrev ddr_PPR_LOGi_CE (i : Nat) : Fld := ⟨0xD0000 + 16 * i + 0x108, 15, 0⟩
/-- CH_CTRL.PRIO (13 R396). -/ abbrev dma_CH_CTRL_PRIO (n : Nat) : Fld := ⟨0xE0000 + 0x1000 * n + 0x40, 8, 8⟩
/-- CH_CTRL.TRIG_LATCH (13 R396). -/ abbrev dma_CH_CTRL_TRIG_LATCH (n : Nat) : Fld := ⟨0xE0000 + 0x1000 * n + 0x40, 4, 4⟩
/-- CH_CTRL.TRIG_SRC (13 R396). -/ abbrev dma_CH_CTRL_TRIG_SRC (n : Nat) : Fld := ⟨0xE0000 + 0x1000 * n + 0x40, 2, 0⟩
/-- TRIG_CH (13 R396). -/ abbrev dma_TRIG_CH (n : Nat) : Fld := ⟨0xE0000 + 0x1000 * n + 0x44, 4, 0⟩
/-- TIMER_US (13 R396). -/ abbrev dma_TIMER_US (n : Nat) : Fld := ⟨0xE0000 + 0x1000 * n + 0x48, 23, 0⟩
/-- FRAME_DIV (13 R396). -/ abbrev dma_FRAME_DIV (n : Nat) : Fld := ⟨0xE0000 + 0x1000 * n + 0x4C, 15, 0⟩
/-- CHAIN_LO (13 R396). -/ abbrev dma_CHAIN_LO (n : Nat) : Fld := ⟨0xE0000 + 0x1000 * n + 0x50, 31, 6⟩
/-- CHAIN_HI (13 R396). -/ abbrev dma_CHAIN_HI (n : Nat) : Fld := ⟨0xE0000 + 0x1000 * n + 0x54, 31, 0⟩
/-- CH_CMD.KEY (13 R396). -/ abbrev dma_CH_CMD_KEY (n : Nat) : Fld := ⟨0xE0000 + 0x1000 * n + 0x58, 31, 16⟩
/-- CH_CMD.OP (13 R396). -/ abbrev dma_CH_CMD_OP (n : Nat) : Fld := ⟨0xE0000 + 0x1000 * n + 0x58, 2, 0⟩
/-- DOORBELL (13 R396). -/ abbrev dma_DOORBELL (n : Nat) : Fld := ⟨0xE0000 + 0x1000 * n + 0x5C, 31, 0⟩
/-- CH_STAT.STATE (13 R396). -/ abbrev dma_CH_STAT_STATE (n : Nat) : Fld := ⟨0xE0000 + 0x1000 * n + 0x60, 31, 28⟩
/-- CH_STAT.DB_PEND (13 R396). -/ abbrev dma_CH_STAT_DB_PEND (n : Nat) : Fld := ⟨0xE0000 + 0x1000 * n + 0x60, 24, 24⟩
/-- CH_STAT.TRIG_PEND (13 R396). -/ abbrev dma_CH_STAT_TRIG_PEND (n : Nat) : Fld := ⟨0xE0000 + 0x1000 * n + 0x60, 23, 23⟩
/-- CH_STAT.ERR_CODE (13 R396). -/ abbrev dma_CH_STAT_ERR_CODE (n : Nat) : Fld := ⟨0xE0000 + 0x1000 * n + 0x60, 15, 8⟩
/-- CH_STAT.CMD_RESULT (13 R396). -/ abbrev dma_CH_STAT_CMD_RESULT (n : Nat) : Fld := ⟨0xE0000 + 0x1000 * n + 0x60, 3, 0⟩
/-- CUR_LO (13 R396). -/ abbrev dma_CUR_LO (n : Nat) : Fld := ⟨0xE0000 + 0x1000 * n + 0x64, 31, 0⟩
/-- CUR_HI (13 R396). -/ abbrev dma_CUR_HI (n : Nat) : Fld := ⟨0xE0000 + 0x1000 * n + 0x68, 31, 0⟩
/-- TAIL_LO (13 R396). -/ abbrev dma_TAIL_LO (n : Nat) : Fld := ⟨0xE0000 + 0x1000 * n + 0x6C, 31, 0⟩
/-- TAIL_HI (13 R396). -/ abbrev dma_TAIL_HI (n : Nat) : Fld := ⟨0xE0000 + 0x1000 * n + 0x70, 31, 0⟩
/-- DONE_COUNT (13 R396). -/ abbrev dma_DONE_COUNT (n : Nat) : Fld := ⟨0xE0000 + 0x1000 * n + 0x74, 31, 0⟩
/-- BYTES_LEFT (13 R396). -/ abbrev dma_BYTES_LEFT (n : Nat) : Fld := ⟨0xE0000 + 0x1000 * n + 0x78, 31, 0⟩
/-- TRIG_MISSED (13 R396). -/ abbrev dma_TRIG_MISSED (n : Nat) : Fld := ⟨0xE0000 + 0x1000 * n + 0x7C, 15, 0⟩
/-- MISMATCH_LO (13 R396). -/ abbrev dma_MISMATCH_LO (n : Nat) : Fld := ⟨0xE0000 + 0x1000 * n + 0x80, 31, 0⟩
/-- MISMATCH_HI (13 R396). -/ abbrev dma_MISMATCH_HI (n : Nat) : Fld := ⟨0xE0000 + 0x1000 * n + 0x84, 31, 0⟩
/-- CH_FLAGS.TRIG_MISSED (13 R396). -/ abbrev dma_CH_FLAGS_TRIG_MISSED (n : Nat) : Fld := ⟨0xE0000 + 0x1000 * n + 0x88, 2, 2⟩
/-- CH_FLAGS.MISMATCH (13 R396). -/ abbrev dma_CH_FLAGS_MISMATCH (n : Nat) : Fld := ⟨0xE0000 + 0x1000 * n + 0x88, 1, 1⟩
/-- CH_FLAGS.OVERLAP (13 R396). -/ abbrev dma_CH_FLAGS_OVERLAP (n : Nat) : Fld := ⟨0xE0000 + 0x1000 * n + 0x88, 0, 0⟩
/-- LINK_STAT.UP (02 R537). -/ abbrev pcie_LINK_STAT_UP : Fld := ⟨0x100000 + 0x40, 16, 16⟩
/-- LINK_STAT.WIDTH (02 R537). -/ abbrev pcie_LINK_STAT_WIDTH : Fld := ⟨0x100000 + 0x40, 9, 4⟩
/-- LINK_STAT.SPEED (02 R537). -/ abbrev pcie_LINK_STAT_SPEED : Fld := ⟨0x100000 + 0x40, 3, 0⟩
/-- BAD_ACC_COUNT (02 R537). -/ abbrev pcie_BAD_ACC_COUNT : Fld := ⟨0x100000 + 0x44, 31, 0⟩
/-- BAD_ACC_ADDR_LO (02 R537). -/ abbrev pcie_BAD_ACC_ADDR_LO : Fld := ⟨0x100000 + 0x48, 31, 0⟩
/-- BAD_ACC_ADDR_HI.BAR (02 R537). -/ abbrev pcie_BAD_ACC_ADDR_HI_BAR : Fld := ⟨0x100000 + 0x4C, 31, 31⟩
/-- BAD_ACC_ADDR_HI.OFS (02 R537). -/ abbrev pcie_BAD_ACC_ADDR_HI_OFS : Fld := ⟨0x100000 + 0x4C, 3, 0⟩
/-- MDIO_CMD.CL45 (15 R451). -/ abbrev eth_MDIO_CMD_CL45 : Fld := ⟨0x110000 + 0x40, 31, 31⟩
/-- MDIO_CMD.OP (15 R451). -/ abbrev eth_MDIO_CMD_OP : Fld := ⟨0x110000 + 0x40, 29, 28⟩
/-- MDIO_CMD.PHYAD (15 R451). -/ abbrev eth_MDIO_CMD_PHYAD : Fld := ⟨0x110000 + 0x40, 25, 21⟩
/-- MDIO_CMD.REG (15 R451). -/ abbrev eth_MDIO_CMD_REG : Fld := ⟨0x110000 + 0x40, 20, 16⟩
/-- MDIO_CMD.DATA (15 R451). -/ abbrev eth_MDIO_CMD_DATA : Fld := ⟨0x110000 + 0x40, 15, 0⟩
/-- MDIO_STAT.BUSY (15 R451). -/ abbrev eth_MDIO_STAT_BUSY : Fld := ⟨0x110000 + 0x44, 31, 31⟩
/-- MDIO_STAT.DATA (15 R451). -/ abbrev eth_MDIO_STAT_DATA : Fld := ⟨0x110000 + 0x44, 15, 0⟩
/-- PORT_CTRL.AN_EN (15 R451). -/ abbrev ethp_PORT_CTRL_AN_EN (b : Nat) : Fld := ⟨0x110000 + 0x40 * b + 0x80, 8, 8⟩
/-- PORT_CTRL.SPEED (15 R451). -/ abbrev ethp_PORT_CTRL_SPEED (b : Nat) : Fld := ⟨0x110000 + 0x40 * b + 0x80, 4, 4⟩
/-- PORT_CTRL.TX_EN (15 R451). -/ abbrev ethp_PORT_CTRL_TX_EN (b : Nat) : Fld := ⟨0x110000 + 0x40 * b + 0x80, 1, 1⟩
/-- PORT_CTRL.RX_EN (15 R451). -/ abbrev ethp_PORT_CTRL_RX_EN (b : Nat) : Fld := ⟨0x110000 + 0x40 * b + 0x80, 0, 0⟩
/-- PORT_STAT.LINK (15 R451). -/ abbrev ethp_PORT_STAT_LINK (b : Nat) : Fld := ⟨0x110000 + 0x40 * b + 0x84, 31, 31⟩
/-- PORT_STAT.AN_DONE (15 R451). -/ abbrev ethp_PORT_STAT_AN_DONE (b : Nat) : Fld := ⟨0x110000 + 0x40 * b + 0x84, 30, 30⟩
/-- RX_BASE_LO (15 R451). -/ abbrev ethp_RX_BASE_LO (b : Nat) : Fld := ⟨0x110000 + 0x40 * b + 0x88, 31, 11⟩
/-- RX_BASE_HI (15 R451). -/ abbrev ethp_RX_BASE_HI (b : Nat) : Fld := ⟨0x110000 + 0x40 * b + 0x8C, 31, 0⟩
/-- TX_BASE_LO (15 R451). -/ abbrev ethp_TX_BASE_LO (b : Nat) : Fld := ⟨0x110000 + 0x40 * b + 0x90, 31, 11⟩
/-- TX_BASE_HI (15 R451). -/ abbrev ethp_TX_BASE_HI (b : Nat) : Fld := ⟨0x110000 + 0x40 * b + 0x94, 31, 0⟩
/-- LOG2.TX (15 R451). -/ abbrev ethp_LOG2_TX (b : Nat) : Fld := ⟨0x110000 + 0x40 * b + 0x98, 11, 8⟩
/-- LOG2.RX (15 R451). -/ abbrev ethp_LOG2_RX (b : Nat) : Fld := ⟨0x110000 + 0x40 * b + 0x98, 3, 0⟩
/-- RX_WR (15 R451). -/ abbrev ethp_RX_WR (b : Nat) : Fld := ⟨0x110000 + 0x40 * b + 0x9C, 11, 0⟩
/-- RX_RD (15 R451). -/ abbrev ethp_RX_RD (b : Nat) : Fld := ⟨0x110000 + 0x40 * b + 0xA0, 11, 0⟩
/-- TX_WR (15 R451). -/ abbrev ethp_TX_WR (b : Nat) : Fld := ⟨0x110000 + 0x40 * b + 0xA4, 11, 0⟩
/-- TX_RD (15 R451). -/ abbrev ethp_TX_RD (b : Nat) : Fld := ⟨0x110000 + 0x40 * b + 0xA8, 11, 0⟩
/-- TS_TX_OFS (15 R451). -/ abbrev ethp_TS_TX_OFS (b : Nat) : Fld := ⟨0x110000 + 0x40 * b + 0xAC, 31, 16⟩
/-- TS_RX_OFS (15 R451). -/ abbrev ethp_TS_RX_OFS (b : Nat) : Fld := ⟨0x110000 + 0x40 * b + 0xAC, 15, 0⟩
/-- CNT_RX_FULL (15 R451). -/ abbrev ethp_CNT_RX_FULL (b : Nat) : Fld := ⟨0x110000 + 0x40 * b + 0xB0, 31, 16⟩
/-- CNT_RX_FCS (15 R451). -/ abbrev ethp_CNT_RX_FCS (b : Nat) : Fld := ⟨0x110000 + 0x40 * b + 0xB0, 15, 0⟩
/-- CNT_TX_BAD (15 R451). -/ abbrev ethp_CNT_TX_BAD (b : Nat) : Fld := ⟨0x110000 + 0x40 * b + 0xB4, 31, 16⟩
/-- CNT_RX_LONG (15 R451). -/ abbrev ethp_CNT_RX_LONG (b : Nat) : Fld := ⟨0x110000 + 0x40 * b + 0xB4, 15, 0⟩
/-- CNT_CLEAR (15 R451). -/ abbrev ethp_CNT_CLEAR (b : Nat) : Fld := ⟨0x110000 + 0x40 * b + 0xB8, 31, 0⟩
/-- ISO_STAT.LINK_OK (17 R490). -/ abbrev iso_ISO_STAT_LINK_OK : Fld := ⟨0x120000 + 0x40, 31, 31⟩
/-- ISO_STAT.VSYS_UV (17 R490). -/ abbrev iso_ISO_STAT_VSYS_UV : Fld := ⟨0x120000 + 0x40, 30, 30⟩
/-- ISO_STAT.ISO_HOT (17 R490). -/ abbrev iso_ISO_STAT_ISO_HOT : Fld := ⟨0x120000 + 0x40, 29, 29⟩
/-- ISO_STAT.CRIT_LATCH (17 R490). -/ abbrev iso_ISO_STAT_CRIT_LATCH : Fld := ⟨0x120000 + 0x40, 28, 28⟩
/-- ISO_STAT.AGE (17 R490). -/ abbrev iso_ISO_STAT_AGE : Fld := ⟨0x120000 + 0x40, 7, 0⟩
/-- PERMIT_STAT.VOTE (17 R490). -/ abbrev iso_PERMIT_STAT_VOTE : Fld := ⟨0x120000 + 0x44, 31, 31⟩
/-- PERMIT_STAT.LEVEL (17 R490). -/ abbrev iso_PERMIT_STAT_LEVEL : Fld := ⟨0x120000 + 0x44, 26, 24⟩
/-- PERMIT_STAT.FAULTED (17 R490). -/ abbrev iso_PERMIT_STAT_FAULTED : Fld := ⟨0x120000 + 0x44, 18, 16⟩
/-- PERMIT_STAT.CLEARABLE (17 R490). -/ abbrev iso_PERMIT_STAT_CLEARABLE : Fld := ⟨0x120000 + 0x44, 10, 8⟩
/-- PERMIT_CFG.FILT_US (17 R490). -/ abbrev iso_PERMIT_CFG_FILT_US : Fld := ⟨0x120000 + 0x48, 25, 16⟩
/-- PERMIT_CFG.DISC_MS (17 R490). -/ abbrev iso_PERMIT_CFG_DISC_MS : Fld := ⟨0x120000 + 0x48, 15, 0⟩
/-- PERMIT_CLEAR.KEY (17 R490). -/ abbrev iso_PERMIT_CLEAR_KEY : Fld := ⟨0x120000 + 0x4C, 31, 16⟩
/-- LE_MASK_LO (17 R490). -/ abbrev iso_LE_MASK_LO : Fld := ⟨0x120000 + 0x50, 31, 0⟩
/-- LE_MASK_HI (17 R490). -/ abbrev iso_LE_MASK_HI : Fld := ⟨0x120000 + 0x54, 15, 0⟩
/-- LE_CMD_LO (17 R490). -/ abbrev iso_LE_CMD_LO : Fld := ⟨0x120000 + 0x58, 31, 0⟩
/-- LE_CMD_HI (17 R490). -/ abbrev iso_LE_CMD_HI : Fld := ⟨0x120000 + 0x5C, 15, 0⟩
/-- LE_OUT_LO (17 R490). -/ abbrev iso_LE_OUT_LO : Fld := ⟨0x120000 + 0x60, 31, 0⟩
/-- LE_OUT_HI (17 R490). -/ abbrev iso_LE_OUT_HI : Fld := ⟨0x120000 + 0x64, 15, 0⟩
/-- LE_OVL_LO (17 R490). -/ abbrev iso_LE_OVL_LO : Fld := ⟨0x120000 + 0x68, 31, 0⟩
/-- LE_OVL_HI (17 R490). -/ abbrev iso_LE_OVL_HI : Fld := ⟨0x120000 + 0x6C, 15, 0⟩
/-- LE_STUCK_LO (17 R490). -/ abbrev iso_LE_STUCK_LO : Fld := ⟨0x120000 + 0x70, 31, 0⟩
/-- LE_STUCK_HI (17 R490). -/ abbrev iso_LE_STUCK_HI : Fld := ⟨0x120000 + 0x74, 15, 0⟩
/-- DI_LO (17 R490). -/ abbrev iso_DI_LO : Fld := ⟨0x120000 + 0x78, 31, 0⟩
/-- DI_HI (17 R490). -/ abbrev iso_DI_HI : Fld := ⟨0x120000 + 0x7C, 15, 0⟩
/-- DO_OUT (17 R490). -/ abbrev iso_DO_OUT : Fld := ⟨0x120000 + 0x80, 15, 0⟩
/-- DO_SAFE (17 R490). -/ abbrev iso_DO_SAFE : Fld := ⟨0x120000 + 0x84, 15, 0⟩
/-- DO_STAT.FAULT (17 R490). -/ abbrev iso_DO_STAT_FAULT : Fld := ⟨0x120000 + 0x88, 31, 16⟩
/-- DO_STAT.OUT (17 R490). -/ abbrev iso_DO_STAT_OUT : Fld := ⟨0x120000 + 0x88, 15, 0⟩
/-- CNT_LINK_LOSS (17 R490). -/ abbrev iso_CNT_LINK_LOSS : Fld := ⟨0x120000 + 0x8C, 31, 16⟩
/-- CNT_LINK_ERR (17 R490). -/ abbrev iso_CNT_LINK_ERR : Fld := ⟨0x120000 + 0x8C, 15, 0⟩
/-- CNT_CLEAR (17 R490). -/ abbrev iso_CNT_CLEAR : Fld := ⟨0x120000 + 0x90, 31, 0⟩
/-- DI_FILT_F0 (17 R490). -/ abbrev iso_DI_FILT_F0 (i : Nat) : Fld := ⟨0x120000 + 4 * i + 0xC0, 7, 0⟩
/-- DI_FILT_F1 (17 R490). -/ abbrev iso_DI_FILT_F1 (i : Nat) : Fld := ⟨0x120000 + 4 * i + 0xC0, 15, 8⟩
/-- DI_FILT_F2 (17 R490). -/ abbrev iso_DI_FILT_F2 (i : Nat) : Fld := ⟨0x120000 + 4 * i + 0xC0, 23, 16⟩
/-- DI_FILT_F3 (17 R490). -/ abbrev iso_DI_FILT_F3 (i : Nat) : Fld := ⟨0x120000 + 4 * i + 0xC0, 31, 24⟩
/-- SC_ID.PART (18 R495). -/ abbrev sc_SC_ID_PART : Fld := ⟨0x3F00000 + 0x0, 31, 16⟩
/-- SC_ID.REV (18 R495). -/ abbrev sc_SC_ID_REV : Fld := ⟨0x3F00000 + 0x0, 15, 0⟩
/-- SC_CTRL.ENABLE (18 R495). -/ abbrev sc_SC_CTRL_ENABLE : Fld := ⟨0x3F00000 + 0x4, 0, 0⟩
/-- SC_DONE (18 R495). -/ abbrev sc_SC_DONE : Fld := ⟨0x3F00000 + 0x8, 11, 0⟩
/-- SC_DONE_CLR (18 R495). -/ abbrev sc_SC_DONE_CLR : Fld := ⟨0x3F00000 + 0xC, 31, 0⟩
/-- SC_BUSY.RUN (18 R495). -/ abbrev sc_SC_BUSY_RUN : Fld := ⟨0x3F00000 + 0x10, 23, 12⟩
/-- SC_BUSY.LOADED (18 R495). -/ abbrev sc_SC_BUSY_LOADED : Fld := ⟨0x3F00000 + 0x10, 11, 0⟩
/-- SC_GO (18 R495). -/ abbrev sc_SC_GO : Fld := ⟨0x3F00000 + 0x14, 11, 0⟩
/-- SC_STOP (18 R495). -/ abbrev sc_SC_STOP : Fld := ⟨0x3F00000 + 0x18, 31, 0⟩
/-- SC_IRQ_EN.ERR (18 R495). -/ abbrev sc_SC_IRQ_EN_ERR : Fld := ⟨0x3F00000 + 0x1C, 31, 31⟩
/-- SC_IRQ_EN.DONE (18 R495). -/ abbrev sc_SC_IRQ_EN_DONE : Fld := ⟨0x3F00000 + 0x1C, 11, 0⟩
/-- SC_ERR.CHANNEL (18 R495). -/ abbrev sc_SC_ERR_CHANNEL : Fld := ⟨0x3F00000 + 0x20, 11, 8⟩
/-- SC_ERR.CODE (18 R495). -/ abbrev sc_SC_ERR_CODE : Fld := ⟨0x3F00000 + 0x20, 7, 0⟩
/-- X_MAP_VALID (18 R495). -/ abbrev sc_X_MAP_VALID : Fld := ⟨0x3F00000 + 0xF000, 11, 0⟩
/-- X_MAPc.HEAD (18 R495). -/ abbrev sc_X_MAPc_HEAD (i : Nat) : Fld := ⟨0x3F00000 + 4 * i + 0xF004, 5, 0⟩
/-- X_MERGED (18 R495). -/ abbrev sc_X_MERGED : Fld := ⟨0x3F00000 + 0xF040, 31, 0⟩
/-- X_CLAMPED (18 R495). -/ abbrev sc_X_CLAMPED : Fld := ⟨0x3F00000 + 0xF044, 31, 0⟩
/-- X_PARAM_IGN (18 R495). -/ abbrev sc_X_PARAM_IGN : Fld := ⟨0x3F00000 + 0xF048, 15, 0⟩
/-- X_HO.MAPPED (18 R495). -/ abbrev sc_X_HO_MAPPED : Fld := ⟨0x3F00000 + 0xF04C, 31, 16⟩
/-- X_HO.SPARE (18 R495). -/ abbrev sc_X_HO_SPARE : Fld := ⟨0x3F00000 + 0xF04C, 15, 0⟩
/-- X_CTX_USED (18 R495). -/ abbrev sc_X_CTX_USED : Fld := ⟨0x3F00000 + 0xF050, 7, 0⟩
/-- X_REFUSE.CHANNEL (18 R495). -/ abbrev sc_X_REFUSE_CHANNEL : Fld := ⟨0x3F00000 + 0xF054, 19, 16⟩
/-- X_REFUSE.SEG (18 R495). -/ abbrev sc_X_REFUSE_SEG : Fld := ⟨0x3F00000 + 0xF054, 15, 0⟩
/-- X_PRESET_REJ (18 R495). -/ abbrev sc_X_PRESET_REJ : Fld := ⟨0x3F00000 + 0xF058, 15, 0⟩
/-- CH_LIST_PORT (18 R495). -/ abbrev scc_CH_LIST_PORT (b : Nat) : Fld := ⟨0x3F00000 + 0x1000 * b + 0x1000, 31, 0⟩
/-- CH_LIST_FREE (18 R495). -/ abbrev scc_CH_LIST_FREE (b : Nat) : Fld := ⟨0x3F00000 + 0x1000 * b + 0x1004, 16, 0⟩
/-- CH_LIST_RESET (18 R495). -/ abbrev scc_CH_LIST_RESET (b : Nat) : Fld := ⟨0x3F00000 + 0x1000 * b + 0x1008, 31, 0⟩
/-- CH_POS_X (18 R495). -/ abbrev scc_CH_POS_X (b : Nat) : Fld := ⟨0x3F00000 + 0x1000 * b + 0x100C, 31, 0⟩
/-- CH_POS_Y (18 R495). -/ abbrev scc_CH_POS_Y (b : Nat) : Fld := ⟨0x3F00000 + 0x1000 * b + 0x1010, 31, 0⟩
/-- CH_SEG (18 R495). -/ abbrev scc_CH_SEG (b : Nat) : Fld := ⟨0x3F00000 + 0x1000 * b + 0x1014, 15, 0⟩
/-- CH_STATE (18 R495). -/ abbrev scc_CH_STATE (b : Nat) : Fld := ⟨0x3F00000 + 0x1000 * b + 0x1018, 2, 0⟩
/-- CH_PARAMi (18 R495). -/ abbrev scc_CH_PARAMi (b i : Nat) : Fld := ⟨0x3F00000 + 0x1000 * b + 4 * i + 0x1100, 31, 0⟩
/-- CH_CORR (18 R495). -/ abbrev scc_CH_CORR (b i : Nat) : Fld := ⟨0x3F00000 + 0x1000 * b + 4 * i + 0x1800, 31, 0⟩

end F
end Sys2Proof.Machine
end

