-- ==== Sys2Proof/Config.lean ====
section
/-!
DEFINITION. What one part fixes and the spec leaves open: free values, without a body, so that no proof can see what they are.
-/
namespace Sys2Proof.Config

/-- The free values of the model: entry `k` is the `k`-th value the spec leaves open that a run meets (log 12).
DESIGN CHOICE. -/
opaque freeNat : Nat → Nat

/-- The error of the device's own planning arithmetic in codes, by head, planned time and path coordinate (03 R538; log 13): a meaning narrows it
to R538's bound. DESIGN CHOICE. -/
opaque codeError : Nat → Nat → Int → Nat

/-- DEV_ID.STEPPING (02 R74): fixed by the silicon (log 6). DESIGN CHOICE. -/
opaque stepping : BitVec 8

/-- Byte `k` of Derlis's P-256 public key in ROM, X then Y (02 R68): fixed by the silicon (log 11). DESIGN CHOICE. -/
opaque romKey : Nat → BitVec 8

/-- The PCI Express Device Serial Number (02 R43): unique to each module (log 6). DESIGN CHOICE. -/
opaque deviceSerial : BitVec 64

end Sys2Proof.Config
end

