-- ==== Sys2Proof/Machine/State.lean ====
section
/-!
DEFINITION. The state of the KM4816 as plain data: the register file, the hidden state of every block, DRAM, NOR, OTP and the
isolated die, and the queue of commands that wait.
-/
namespace Sys2Proof.Machine

/-- A pending write of shadowed fields (02 R56): the word's BAR0 address, the bits written, their value, and the
boundary that it may or may not reach when it was presented less than 300 ns before it, else 0 (01 R536). -/
structure WPend where
  addr : Nat
  mask : Nat
  val : Nat
  due : Nat
  deriving DecidableEq, Repr

/-- The register file of BAR0: the value last written or set by hardware, the RWS values in force, the RWS writes that wait. -/
structure Regs where
  cur : Tab Word := []
  live : Tab Word := []
  pend : List WPend := []
  /-- The bits of W1C registers that the hardware has set of late, as (CLK_RT cycle, address, bits) (00 R14); the model's own record. -/
  fresh : List (Nat × Nat × Word) := []
  deriving DecidableEq, Repr

/-- An event record on its way to the recorder (15 R442): CODE, SRC, TIME and payload words. -/
structure EvRec where
  code : Nat
  src : Nat
  sec : Nat
  ns : Nat
  payload : List Nat
  deriving DecidableEq, Repr

/-- A step of the time base that waits for its boundary (15 R432), with the operands copied when it was accepted. -/
inductive TimeStep where
  | set (sec ns : Nat)
  | add (sec ns : Int)
  deriving DecidableEq, Repr

/-- An armed compare unit (15 R437): its target and period. -/
structure Tcmp where
  armed : Bool := false
  sec : Nat := 0
  ns : Nat := 0
  period : Nat := 0
  deriving DecidableEq, Repr

/-- The time base (15 R429 to R433): SEC, NS, FRAC, the increment in force, the link frame count (a count since POR) and the
cycle in the frame. -/
structure TimeSt where
  sec : Nat := 0
  ns : Nat := 0
  frac : Nat := 0
  incNs : Nat := 2
  incFrac : Nat := 0
  frame : Nat := 0
  cycle : Nat := 0
  step : Option TimeStep := none
  capPend : Bool := false
  /-- The time at the last frame boundary (10 R332). -/
  bSec : Nat := 0
  bNs : Nat := 0
  tcmp : Tab Tcmp := []
  deriving DecidableEq, Repr

/-- The event recorder's hidden state (15 R445 to R447): the queue, what a reset or a drop still owes, and the writer's place. -/
structure EvrSt where
  /-- Records queued, oldest first, at most 1,024 (R445). -/
  queue : List EvRec := []
  /-- Records that must be written before the queue: BOOT and TIME_MARK after a reset, LOST after a drop. -/
  front : List EvRec := []
  /-- Records dropped since the last LOST record, with the TIME of the first drop. -/
  dropped : Nat := 0
  dropSec : Nat := 0
  dropNs : Nat := 0
  /-- SEQ and region offset of the next record to be written (HEAD of R447). -/
  seq : Nat := 0
  ofs : Nat := 0
  keepClosed : Bool := false
  /-- Records that lie in Wrap, oldest first, as (SEQ, offset, length): OLDEST of R447 is the first. -/
  wrap : List (Nat × Nat × Nat) := []
  /-- The writer accepts no record between the end of a DEV_RESET's controlled stop and BOOT (R445). -/
  closed : Bool := false
  deriving DecidableEq, Repr

/-- A vector's holdoff (02 R61): the CLK_RT cycle since POR before which no message is sent, and a message deferred. -/
structure Holdoff where
  until_ : Nat := 0
  deferred : Bool := false
  deriving DecidableEq, Repr

/-- The identifiers of configuration space (02 R43). The Subsystem ID is read from OTP once the PLLs have locked. -/
structure CfgIds where
  vendor : Nat := 0x1DE7
  device : Nat := 0x4816
  classCode : Nat := 0x118000
  subVendor : Nat := 0x1DE7
  subsystem : Nat := 0
  deriving DecidableEq, Repr

/-- The PCIe endpoint (02 R43 to R50): its identifiers, D-state, MSI-X Enable and function mask, the MSI-X table as words, the pending-bit array,
the messages sent (latest first), the data of the last BAR2 read and whether its completion was poisoned (12 R363). -/
structure Pcie where
  ids : CfgIds := {}
  d3 : Bool := false
  msixEn : Bool := false
  fnMask : Bool := false
  msix : Tab Word := []
  pba : List Nat := []
  hold : Tab Holdoff := []
  sent : List Nat := []
  rdata : List Nat := []
  ep : Bool := false
  aerNonFatal : Bool := false
  deriving DecidableEq, Repr

/-- Why a controlled stop runs (02 R63); `devRest` follows the stop of a DEV_RESET while axes ramp to rest (10 R338). -/
inductive StopCause where
  | abort | devReset | fault | abortFault | devRest
  deriving DecidableEq, Repr

/-- The image accepted last (02 R67): MODE, ENROLL_PERMIT, ADVANCE_SV, SEC_VER, and the bytes of the SC-12 personality. -/
structure Image where
  mode : Nat := 0
  enrollPermit : Bool := false
  advanceSv : Bool := false
  secVer : Nat := 0
  sc : List Nat := []
  deriving DecidableEq, Repr

/-- Device control (02 R62 to R74): the pending host command with the frame of its acceptance, fault causes that wait for their
boundary, an internal ABORT that waits (with whether a fault with HOST_WDOG follows), a DEV_RESET that waits, the controlled stop in
progress with its frames left, the host watchdog, the image, the enrolment in progress, and what BOOT will record. -/
structure Ctl where
  cmd : Nat := 0
  cmdFrame : Nat := 0
  faults : List Nat := []
  faultFrame : Nat := 0
  /-- A STOP of the host watchdog that waits (R74). -/
  stopInt : Bool := false
  abortInt : Option Bool := none
  abortFrame : Nat := 0
  resetPend : Bool := false
  resetFrame : Nat := 0
  stop : Option StopCause := none
  stopLeft : Nat := 0
  wdogFrames : Nat := 0
  wdogExpired : Bool := false
  image : Image := {}
  enroll : Option (Nat × Nat × List Nat) := none
  bootCount : Nat := 0
  bootCause : Nat := 0
  /-- The present boundary is a layer boundary, and its frame-shadowed commits wait for the layer-shadowed ones (01 R38). -/
  commitDue : Bool := false
  pllLocked : Bool := false
  deriving DecidableEq, Repr

/-- The sequencer (03 R83 to R88): the entry it takes next, whether the entry at PC was just taken and waits to be executed, whether it
has completed, the frame in which it was taken, and what the run remembers. -/
structure SeqSt where
  /-- The entry taken when the current one has completed: the jump or branch target, else index + 1 (R85). -/
  next : Nat := 0
  /-- The entry at PC was taken in this frame and is not executed yet. -/
  fresh : Bool := false
  /-- The entry at PC has completed. -/
  done : Bool := false
  takenFrame : Nat := 0
  /-- Job end or STOP at LAYER_OPEN: ARMED at the next frame boundary, with the frame in which it arose. -/
  endFrame : Option Nat := none
  /-- That end is a STOP (its command is reported done). -/
  endIsStop : Bool := false
  /-- The next START follows a STOP (R84 BR_RESUMED). -/
  resumeArmed : Bool := false
  /-- A layer has closed since ARMED was last entered from IDLE (R80, R84), and the one closed last was marked LAST (R84 BR_MORE). -/
  closedSince : Bool := false
  closedLast : Bool := false
  /-- STREAM_WAIT was recorded for this wait (01 R23). -/
  waitLogged : Bool := false
  /-- LQ_BAD was recorded and READY has not been read as not ready since (R80). -/
  badLogged : Bool := false
  /-- The frame in which every check of R80 passed, and the words of the descriptor read then. -/
  okFrame : Option Nat := none
  desc : List Nat := []
  /-- EXPOSE has run in the open layer. -/
  exposed : Bool := false
  /-- The first plan entry of the open layer that holds motion (R539). -/
  firstEntry : Nat := 0
  /-- THICK_NM of the layer last opened (R84 AUX_START), its TAG (R78). -/
  thick : Nat := 0
  tag : Nat := 0
  /-- Spans clipped and lengths stretched in the open layer (R78 CLIPS, STRETCHES). -/
  clips : Nat := 0
  stretches : Nat := 0
  /-- Context commits asked for: context, layer boundary or frame, and for a late request the boundary that it may or may not reach,
  else 0 (R97, 01 R536). -/
  ctxReq : List (Nat × Bool × Nat) := []
  /-- Context window writes that may not have crossed yet: window offset, word and the boundary they may or may not reach (01 R536). -/
  ctxLate : List (Nat × Nat × Nat) := []
  deriving DecidableEq, Repr

/-- A loop slot's hidden state (04 R107, R117 to R144). Set-points are axis LSB, the limiter's `lp`, `lv` 1/256 LSB, compensator
states Q18.30, observer states Q32.16. -/
structure Slot where
  s1 : Int := 0
  s2 : Int := 0
  s3 : Int := 0
  ycPrev : Int := 0
  vsPrev : Int := 0
  /-- The limiter's state (R107): position, velocity, previous target. -/
  lp : Int := 0
  lv : Int := 0
  tPrev : Int := 0
  /-- Limited set-points for the frame, the next and the one after (R117 sp0, sp1, sp2). -/
  sp0 : Int := 0
  sp1 : Int := 0
  sp2 : Int := 0
  /-- The observer (R130). -/
  op : Int := 0
  ov : Int := 0
  oi : Int := 0
  od : Int := 0
  /-- Commands for F, F+1 and F+2 (R126, R131). -/
  c1 : Int := 0
  c2 : Int := 0
  c3 : Int := 0
  /-- What the fall-back law answered in the last evaluated frame, and whether it was clamped. -/
  cmdFb : Int := 0
  fbSat : Bool := false
  /-- The fall-back law is in force (R132). -/
  lawFb : Bool := false
  /-- Consecutive frames with STATE_SAT or OUT_SAT (R129). -/
  satCount : Nat := 0
  /-- Frames in a row with a valid position and no saturation (R135). -/
  clean : Nat := 0
  /-- The set in force is re-initialised at the next evaluation (R128), whatever law is in force where a spare took the slot's place (R153). -/
  reinit : Bool := true
  initAll : Bool := false
  /-- The head parked while the slot was in COAST: it enters PARKING when its position is back (R136, R137). -/
  parkDue : Bool := false
  /-- Parking: consecutive frames within PARK_TOL, frames since PARKING was entered (R138, R139). -/
  parkRun : Nat := 0
  parkFrames : Nat := 0
  /-- The ramp of CURRENT_PARK: its first value and frames left (R139). -/
  rampFrom : Int := 0
  rampLeft : Nat := 0
  /-- It left service by a fault, and SERVO_RESTART has been written since (R144); frames the park position was held. -/
  faulted : Bool := false
  restarted : Bool := false
  holdRun : Nat := 0
  /-- First frame of the present over-limit run (R143), first frame of the present coast (06 R212). -/
  feStart : Nat := 0
  coastStart : Nat := 0
  /-- Trace: samples captured, trigger sample, samples captured before it, last value of node 0, and a TRACE_FORCE that waits. -/
  tIdx : Nat := 0
  tTrig : Nat := 0
  tPre : Nat := 0
  tNode : Int := 0
  tForce : Bool := false
  /-- Trace samples of the 64-byte burst in progress: buffer index of the first, and the words. -/
  tBurst : List Nat := []
  tBurstIdx : Nat := 0
  deriving DecidableEq, Repr

/-- A vector record of a stream (03 R89), or one that a handoff item names. -/
structure VRec where
  typ : Nat := 0
  ctx : Nat := 0
  rev : Bool := false
  cont : Bool := false
  skyIn : Bool := false
  skyOut : Bool := false
  /-- Reserved bits set or other words not as R89 wants them. -/
  dirty : Bool := false
  x : Int := 0
  y : Int := 0
  f : Int := 0
  param : Nat := 0
  tag : Nat := 0
  deriving DecidableEq, Repr

/-- What a piece of motion or an edge belongs to: stream head, record index, TAG, context number and its words as the vector
took them (R98), direction, the nominal offset of the piece's start on the record, and the handoff store entry it executes. -/
structure Who where
  src : Nat := 0
  idx : Nat := 0
  tag : Nat := 0
  ctx : Nat := 0
  cw : List Nat := []
  rev : Bool := false
  nom : Int := 0
  item : Option Nat := none
  attempt : Nat := 0
  /-- The record, and its start point in 1/256 nm. -/
  vr : VRec := {}
  x0 : Int := 0
  y0 : Int := 0
  f0 : Int := 0
  deriving DecidableEq, Repr

/-- A planned piece of motion (03 R101 to R106). Times in 2^−16 frame, coordinates in 1/256 nm, speeds and limits in UQ16.8. It
runs from speed `v0` to `vp`, cruises, and reaches `v1` at its end. `lit`: 0 off, 1 mark, 2 points, 3 dwell. -/
structure Seg where
  t0 : Nat
  dur : Nat
  /-- The piece ends this long after `t0`: `dur`, or earlier where a split cuts it (06 R204). -/
  stop : Nat
  x0 : Int
  y0 : Int
  f0 : Int
  x1 : Int
  y1 : Int
  f1 : Int
  /-- Path length in XY; `flen` is the length of a motion of F alone. -/
  len : Nat
  flen : Nat
  v0 : Nat
  vp : Nat
  v1 : Nat
  acc : Nat
  jerk : Nat
  /-- Path coordinate of the start point (05 R161). -/
  s0 : Int
  lit : Nat
  who : Who
  /-- F moves between these distances of a joined run-out and run-in (03 R105); over the whole piece when `fb` is 0. -/
  fa : Nat := 0
  fb : Nat := 0
  /-- A run-in or run-out that was stretched (03 R106). -/
  str : Bool := false
  /-- A lit piece that continues a CONT chain, and one behind which the laser stays on into the next LINE (R100, R166). -/
  cont : Bool := false
  goesOn : Bool := false
  /-- For fixed-clock firing (05 R176): the plan time of the chain's on coordinate, the codes from there to this piece, its cruising speed. -/
  onT : Nat := 0
  lag : Int := 0
  vm : Nat := 0
  deriving DecidableEq, Repr

/-- A planned edge that is not emitted yet (05 R161, R171, R172). A pulse stands for its on edge and the off edge `width` codes later. -/
structure PEdge where
  /-- 0 on edge, 1 off edge, 2 pulse, 3 dwell; under the mark clock (18 R500, R501) 4 merged on edge, 5 merged off edge, 6 pulses. -/
  kind : Nat
  /-- Path coordinate of the crossing, 1/256 nm; for a dwell its point. -/
  c : Int
  delay : Int
  /-- Plan time of the crossing (03 R538): the dwell's, and the edge's in fixed-clock firing. -/
  t : Nat
  width : Nat
  /-- For pulses: the pitch and the last position, 1/256 nm (R171); under the mark clock the plan time and the delay of the window's end. -/
  pitch : Int := 0
  last : Int := 0
  who : Who
  /-- The vector's planned cruising speed, the lowest of the limits of 03 R103; a pulse's first position, and an off edge's on edge: its plan time and the
  codes from there at cruising speed (R176). -/
  v : Nat := 0
  c0 : Int := 0
  onT : Nat := 0
  lag : Int := 0
  deriving DecidableEq, Repr

/-- The list and power placed for one frame (05 R157): level at its boundary, edges as (code, on), power code. -/
structure FList where
  frame : Nat := 0
  level : Bool := false
  edges : List (Nat × Bool) := []
  code : Nat := 0
  /-- The number of the on edge that opened the interval on at the boundary. -/
  num : Nat := 0
  /-- The marking that sets the power (R159 rules 2 and 3): its kind (0 none, 1 LINE, 2 POINTS, 3 DWELL, 4 merged SC-12 mark), its on
  edge's number; `who` is its vector. -/
  typ : Nat := 0
  curNum : Nat := 0
  /-- When the interval on at the boundary was opened, in codes since POR (R183). -/
  since : Int := 0
  /-- The energy it commands, in mW times 0.5 ns codes (05 R181, R189). -/
  energy : Nat := 0
  /-- GATE_EN (09 R290). -/
  gateEn : Bool := false
  clipped : Bool := false
  who : Who := {}
  /-- The vectors that are on in the frame, with the on-time of each in codes, and once the power is known the energy (05 R181). -/
  parts : List (Nat × Nat) := []
  deriving DecidableEq, Repr

/-- A span on its way to the recorder and to repair (03 R109, 15 R444): cause, whose record, plan coordinates in nm. -/
structure Span where
  cause : Nat
  who : Who
  s0 : Int
  s1 : Int
  x0 : Int
  y0 : Int
  x1 : Int
  y1 : Int
  aux : Nat := 0
  /-- Plan times of its ends, in 2^−16 frame. -/
  t0 : Nat := 0
  t1 : Nat := 0
  /-- Every cause that applied to a frame of a clipped span (04 R148). -/
  causes : List Nat := []
  /-- Nodes of the field correction store whose errors clipped frames of it (04 R122), by their addresses. -/
  nodes : List Nat := []
  deriving DecidableEq, Repr

/-- A cassette as the device knows it (05 R186 to R190): the record accepted last, its history, the energy not yet written in 0.5 pJ
(mW times 0.5 ns codes), and the write that waits for its confirmation. -/
structure Cas where
  serial : Nat := 0
  limit : Nat := 0
  used : Nat := 0
  seq : Nat := 0
  energy : Nat := 0
  /-- The 64 bytes sent and not confirmed, with the frame of sending. -/
  sent : List Nat := []
  sentFrame : Nat := 0
  /-- The last write was not confirmed in time, or before a loss of the lane (R189, 09 R310); an advance that had to wait. -/
  failed : Bool := false
  due : Bool := false
  exhausted : Bool := false
  deriving DecidableEq, Repr

/-- Where planning stands (03 R101): the next record, the motion context (R90), what CONT may continue (R92), the plan's end (time,
coordinates, path coordinate, speed), the start point of the next record, and the work whose start waits for its grant. -/
structure PState where
  next : Nat := 0
  motion : Nat := 0
  prevMark : Bool := false
  prevSkyOut : Bool := false
  /-- The record before was a marking record without XY movement: a CONT record after it starts anew (R91). -/
  broken : Bool := false
  done : Bool := false
  pt : Nat := 0
  px : Int := 0
  py : Int := 0
  pf : Int := 0
  ps : Int := 0
  pv : Nat := 0
  rx : Int := 0
  ry : Int := 0
  rf : Int := 0
  /-- Work whose jump is planned and whose start waits for its grant (05 R178): record, item, nominal interval, run-in wanted. -/
  start : Option (VRec × Who × Int × Int × Bool) := none
  /-- That start joins a run-out to a run-in without rest (R105): the marking that runs out, and the jump between. -/
  join : Option (Who × Who) := none
  /-- The own marking that the plan ends with at speed: its run-out, or the jump that joins it, is planned when the plan reaches its end (R105, R98). -/
  out : Option Who := none
  /-- The store entry that continues the item planned last with the laser on (06 R219). -/
  chain : Option Nat := none
  /-- Records taken into the plan frame `recFrame` (R94). -/
  recFrame : Nat := 0
  recCnt : Nat := 0
  /-- Lengths of the last vectors of the CONT chain in progress, at most 3, latest first (R94). -/
  lens : List Nat := []
  deriving DecidableEq, Repr

/-- What Ibex decided for a head (06 R202): a release, or a hold by a head for a conflict in a plan frame. -/
inductive HoldAct where
  | release
  | hold (by_ k : Nat)
  deriving DecidableEq, Repr

/-- A head's vector engine, firing and Ibex state (03 R92 to R106, 05 R161 to R185, 06 R204 to R220). -/
structure Head where
  /-- The stream of the open layer: DRAM address, records, next record to fetch, the records from index `base` on, a request under way,
  and whether the last burst was absent (01 R24). -/
  addr : Nat := 0
  count : Nat := 0
  active : Bool := false
  fetched : Nat := 0
  base : Nat := 0
  buf : List VRec := []
  req : Bool := false
  absent : Bool := false
  /-- The frame in which records arrived last (01 R23), and the records up to which MARKER events are recorded (R90). -/
  arrived : Nat := 0
  markDone : Nat := 0
  /-- DEF_CTX of the stream (03 R78). -/
  defCtx : Nat := 0
  /-- The head has a plan position (R539). -/
  placed : Bool := false
  p : PState := {}
  /-- Where planning stood at each laser-off vector boundary of the plan (06 R204), by its plan time. -/
  cps : List PState := []
  /-- Waiting for a record (01 R23) or at an invalid one (R92), already recorded. -/
  under : Bool := false
  bad : Bool := false
  segs : List Seg := []
  edges : List PEdge := []
  /-- Energy reserved for vectors in the plan, nJ, by vector (05 R179): debited to the head, the power group, debited to it; and the starts granted: group,
  slot, plan time, vector. -/
  reserved : List (Nat × Nat × Nat × Nat) := []
  grants : List (Nat × Nat × Nat × Nat) := []
  /-- The head's duty bucket in nJ, its class, energy emitted by vectors not yet settled in mW times 0.5 ns codes, by vector (05 R181). -/
  duty : Int := 0
  /-- The class of the vector executed last since START (05 R181). -/
  dutyClass : Option Nat := none
  spent : Tab Nat := []
  /-- The high-water mark and the suspension of a reversal: whose, hwm and lowest sm (05 R166 to R169). -/
  hwm : Int := 0
  susp : Option (Who × Int × Int) := none
  /-- Time of the edge emitted last and of the last pulse's on edge, in codes since POR (R163, R175); level after it. -/
  lastEdge : Int := -1
  lastPulse : Int := -1000000
  /-- A pulse's off edge that falls due later, in codes since POR (R171). -/
  owedOff : Option Int := none
  level : Bool := false
  onSince : Int := 0
  /-- The vector whose edge turned the laser on, and its kind (R159). -/
  onWho : Option (Who × Nat) := none
  /-- On edges emitted since POR. -/
  onNum : Nat := 0
  /-- The next clock edge of the mark in execution (18 R500), in codes since POR. -/
  clkNext : Option Int := none
  lists : List FList := []
  /-- Pulses dropped in the open under-dense span: whose, first and last position, number (R175). -/
  dense : Option (Who × Int × Int × Nat) := none
  /-- Clipping (03 R108): causes of this frame, the span in progress and the unclipped run. -/
  clipNow : List Nat := []
  badNode : Option Nat := none
  clip : Option Span := none
  clipRun : Nat := 0
  /-- Emission verification (05 R184): dark counted quarters in a row, the first one's coordinates, and the open span. -/
  dark : Nat := 0
  darkAt : Option Span := none
  dropOpen : Bool := false
  dropQ : Nat := 0
  /-- A dropout that fails the head (05 R185): plan time of the start of its span. -/
  dropFail : Option Nat := none
  lastLit : Nat := 0
  /-- A failure that is decided and waits for its boundary, and a keyed or state-word request (06 R210). -/
  failPend : Option Nat := none
  failFrame : Nat := 0
  /-- Plan time of the first point of the remaining work (06 R212). -/
  failT : Nat := 0
  /-- The boundary at which the head was declared failed last (06 R210, 17 R482). -/
  failB : Nat := 0
  rejoinReq : Bool := false
  /-- A vector of the open layer has entered plan entry F+2 (04 R127). -/
  entered : Bool := false
  /-- Ibex (06 R202 to R206): a hold or release decided in this frame, for the next boundary. -/
  holdNext : Option HoldAct := none
  holdLong : Bool := false
  /-- A hold in force whose plan is cut in the frame that runs: the frame of the decision and the plan frame of the conflict (R202, R204). -/
  cut : Option (Nat × Nat) := none
  /-- Released, and no start granted since (R206). -/
  released : Bool := false
  /-- Park request for the next boundary (04 R137), and restart key written (R144). -/
  parkReq : Bool := false
  restart : Bool := false
  cas : Cas := {}
  deriving DecidableEq, Repr

/-- An entry of the handoff store (06 R214). -/
structure Item where
  kind : Nat := 0
  dst : Option Nat := none
  contNext : Bool := false
  src : Nat := 0
  cause : Nat := 0
  attempt : Nat := 0
  idx : Nat := 0
  sStart : Nat := 0
  sEnd : Nat := 0
  tried : Nat := 0
  tag : Nat := 0
  /-- The record and its start point, which the engine keeps with the item to plan it (R215). -/
  vr : VRec := {}
  x0 : Int := 0
  y0 : Int := 0
  f0 : Int := 0
  /-- The context values kept by a vector whose rest this is (03 R98); empty for values taken when it is planned. -/
  cw : List Nat := []
  /-- Place in the order in which items were made: items of a head keep stream order (R216). -/
  order : Nat := 0
  /-- The head that logged it, or whose stream or hold it comes from, the other heads that failed it (R218, R220, R224), and whether a destination is
  executing it. -/
  loggedBy : Nat := 0
  lostBy : List Nat := []
  running : Bool := false
  /-- No eligible head was found (R222). -/
  orphan : Bool := false
  /-- Its CONT chain was cut: it has a run-in and a run-out of its own (R218, R219). -/
  cut : Bool := false
  deriving DecidableEq, Repr

/-- The remaining work of a failed head that the handoff engine reads (06 R216): head, cause, next record, coordinate it starts at,
end point of the record before. -/
structure Reader where
  head : Nat := 0
  cause : Nat := 0
  next : Nat := 0
  s : Int := 0
  first : Bool := true
  x : Int := 0
  y : Int := 0
  f : Int := 0
  motion : Nat := 0
  /-- The record before was a marking record without XY movement (03 R91). -/
  broken : Bool := false
  /-- Records whose ground from an offset in nm on the head's remainder items hold (R226). -/
  skip : List (Nat × Nat) := []
  /-- The boundary of the failure (R216). -/
  frame : Nat := 0
  deriving DecidableEq, Repr

/-- Ibex and the handoff engine (06). -/
structure Hand where
  items : Tab Item := []
  /-- Items made so far, which gives each its place in their order (R216). -/
  made : Nat := 0
  /-- Remainder items that wait for an entry, at most 7,168 of which hold handoff and remainder items (R217; log 93). -/
  waiting : List Item := []
  readers : List Reader := []
  /-- Spans that wait for an entry or for the frame's repair step (R223, R217). -/
  spans : List (Nat × Span) := []
  /-- Pairs in an unbroken run of a separation breach (R201). -/
  breach : List (Nat × Nat) := []
  /-- A tile edit that waits: index and entry, and whether it was late (R209, 01 R536). -/
  edit : Option (Nat × Nat × Bool) := none
  /-- The last plan frame in which any head was lit (R225). -/
  lastLit : Nat := 0
  storeFull : Bool := false
  /-- The exposure set of the open layer (03 R82). -/
  expo : List Nat := []
  /-- Starts granted: group, slot, count (05 R179). -/
  slots : List (Nat × Nat × Nat) := []
  /-- Group duty buckets in nJ (05 R181). -/
  groups : List Int := [0, 0, 0, 0, 0, 0, 0, 0]
  /-- The cassette key's bytes by word, and which words were written (05 R187). -/
  casKey : List Nat := [0, 0, 0, 0, 0, 0, 0, 0]
  casLoaded : Nat := 0
  /-- By serial number: USED and SEQ of the cassette record accepted last since power-up, whichever head held it (05 R188). -/
  casHist : List (Nat × Nat × Nat) := []
  deriving DecidableEq, Repr

/-- A power-loop slot's hidden state (07 R236 to R250). States Q18.30, corrections in mW. -/
structure PSlot where
  s1 : Int := 0
  s2 : Int := 0
  /-- The correction dp and the clamped correction dpc of the last frame (R240, R242). -/
  dp : Int := 0
  dpc : Int := 0
  /-- The power of the last frame computed and the demand (R242). -/
  pc : Int := 0
  demand : Int := 0
  /-- The current interval: whether one is current, whether the loop runs on it (PL_EN = 1), the number of its on edge, the record that
  opened it, its present context, fully-on measurement frames so far and frames of power computed. -/
  cur : Bool := false
  loop : Bool := false
  num : Nat := 0
  idx : Nat := 0
  ctx : Nat := 0
  /-- The context values of the last frame computed, and the first power frame of the loop's part of the interval (R242, R246). -/
  cw : List Nat := []
  first : Nat := 0
  fully : Nat := 0
  powered : Nat := 0
  /-- Mode and coefficient set of the last frame; the states are initialised again in the next ACTIVE frame (R245, R246, R251). -/
  mode : Nat := 0
  set : Nat := 0
  reinit : Bool := true
  /-- The ended interval: its last dpc and context, and the frame for which power was computed last (R245, R247). -/
  carryDp : Int := 0
  carryCtx : Nat := 0
  carryFrame : Nat := 0
  dp0 : Int := 0
  /-- Consecutive pinned frames, whose first one lies here, and whether the run was recorded (R244). -/
  pinAt : Option (Who × Int) := none
  pinLogged : Bool := false
  pinHi : Bool := false
  /-- PL_OPEN was recorded in this layer (R238). -/
  openLogged : Bool := false
  /-- Feed-forward: a new term for the next boundary, one for the boundary after it (01 R536), the present term, its age, whether FF_STALE was recorded (R248, R249). -/
  ffNew : Option Int := none
  ffLate : Option Int := none
  ff : Int := 0
  age : Nat := 0
  stale : Bool := false
  deriving DecidableEq, Repr

/-- A line of a camera frame (08 R261, R262): its index, whether it is valid, and its pixels on the 16-bit scale. -/
structure CLine where
  idx : Nat
  valid : Bool
  px : List Nat
  deriving DecidableEq, Repr

/-- A camera frame on its way to its record (08 R257 to R275): port, FRAME_NUM, time stamp, the port and pipeline values with which it began,
what was received, and whether it passes the stages. -/
structure CFrame where
  port : Nat := 0
  num : Nat := 0
  sec : Nat := 0
  ns : Nat := 0
  /-- The physical pipeline, or 7 for none, and the source: 0 in-line, 1 via-memory. -/
  pipe : Nat := 7
  src : Nat := 0
  width : Nat := 0
  height : Nat := 0
  pixBits : Nat := 8
  /-- BLACK, THRESH, ROI_X0, ROI_Y0, ROI_W, ROI_H, SPAT_AMIN, SPAT_AMAX in force when it began, and the defect list. -/
  par : List Nat := []
  dpc : List Nat := []
  /-- FRAME_TMO in force when it began (R260). -/
  tmo : Nat := 0
  /-- Lines that arrived in it, kept or not: what its size is measured by (R261). -/
  seen : Nat := 0
  rx : Nat := 0
  nvalid : Nat := 0
  flags : Nat := 0
  lines : List CLine := []
  /-- It was dropped whole and passes no stage (R268). -/
  dropped : Bool := false
  /-- It is closed. -/
  closed : Bool := false
  /-- Its ring slot, and in the FIFO its lines that wait for one. -/
  slot : Option Nat := none
  deriving DecidableEq, Repr

/-- A camera port (08 R256 to R269): FV as last seen, the open frame, and the cycle of the last activity on LV (R259). -/
structure CpSt where
  fv : Bool := false
  frame : Option CFrame := none
  lvAt : Nat := 0
  /-- An earlier via-memory frame whose lines still lie in the 8-line FIFO (R268). -/
  held : Option CFrame := none
  deriving DecidableEq, Repr

/-- An image pipeline (08 R263 to R278): frames that have entered it and whose records are not complete, oldest first; complete or open
via-memory frames in the ring in the order in which they began, the line validity with them; defect lists in force by source; whether
each source may start (R278). -/
structure IpSt where
  wait : List CFrame := []
  ring : List CFrame := []
  dpc0 : List Nat := []
  dpc1 : List Nat := []
  ready0 : Bool := true
  ready1 : Bool := true
  /-- Complete records that wait for their write to the record ring, at most 16 (R275). -/
  recQ : List (List Nat) := []
  deriving DecidableEq, Repr

/-- A message of the management slots on its way to a head (09 R297, R298): TYPE, INDEX, payload. -/
structure Msg where
  typ : Nat := 0
  index : Nat := 0
  payload : List Nat := []
  deriving DecidableEq, Repr

/-- A message sent and not acknowledged: its SEQ, sends so far, frame of the last one. -/
structure Sent where
  seq : Nat := 0
  msg : Msg := {}
  sends : Nat := 0
  frame : Nat := 0
  deriving DecidableEq, Repr

/-- What a lane sends in a frame (09 R305): electrical idle, a training frame (R306) or a normal one (R288). -/
inductive DsKind where
  | idle | training | normal
  deriving DecidableEq, Repr

/-- A lane's hidden state (09 R288 to R309). -/
structure Lane where
  /-- The running disparity of the receiver and of the sender, positive (R282). -/
  rdRx : Bool := false
  rdTx : Bool := false
  /-- The critical block of the upstream frame of this frame: received and valid; its fields (R292). -/
  got : Bool := false
  /-- This frame's upstream frame was counted missing (R295). -/
  missed : Bool := false
  posOk : List Bool := [false, false, false]
  curOk : List Bool := [false, false, false]
  pos : List Int := [0, 0, 0]
  cur : List Int := [0, 0, 0]
  gate : Nat := 0
  pdOk : Bool := false
  pdA : List Nat := []
  pdB : List Nat := []
  /-- This frame's upstream training frame was valid (R306). -/
  trained : Bool := false
  /-- Training: consecutive valid frames, the sum of their RTD in ns, the frame in which the state was entered, timeout reported (R306). -/
  trainRun : Nat := 0
  rtdSum : Nat := 0
  since : Nat := 0
  timeoutSeen : Bool := false
  /-- Consecutive missing frames, and the first of them (R307, 06 R212). -/
  missing : Nat := 0
  missFrame : Nat := 0
  /-- Sender: the next SEQ, outstanding messages oldest first, messages that wait; sends again that wait (R298). -/
  txSeq : Nat := 0
  out : List Sent := []
  waiting : List Msg := []
  again : List Sent := []
  /-- Receiver: SEQ of the last message accepted, 15 for none (R298). -/
  rxAck : Nat := 15
  /-- The capability fragments received (R303). -/
  cap0 : List Nat := []
  cap1 : List Nat := []
  /-- The SERIAL accepted last (R309), and a change the host has not accepted. -/
  serial : Option Nat := none
  changed : Bool := false
  /-- The downstream frame that leaves in this frame (R288, R305): its kind, FRAME_NUM, DS_FLAGS, commands, power code, edges, management slot as SEQ,
  ACK and message. -/
  dsKind : DsKind := .idle
  dsNum : Nat := 0
  dsFlags : Nat := 0
  dsCmd : List Int := [0, 0, 0]
  dsPwr : Nat := 0
  dsEdges : List (Nat × Bool) := []
  dsSeq : Nat := 0
  dsAck : Nat := 15
  dsMsg : Msg := {}
  deriving DecidableEq, Repr

/-- The motion of an axis (10 R322): position, velocity and acceleration in 2^−64 nm per tick. -/
structure Mot where
  p : Int := 0
  v : Int := 0
  a : Int := 0
  deriving DecidableEq, Repr

/-- What an axis's generator follows (10 R321, R323, R332, R335): nothing, a move to a target, a seek at a constant speed, a ramp to rest.
Targets are 2^−64 nm; limits are in µm/s, µm/s² and mm/s³. -/
inductive Plan where
  | rest
  | move (target : Int) (vmax amax jmax : Nat)
  | seek (v : Int) (amax jmax : Nat)
  | stop (amax jmax : Nat)
  deriving DecidableEq, Repr

/-- A limit or home input of an axis (10 R326, R327, R332): its last sample, the frame in which it took that level, and the debounced
level; a limit acts at once and is released after DEBOUNCE. -/
structure DIn where
  raw : Bool := false
  since : Nat := 0
  deb : Bool := false
  deriving DecidableEq, Repr

/-- An auxiliary axis (10 R319 to R337). -/
structure Axis where
  mot : Mot := {}
  /-- The position at the start of the tick computed last, nm in 2^−64. -/
  pStart : Int := 0
  plan : Plan := .rest
  /-- A command accepted in this tick, planned from the next one (R313), and for a move from rest the tick that only raises the current. -/
  next : Option Plan := none
  nextRel : Bool := false
  hold : Bool := false
  /-- The ticks in which the sequencer and the host started a move last, plus 1 (R325). -/
  seqTick : Nat := 0
  hostTick : Nat := 0
  /-- AX_STAT and the command that waited before the host's command of this tick (R325). -/
  undo : Option (Word × Option Plan × Bool × Bool) := none
  /-- The cause with which the axis enters ERROR when its ramp stop ends; 0 for IDLE. -/
  after : Nat := 0
  /-- Ticks at rest, standby, ticks of its ramp (R320). -/
  restTicks : Nat := 0
  standby : Bool := false
  ramp : Nat := 0
  /-- EN and the set-points computed last, mA. -/
  en : Bool := false
  ia : Int := 0
  ib : Int := 0
  /-- Commanded angles and velocities at the end of the last three ticks, the latest first (R329). -/
  ths : List Nat := [0, 0, 0]
  vels : List Int := [0, 0, 0]
  /-- The driver status received in this tick reports a fault, for the next one (R318); a bridge fault that the host has not cleared (R331). -/
  bad : Bool := false
  bridge : Bool := false
  /-- The measurement received in the last tick and the currents of the one before it; consecutive stalled ticks (R329, R330). -/
  meas : Option (Int × Int × Int × Int) := none
  use : Option (Int × Int × Int × Int) := none
  iPrev : Int × Int := (0, 0)
  stallRun : Nat := 0
  limN : DIn := {}
  limP : DIn := {}
  home : DIn := {}
  /-- Homing: the first frame whose sample counts, where its step began, frames of the raw transitions, position at the first sample of the present active level, whether
  the back-off ramps to rest, and the frame in which the slow seek began (R333). -/
  homeFrom : Nat := 0
  base : Int := 0
  trans : List Nat := []
  edgePos : Int := 0
  backDone : Bool := false
  seekAt : Nat := 0
  deriving DecidableEq, Repr

/-- A bridge port (10 R316 to R318): the downstream frame that leaves in this tick as (EN, IA, IB) of both slots; valid frames in a row,
missing frames in a row; whether this tick's upstream frame came (1) or was counted missing (2); the tick of a loss. -/
structure BpSt where
  /-- The downstream frame of this tick (R316): TICK_NUM, and by slot EN and the set-points; none in DISABLED. -/
  dsNum : Nat := 0
  ds : List (Bool × Int × Int) := []
  /-- The running disparity of the receiver and of the sender, positive (R315, 09 R282). -/
  rdRx : Bool := false
  rdTx : Bool := false
  good : Nat := 0
  missing : Nat := 0
  got : Nat := 0
  lostTick : Nat := 0
  deriving DecidableEq, Repr

/-- The auxiliary engine (10 R313, R326, R328): the tick computed last plus 1, the DI samples of the present tick as (frame, levels, time base at the frame's
boundary in seconds and nanoseconds), and the frame of the last sample. -/
structure AuxSt where
  tick : Nat := 0
  samples : List (Nat × Nat × Nat × Nat) := []
  diFrame : Nat := 0
  deriving DecidableEq, Repr

/-- A DRAM burst that is not as it was written (12 R359, R364): its symbols in error, and whether its check symbols carry the poison
pattern. -/
structure Burst where
  poison : Bool := false
  syms : List Nat := []
  deriving DecidableEq, Repr

/-- A fragment that waits in the memory controller (12 R365, R366): burst number (offset / 64), class, cycle of arrival, whether a trace
write, and for a write the first byte in the burst with the bytes. -/
structure Frag where
  burst : Nat
  cls : Nat
  t : Nat
  trace : Bool
  wr : Option (Nat × List Byte)
  deriving DecidableEq, Repr

/-- The memory controller's hidden state (12 R359 to R379). Subchannels are 0 and 1; a bank's key is 32 times the subchannel plus 4 times
the bank group plus the bank. -/
structure DdrSt where
  /-- Bursts that are not as written, by offset / 64. -/
  bursts : Tab Burst := []
  frags : List Frag := []
  run0 : Option Frag := none
  run1 : Option Frag := none
  /-- Open rows, plus 1, by bank; rolling activation counts by bank (R372, R373). -/
  rows : Tab Nat := []
  raa : Tab Nat := []
  /-- What the devices' mode registers say (R373, R378): RAAIMT, and repair resources left by device (0 to 19) times 8 plus bank group. -/
  raaimt : Nat := 0
  /-- The devices' RAAMMT, which no rolling count passes (R373): the training command does not carry it, so it is a free value (log 105). -/
  raammt : Nat := 0
  res : Tab Nat := []
  /-- Whether the devices advertise directed refresh management (R372). -/
  drfm : Bool := false
  /-- Subchannels whose forced refresh waits for the fragment in progress, and those in power-down (R371, R374). -/
  forced : List Nat := []
  powerDown : List Nat := []
  /-- By subchannel: the cycle in which its last fragment arrived (R374). -/
  lastFrag : Tab Nat := []
  /-- The scrub's next burst, and corrected reads in the present pass by row key times 20 plus device (R375, R376). -/
  scrub : Nat := 0
  rowCe : Tab Nat := []
  /-- Consecutive corrected bursts with symbols in error on a device, by device 0 to 19 (R361). -/
  runs : Tab Nat := []
  /-- Committed rows that wait for their repair, as PPR_LOG indices, and for each entry the cycle in which it was recorded (R377). -/
  committed : List Nat := []
  logAt : Tab Nat := []
  /-- What the last fragment read delivered: 0 clean, 1 corrected, 2 poisoned, 3 uncorrectable, its bytes, and the check symbols that stand with them in
  DRAM when the read ends (R359, R360, R364). -/
  rdRes : Nat := 0
  rdata : List Nat := []
  rcheck : List Nat := []
  /-- The same 80 symbols as the 16 beats of the subchannel's 40 lanes (R359). -/
  rbeats : List Nat := []
  /-- The offset of the latest read for a management processor that ended in a bus error (R363). -/
  busErr : Option Nat := none
  deriving DecidableEq, Repr

/-- A DMA channel (13 R384 to R395): what it is doing (0 nothing, 1 reading a descriptor, 2 executing it, 3 reading a LINK word, 4 writing its status back),
whether the engine has served the fragment of a phase 1 or 3, the bytes that the controller then read and whether they were bad, the descriptor in
execution, triggers that have arisen and not reached it, and the cycle in which its timer expires next. -/
structure DmaSt where
  phase : Nat := 0
  served : Bool := false
  read : List Nat := []
  bad : Bool := false
  desc : List Nat := []
  due : Nat := 0
  timer : Option Nat := none
  /-- Of the operation in execution: fragments served, bytes done, the code of a bad read, the first mismatch. -/
  pos : Nat := 0
  done : Nat := 0
  err : Nat := 0
  miss : Option Nat := none
  /-- STATUS of the descriptor in hand, without ERROR and its code (R381), and the STATUS that a write-back in phase 4 writes. -/
  status : Nat := 0
  back : Nat := 0
  deriving DecidableEq, Repr

/-- A fragment of the DMA engine that is outstanding at the controller (13 R393): its channel, what it writes (nothing for a COMPARE), whether it is written
poisoned (13 R390), and the bytes it counts as done. -/
structure DmaFrag where
  chan : Nat := 0
  dst : Nat := 0
  data : List Byte := []
  len : Nat := 0
  poison : Bool := false
  good : Nat := 0
  deriving DecidableEq, Repr

/-- The DMA engine (13 R393): its outstanding fragments, oldest first, and the channel served last at each priority level. -/
structure DmaEng where
  out : List DmaFrag := []
  last0 : Nat := 31
  last1 : Nat := 31
  deriving DecidableEq, Repr

/-- A finding of a self-test (14 R401 to R403) that waits for its boundary: unit, class (1 unit, 2 resource), cause of R428 (1 frame guard, 2
known-answer test, 3 SRAM, 5 resource), and the first boundary it counts toward. `res` is the slot of a resource finding, as remap kind and index. -/
structure Finding where
  unit : Nat := 0
  cls : Nat := 1
  cause : Nat := 0
  res : Option (Nat × Nat) := none
  due : Nat := 0
  deriving DecidableEq, Repr

/-- A unit's recovery (14 R413, R414): in FAILED 0 waits for remaps, 1 runs its pass, 2 waits one second; in SYNCING 0 copies, 1 is compared;
the frame in which that began, clean frames counted, and spares that failed a test of the unit while it was in FAILED, as kind and index (R418). -/
structure UnitRec where
  phase : Nat := 0
  since : Nat := 0
  clean : Nat := 0
  spares : List (Nat × Nat) := []
  deriving DecidableEq, Repr

/-- What a remap entry holds beside its register (14 R413, R418, R420): units of which a finding queued it, whether REMAP_REQ queued it, when it
became ready, whether REMAP_GO has released it, and the nodes of the field correction store whose words its row holds (R419). -/
structure RemapSt where
  owners : List Nat := []
  host : Bool := false
  at_ : Nat := 0
  go : Bool := false
  nodes : List Nat := []
  deriving DecidableEq, Repr

/-- Unit supervision (14). Bleat keys are 2 times the receiving unit plus the path, 0 on-die and 1 management. -/
structure Units where
  finds : List Finding := []
  /-- A directed pass runs: 1 asked for by the host, 2 after a divergence (R400, R428). -/
  directed : Nat := 0
  /-- The frame in which the directed pass in progress began, and the units in which it does not run because they failed in that frame (R400). -/
  directedAt : Nat := 0
  spared : List Nat := []
  recA : UnitRec := {}
  recB : UnitRec := {}
  /-- Consecutive bleats missed and received, and the keys judged in this frame (R406). -/
  miss : Tab Nat := []
  run : Tab Nat := []
  judged : List Nat := []
  /-- A takeover claim (R408), and the active unit's view that the standby is lost. -/
  claim : Bool := false
  lostStandby : Bool := false
  /-- The bleats that Unit A and Unit B sent last (R405). -/
  bleatA : Nat := 0
  bleatB : Nat := 0
  /-- A failover has been decided for the present boundary, with its cause (R410). -/
  failDue : Option Nat := none
  /-- Frames of the dwell so far, and the cycle in which it ended (R415, R416). -/
  dwell : Nat := 0
  dwellEnd : Option Nat := none
  /-- Rows with one corrected error in the present pass, as owner, array and row (R404). -/
  ce : List (Nat × Nat × Nat) := []
  entries : Tab RemapSt := []
  /-- Spares in use, chosen, or bad, as kind and index; for SRAM rows the index is 4 times the array plus the spare row (R418). -/
  taken : List (Nat × Nat) := []
  bad : List (Nat × Nat) := []
  /-- What the arrays' row decoders select (R419): array, failed row and the spare row that stands for it. -/
  rows : List (Nat × Nat × Nat) := []
  /-- The boundary toward which a failed test of a spare in Unit A counts: it is no finding and breaks the dwell (R415). -/
  spareFail : Option Nat := none
  /-- Slots whose real-time word is DOWN (R423), as kind and index. -/
  down : List (Nat × Nat) := []
  /-- Objects whose copies differ, as kind (0 head, 1 loop slot, 2 power-loop slot, 3 pipeline, 4 unit) and index (R425). -/
  differ : List (Nat × Nat) := []
  /-- HEAD_MGMT_DOWN and HEAD_MGMT_LIMIT as they stood before a late write of this frame (R422). -/
  before : Option (Nat × Nat) := none
  /-- The health report written last, its frame, and whether a report is due whatever the time (R426). -/
  health : List Nat := []
  healthAt : Nat := 0
  healthDue : Bool := false
  deriving DecidableEq, Repr

/-- The calibration store's hidden state (16 R461 to R470). -/
structure CalSt where
  /-- SERIAL of the record in force of a type, plus 1, by head times 8 plus type; 0 for none. -/
  serial : Tab Nat := []
  /-- The accepted serial of a head, plus 1 (R466). -/
  accepted : Tab Nat := []
  /-- The runs accepted so far (R467): the record's bytes. -/
  run1 : List Nat := []
  run2 : List Nat := []
  /-- TIME when the record was accepted, at the second accepted run (R462, R468). -/
  accTime : Nat := 0
  /-- A program operation that a CRIT found under way and that is completed without a load (R460): head, type and the two runs. -/
  cut : Option (Nat × Nat × List Nat × List Nat) := none
  /-- A record was programmed and read back and waits to be loaded at a layer boundary (R468). -/
  loadWaits : Bool := false
  /-- A RELOAD in progress: its head (R464). -/
  reload : Option Nat := none
  /-- A direct NOR operation in progress: OP, address, count, and the bytes to program (R470). -/
  norOp : Option (Nat × Nat × Nat × List Nat) := none
  deriving DecidableEq, Repr

/-- Housekeeping's hidden state (16 R452 to R459). -/
structure HkSt where
  /-- By channel: consecutive rounds outside and inside the window (R453). -/
  outRun : Tab Nat := []
  inRun : Tab Nat := []
  /-- The raw code of channel 0 in the previous round, and whether one was read. -/
  raw : Option Nat := none
  /-- Readings of channel 0 of the last 4 rounds, latest first; none for a broken one (R454). -/
  hist : List (Option Int) := []
  /-- Good rounds in a row at or above, and below, the thresholds of WARN, THROTTLE, CRIT, RISE; which are active (R455). -/
  up : List Nat := [0, 0, 0, 0]
  down : List Nat := [0, 0, 0, 0]
  active : List Bool := [false, false, false, false]
  /-- Broken rounds in a row (R457). -/
  broken : Nat := 0
  /-- The reading of the present round is decided and was good; LEVEL for it may change (R455). -/
  levelDue : Bool := false
  good : Bool := false
  /-- Rounds since LEVEL last crossed THROTTLE, and whether THR_LEVEL has changed in this round (R459). -/
  sinceStep : Nat := 0
  stepped : Bool := false
  /-- The thresholds in force for this round: WARN, THROTTLE, CRIT (R456). -/
  thr : List Int := []
  /-- The present slot of the round, and value and raw code of channel 0 in this round (R457). -/
  slot : Nat := 0
  die : Int × Nat := (0, 0)
  deriving DecidableEq, Repr

/-- The LED matrix as the isolated die holds it (11). LEDs are numbered 32 r + c; matrix frames are counted from the die's reset. -/
structure LedSt where
  en : Bool := false
  /-- The frame memory by buffer times 512 plus LED. -/
  mem : Tab Word := []
  front : Nat := 0
  armed : Bool := false
  /-- A sync edge of NEXT mode has met ARMED, and whether an edge of NEXT mode came in this matrix frame (R346). -/
  synced : Bool := false
  edged : Bool := false
  mf : Nat := 0
  running : Bool := false
  row : Nat := 0
  begun : Bool := false
  /-- The page's registers in force, taken over at the start of a matrix frame (R347, R353); LED_CTRL and LED_CUR of them. -/
  held : Tab Word := []
  ctl : Word := 0x200003
  cur : Word := 0
  /-- Displayed intensity, accumulator and whether the accumulator fires in this frame, by LED (R343). -/
  disp : Tab Nat := []
  acc : Tab Nat := []
  fire : List Nat := []
  /-- SCALE is 0 in this matrix frame: every sink is off (R351). -/
  dark : Bool := false
  /-- By LED: the last frame plus 1 with a pulse of 52 counts, the block of 256 frames plus 1 with its last special pulse, the frame from
  which DIAG_UNAVAIL is counted (R349). -/
  wide : Tab Nat := []
  blk : Tab Nat := []
  due : Tab Nat := []
  /-- Lamp results: the field, the last result, how many agree, the frame plus 1 of the last one (R348). -/
  diag : Tab Nat := []
  /-- LEDs that SHORT_ACT keeps dark until DIAG_CLEAR (R350). -/
  short : List Nat := []
  lastRes : Tab Nat := []
  agree : Tab Nat := []
  resAt : Tab Nat := []
  /-- Checks of the row slot in progress, as (LED, result, count at which its pulse ends). -/
  checks : List (Nat × Nat × Nat) := []
  unavail : List Nat := []
  tLamp : Int := 0
  scale : Nat := 256
  /-- The reading that set the present SCALE (R351); whether it was a reading in range; the frame of the last measurement. -/
  setT : Int := 0
  therm : Bool := false
  hot : Bool := false
  measAt : Option Nat := none
  swaps : Nat := 0
  syncs : Nat := 0
  deriving DecidableEq, Repr

/-- The isolated die's state (17): commands in force, permit channels, latched faults, inputs, protection, the matrix, and the ISO and LED
registers it was sent. Bit n is output, input or channel n. -/
structure IsoSt where
  regs : Tab Word := []
  leCmd : Nat := 0
  doCmd : Nat := 0
  crit : Bool := false
  /-- Filtered permit channels, the vote, faulted channels, which of them meet the first condition of R480, and which have seen all three
  read false together for DISC_MS since the fault. -/
  level : Nat := 0
  vote : Bool := false
  faulted : Nat := 0
  clearable : Nat := 0
  falseSeen : Nat := 0
  /-- The cycle in which a filtered channel changed last. -/
  since : Nat := 0
  ovl : Nat := 0
  stuck : Nat := 0
  doFault : Nat := 0
  /-- The cycle and bits of the overloads met last, of LE and of DO outputs (00 R14). -/
  ovlAt : Nat × Nat := (0, 0)
  doAt : Nat × Nat := (0, 0)
  di : Nat := 0
  uv : Bool := false
  hot : Bool := false
  /-- The die has switched off for want of command frames (R477). -/
  lost : Bool := false
  led : LedSt := {}
  deriving DecidableEq, Repr

/-- The isolated die and its side of the barrier link: its state, the report of the present frame (its state at the boundary) with the
events that it carries as (page, bit, payload), events not reported yet, and missing command frames in a row. -/
structure Iso where
  st : IsoSt := {}
  rep : IsoSt := {}
  repEvts : List (Nat × Nat × List Nat) := []
  evts : List (Nat × Nat × List Nat) := []
  missed : Nat := 0
  deriving DecidableEq, Repr

/-- The logic die's side of the barrier link (17 R475, R476, R482, R486): ISO and LED writes that wait for the next command frame, the
OUT_SET of a frame as (frame, mask, values), the frame plus 1 of the last report, whether one ever came, missing reports in a row, the
CRIT latch, and the logic die's copy of the LED frame memory. -/
structure IsoLink where
  queue : List (Nat × Nat) := []
  outSet : Nat × Nat × Nat := (0, 0, 0)
  rxFrame : Nat := 0
  everRx : Bool := false
  missRun : Nat := 0
  /-- The vote in the latest report (R481). -/
  vote : Bool := false
  cmdRun : Nat := 0
  crit : Bool := false
  ledWin : Tab Word := []
  /-- An ARM that no report has shown yet: 1 waits for its command frame, 2 is at the die (11 R345). -/
  ledArm : Nat := 0
  /-- PERMIT_LOST has been raised for the vote that is false (R481). -/
  permitTold : Bool := false
  /-- LE_MASK as the host wrote it last, which the LE commands are formed with (R482); the page shows the die's (01 R34). -/
  leMask : Nat := 0
  deriving DecidableEq, Repr

/-- An SC-12 channel (18 R496 to R499): words of a segment not complete yet, its list (latest first), the list and parameters of its last GO,
the segment of each record of its hidden stream, and whether code 7 was reported for it. -/
structure ScCh where
  part : List Nat := []
  segs : List (List Nat) := []
  src : List (List Nat) := []
  par : List Nat := []
  recSeg : List Nat := []
  fault : Bool := false
  deriving DecidableEq, Repr

/-- SC-12 mode (18): the personality's bytes and whether it was accepted, channels, a translation in progress as a channel mask, hidden contexts
of the layer that waits with clock period and pulse width, the frame of the error reported last, what the device does for ENABLE (1 arming,
2 starting, 3 stopping, 4 disarming), and frames for which an item has been an orphan. -/
structure ScSt where
  pers : List Nat := []
  ok : Bool := false
  chans : Tab ScCh := []
  trans : Option Nat := none
  ctxs : List (List Nat × Nat × Nat) := []
  errFrame : Nat := 0
  phase : Nat := 0
  orphans : List (Nat × Nat) := []
  deriving DecidableEq, Repr

/-- One-time-programmable contents (02 R62, R68, R74): grade, key slots 0 to 3 as (state, SHA-256 digest of the enrolled key), and the
lowest security version accepted. No reset source changes it. -/
structure Otp where
  grade : Nat
  slots : List (Nat × List Nat)
  secVerMin : Nat
  deriving DecidableEq, Repr

/-- The logic die and what it holds beside DRAM, NOR and OTP. -/
structure Dev where
  /-- The registers of BAR0. -/
  regs : Regs := {}
  ctl : Ctl := {}
  pcie : Pcie := {}
  time : TimeSt := {}
  evr : EvrSt := {}
  seq : SeqSt := {}
  /-- The context table: what the window reads, what has crossed, what is in force, by window offset (03 R95, R97). -/
  ctxWin : Tab Word := []
  ctxCrossed : Tab Word := []
  ctxLive : Tab Word := []
  /-- The sequencer table by window offset (03 R75). -/
  seqTab : Tab Word := []
  slots : Tab Slot := []
  heads : Tab Head := []
  lanes : Tab Lane := []
  hand : Hand := {}
  pslots : Tab PSlot := []
  /-- The tile map by entry (06 R208). -/
  tiles : Tab DWord := []
  /-- The field-correction grids by window entry, head times 8,192 plus node (04 R119). -/
  grid : Tab DWord := []
  /-- Grid nodes whose SECDED word has one (1) or more (2) bad bits, by the same key (04 R122). -/
  gridErr : Tab Nat := []
  /-- The address of the grid node whose error was met last, by head (04 R122). -/
  fcLog : Tab Nat := []
  /-- Trace bursts that wait for the memory controller: slot, DRAM address, words (04 R149, R152). -/
  traceQ : List (Nat × Nat × List Nat) := []
  ddr : DdrSt := {}
  /-- Clock period and pulse width, both in codes, of the SC-12 hidden contexts of the open layer, by context (18 R497, R500). -/
  scClk : Tab (Nat × Nat) := []
  cal : CalSt := {}
  hk : HkSt := {}
  cps : Tab CpSt := []
  ips : Tab IpSt := []
  axes : Tab Axis := []
  bps : Tab BpSt := []
  aux : AuxSt := {}
  link : IsoLink := {}
  dmas : Tab DmaSt := []
  eng : DmaEng := {}
  units : Units := {}
  sc : ScSt := {}
  /-- The MDIO command in progress (15 R451). -/
  mdio : Word := 0
  /-- The frame that each Ethernet port sent last, as it left on the lane: padded, with its FCS (15 R438, R439). -/
  ethTx : Tab (List Nat) := []
  /-- The model's own counter of free values drawn so far (log 12). -/
  freeCtr : Nat := 0
  deriving DecidableEq, Repr

/-- The machine stops with a fault: no command of this model raises one. Safe: a stop proves nothing about the hardware. -/
inductive Fault where
  /-- Raised by no command; the type is closed so that claims can say that no fault occurs. Safe. -/
  | none_
  deriving DecidableEq, Repr

/-- A command without a meaning. -/
inductive Refusal where
  /-- Raised by `exec` for a command the model does not cover yet, by its mnemonic. Safe. -/
  | notModelled (mnemonic : String)
  deriving DecidableEq, Repr

/-- The whole block: the queue of waiting commands, and the state the spec gives the machine. -/
structure State where
  /-- Commands that wait, first in, first out. -/
  pending : List Instr
  /-- OTP: kept by every reset. -/
  otp : Otp
  /-- NOR flash, 8 MiB; an unlisted byte is erased, 0xFF (16 R461; log 8). -/
  nor : Tab Byte
  /-- DRAM by byte address; an unlisted byte is 0, as the zero-writing after POR leaves it (12 R355; log 7). -/
  mem : List Host.Cell
  /-- The isolated die, with its own supply and reset (17). -/
  iso : Iso
  dev : Dev
  deriving DecidableEq, Repr

/-- A part from the factory (02 R68): slot 0 enrolled, slots 1 to 3 empty. Grade KM4816-C and security version 0 are the
model's choice (log 6). DESIGN CHOICE. -/
def Otp.factory : Otp := ⟨0x43, [(1, []), (0, []), (0, []), (0, [])], 0⟩

/-- The machine right after power-on reset (02 R62, R69): state POR, every register at its reset value. -/
def State.reset : State :=
  { pending := [], otp := Otp.factory, nor := [], mem := [], iso := {}, dev := {} }

end Sys2Proof.Machine
end

