-- ==== Sys2Proof/Machine/Ops.lean ====
section
/-!
DEFINITION. The named operations over State: registers and fields, errors, events and vectors, free values, DRAM.
-/
namespace Sys2Proof.Machine

/-! ### Pages and reset values -/

/-- The page that holds a BAR0 address (19 R505): its row and its instance. -/
def pageOf (addr : Nat) : Option (PgInfo × Nat) :=
  (pageIndex.find? (fun p => decide (p.base ≤ addr ∧ addr < p.base + 0x1000 * p.count))).map
    (fun p => (p, (addr - p.base) / 0x1000))

/-- The base of the page that holds an address. -/
def pageBase (addr : Nat) : Nat := addr / 0x1000 * 0x1000

/-- The bases of all register pages (19 R505). -/
def pageBases : List Nat := pageIndex.flatMap (fun p => (List.range p.count).map (fun i => p.base + 0x1000 * i))

/-- Whether a row of a field table covers the word at page offset `off`. -/
def RegRow.covers (r : RegRow) (off : Nat) : Bool :=
  decide (r.off ≤ off) &&
    (let d := off - r.off
     let b := if r.n1 ≤ 1 then 0 else d / r.s1
     let e := d - b * (if r.n1 ≤ 1 then 0 else r.s1)
     if r.n2 ≤ 1 then decide (b < r.n1 ∧ e = 0) else decide (b < r.n1 ∧ e % r.s2 = 0 ∧ e / r.s2 < r.n2))

/-- The rows of the word at offset `off` of a page: the header's below 0x040, the block's from there. -/
def rowsAt (pg : Pg) (off : Nat) : List RegRow :=
  (if decide (off < 0x40) && pg != .sc then RegTable.hdrRows else pg.rows).filter (fun r => r.covers off)

/-- Reset values that depend on the instance or the grade: servo and power-loop maps (04 R155, R156; 07 R254, R255), IP_MAP
(08 R280), the temperature thresholds of KM4816-C (16 R471), the channel parameters (18 R497). -/
def instReset (pg : Pg) (n off : Nat) : Option Nat :=
  match pg with
  | .loop =>
    if 0x80 ≤ off ∧ (off - 0x80) % 0xF8 = 4 then
      let s := 16 * n + (off - 0x80) / 0xF8
      some (if s < 144 then 2 ^ 31 + s % 3 * 256 + s / 3 else 0)
    else none
  | .ploop =>
    if 0x80 ≤ off ∧ (off - 0x80) % 0x118 = 4 then
      let s := 14 * n + (off - 0x80) / 0x118
      some (if s < 48 then 2 ^ 31 + s else s)
    else none
  | .hd => if off = 0x1B8 then some (3 * n + (3 * n + 1) * 256 + (3 * n + 2) * 65536) else if off = 0x35C then some n else none
  | .ip => if off = 0x44 then some (if n < 6 then 2 ^ 31 + n else n) else none
  | _ => none

/-- The header word of a page at reset (02 R52, 19 R505, R506). -/
def hdrReset (p : PgInfo) (n off : Nat) : Nat :=
  match off with
  | 0x0 => p.type * 65536 + n * 256 + 1
  | 0x4 => b2n p.shd * 2 ^ 31 + b2n p.lc * 2 ^ 30
  | 0x8 => b2n p.en
  | _ => 0

/-- The reset value of the register at a BAR0 address, built from its rows. -/
def resetNat (addr : Nat) : Nat :=
  if 0x3F00000 ≤ addr ∧ addr < 0x3F10000 then
    (rowsAt .sc (addr - 0x3F00000)).foldl (fun v r => v + place r.reset r.hi r.lo) 0
  else match pageOf addr with
    | none => 0
    | some (p, n) =>
      let off := addr % 0x1000
      if off < 0x40 then hdrReset p n off
      else match instReset p.pg n off with
        | some v => v
        | none => (rowsAt p.pg off).foldl (fun v r => v + place r.reset r.hi r.lo) 0

/-- The reset value of the register at a BAR0 address as a word. -/
def resetWord (addr : Nat) : Word := BitVec.ofNat 32 (resetNat addr)

/-! ### Registers and fields -/

/-- The register at a BAR0 address: last value written or set by hardware. -/
def Dev.reg (d : Dev) (a : Nat) : Word := Tab.get resetWord d.regs.cur a
/-- The register's RWS fields as they are in force (00 R12). -/
def Dev.liveReg (d : Dev) (a : Nat) : Word := Tab.get resetWord d.regs.live a
/-- Set a whole register. -/
def Dev.setReg (d : Dev) (a : Nat) (v : Word) : Dev :=
  { d with regs := { d.regs with cur := Tab.put resetWord d.regs.cur a v } }
/-- Set the word in force. -/
def Dev.setLive (d : Dev) (a : Nat) (v : Word) : Dev :=
  { d with regs := { d.regs with live := Tab.put resetWord d.regs.live a v } }

/-- The mask of bits `hi` to `lo`. -/
def maskBits (hi lo : Nat) : Nat := (2 ^ (hi + 1 - lo) - 1) * 2 ^ lo
/-- A word with bits `hi` to `lo` replaced. -/
def Word.putBits (w : Word) (hi lo v : Nat) : Word :=
  (w &&& ~~~(BitVec.ofNat 32 (maskBits hi lo))) ||| BitVec.ofNat 32 (place v hi lo)
/-- The bits under `mask` of `old` replaced by those of `v`. -/
def Word.mix (old mask v : Word) : Word := (old &&& ~~~mask) ||| (v &&& mask)

/-- Read a field: the value last written, or set by hardware. -/
def Dev.g (d : Dev) (f : Fld) : Nat := bits (d.reg f.addr).toNat f.hi f.lo
/-- Set a field. -/
def Dev.p (d : Dev) (f : Fld) (v : Nat) : Dev := d.setReg f.addr (Word.putBits (d.reg f.addr) f.hi f.lo v)
/-- Read the value in force of a shadowed field. -/
def Dev.v (d : Dev) (f : Fld) : Nat := bits (d.liveReg f.addr).toNat f.hi f.lo
/-- Read a field as signed. -/
def Dev.gi (d : Dev) (f : Fld) : Int := sx (f.hi + 1 - f.lo) (d.g f)
/-- Read the value in force as signed. -/
def Dev.vi (d : Dev) (f : Fld) : Int := sx (f.hi + 1 - f.lo) (d.v f)
/-- Set a signed field. -/
def Dev.pi (d : Dev) (f : Fld) (i : Int) : Dev := d.p f (ux (f.hi + 1 - f.lo) i)
/-- Is a field not zero. -/
def Dev.on (d : Dev) (f : Fld) : Bool := d.g f != 0
/-- The width of a field. -/
def Fld.width (f : Fld) : Nat := f.hi + 1 - f.lo
/-- Add to a counter that saturates at the limit of its field (00 R16). -/
def Dev.bump (d : Dev) (f : Fld) (k : Nat := 1) : Dev := d.p f (satU f.width (d.g f + k))
/-- A state handed on to a function. -/
def Dev.pipe (d : Dev) (f : Dev → Dev) : Dev := f d
/-- Add to a counter that wraps. -/
def Dev.bumpW (d : Dev) (f : Fld) (k : Nat := 1) : Dev := d.p f ((d.g f + k) % 2 ^ f.width)
/-- A 64-bit value held as a low and a high field. -/
def Dev.g2 (d : Dev) (lo hi : Fld) : Nat := d.g lo + d.g hi * 2 ^ 32
/-- Set a 64-bit value held as a low and a high field. -/
def Dev.p2 (d : Dev) (lo hi : Fld) (v : Nat) : Dev := (d.p lo (v % 2 ^ 32)).p hi (v / 2 ^ 32 % 2 ^ 32)

/-- A doubleword with the half that byte offset `a` names replaced. -/
def putHalf (w : DWord) (a : Nat) (v : Word) : Nat :=
  if a / 4 % 2 = 0 then w.toNat / 2 ^ 32 * 2 ^ 32 + v.toNat else v.toNat * 2 ^ 32 + w.toNat % 2 ^ 32

/-- A field of a plain word, for values that a command carries. -/
def Word.f (w : Word) (hi lo : Nat) : Nat := bits w.toNat hi lo

/-! ### Free values -/

/-- The next free value and the counter's advance (log 12). -/
def Dev.draw (d : Dev) : Nat × Dev := (Config.freeNat d.freeCtr, { d with freeCtr := d.freeCtr + 1 })

/-! ### Time -/

/-- CLK_RT cycles since POR. -/
def Dev.now (d : Dev) : Nat := d.time.frame * 1250 + d.time.cycle
/-- The frames in a time given in milliseconds (400 frames of 2.5 µs; log 14). -/
def msFrames (ms : Nat) : Nat := 400 * ms

/-- How many CLK_RT cycles back the CLK_MGMT cycle of a host write may reach: 2.5 ns, at the throttle floor 10 ns, and no phase relation (01 R30). -/
def Dev.mgmtReach (d : Dev) : Nat := if d.g F.hk_THERM_STAT_THR_LEVEL = 0 then 2 else 5
/-- The hardware sets bits of a W1C register: they are remembered for as long as a CLK_MGMT cycle may last (00 R14). -/
def Dev.markFresh (d : Dev) (a : Nat) (b : Word) : Dev :=
  { d with regs := { d.regs with fresh := d.regs.fresh.filter (fun e => decide (d.now ≤ e.1 + 5)) ++ [(d.now, a, b)] } }
/-- The bits of a register that the hardware has set in what may be the present CLK_MGMT cycle (00 R14). -/
def Dev.freshBits (d : Dev) (a : Nat) : Word :=
  (d.regs.fresh.filter (fun e => e.2.1 == a && decide (d.now ≤ e.1 + d.mgmtReach))).foldl (fun w e => w ||| e.2.2) 0
/-- The hardware sets a W1C field. -/
def Dev.flag (d : Dev) (f : Fld) (v : Nat := 1) : Dev := (d.p f v).markFresh f.addr (BitVec.ofNat 32 (place v f.hi f.lo))
/-- Of the bits under `c` that a host writes 1 to, those that the hardware may have set in the same CLK_MGMT cycle: a free part of them stays set, since
the phases of the clocks have no relation (00 R14; log 71). -/
def Dev.keptBits (d : Dev) (a : Nat) (c : Word) : Word × Dev :=
  let f := d.freshBits a &&& c
  if f = 0 then (0, d) else let (r, d) := d.draw; (f &&& BitVec.ofNat 32 r, d)

/-! ### Device state -/

/-- SYS_STATE codes (02 R69). -/
inductive Sys where
  | por | rom | waitImage | verify | calLoad | idle | armed | running | faultLatched
  deriving DecidableEq, Repr
/-- The code of a state. -/
def Sys.code : Sys → Nat
  | .por => 0 | .rom => 1 | .waitImage => 2 | .verify => 3 | .calLoad => 4 | .idle => 5 | .armed => 6 | .running => 7
  | .faultLatched => 8
/-- SYS_STATE.STATE. -/
def Dev.st (d : Dev) : Nat := d.g F.sys_SYS_STATE_STATE
/-- Is the device in this state. -/
def Dev.isSt (d : Dev) (x : Sys) : Bool := d.st == x.code
/-- ARMED or RUNNING. -/
def Dev.armedOrRunning (d : Dev) : Bool := d.isSt .armed || d.isSt .running

/-! ### Errors, events and vectors -/

/-- Record an error on a page (02 R55): the first code since the last ERR_CLR is kept, COUNT counts every one. -/
def Dev.err (d : Dev) (page code detail addr : Nat) : Dev :=
  let d := if d.g (F.hdr_ERR_INFO_CODE page) = 0 then
      ((d.p (F.hdr_ERR_INFO_CODE page) code).p (F.hdr_ERR_INFO_DETAIL page) detail).p (F.hdr_ERR_ADDR_ADDR page) addr
    else d
  d.bump (F.hdr_ERR_INFO_COUNT page)

/-- Record a common error for a refused write of the register at `addr` (02 R55). -/
def Dev.errAt (d : Dev) (code addr : Nat) : Dev := d.err (pageBase addr) code (addr % 0x1000) addr

/-- The page requests its vector (02 R59). -/
def Dev.requests (d : Dev) (page : Nat) : Bool :=
  d.on (F.hdr_EVT_ROUTE_ROUTE_EN page) && ((d.reg (page + 0x10) &&& d.reg (page + 0x14)) != 0)

/-- The SC-12 window asserts vector 0 (18 R495). -/
def Dev.scAsserts (d : Dev) : Bool :=
  d.g F.sys_SYS_STATE_MODE == 2 && ((d.g F.sc_SC_DONE &&& d.g F.sc_SC_IRQ_EN_DONE) != 0 || (d.on F.sc_SC_ERR_CODE && d.on F.sc_SC_IRQ_EN_ERR))

/-- A vector is asserted while any page routed to it requests (02 R59), or the SC-12 window asserts it. -/
def Dev.asserted (d : Dev) (v : Nat) : Bool :=
  (v == 0 && d.scAsserts) || pageBases.any (fun p => decide (d.g (F.hdr_EVT_ROUTE_VECTOR p) = v) && d.requests p)

/-- PEND_LO or PEND_HI as the register of a vector's assertion (02 R61). -/
def pendFld (v : Nat) : Fld := if v < 32 then ⟨0x2040, v, v⟩ else ⟨0x2044, v - 32, v - 32⟩

/-- Message on a vector, unmasked and out of its holdoff (02 R60, R61): sent, and the next interval begins, as long as HOLDOFF is now: one rewritten
later leaves it (log 73). -/
def Dev.sendMsg (d : Dev) (v : Nat) : Dev :=
  let h : Holdoff := ⟨d.now + 500 * d.g (F.irq_HOLDOFF v), false⟩
  { d with pcie := { d.pcie with sent := v :: d.pcie.sent, hold := Tab.set {} d.pcie.hold v h } }

/-- Vector Control mask of the MSI-X table entry (02 R44); the entries leave reset masked, as PCI Express specifies. PRESUMED. -/
def Dev.vecMasked (d : Dev) (v : Nat) : Bool :=
  d.pcie.fnMask || (Tab.get (fun k => if k % 4 = 3 then 1 else 0) d.pcie.msix (4 * v + 3)).getLsbD 0

/-- A message falls due on a vector (02 R49, R60, R61). -/
def Dev.msgDue (d : Dev) (v : Nat) : Dev :=
  if !d.pcie.msixEn || !d.on F.pcie_LINK_STAT_UP then d
  else if d.vecMasked v then { d with pcie := { d.pcie with pba := if v ∈ d.pcie.pba then d.pcie.pba else v :: d.pcie.pba } }
  else
    let h := Tab.at {} d.pcie.hold v
    if d.now < h.until_ then { d with pcie := { d.pcie with hold := Tab.set {} d.pcie.hold v { h with deferred := true } } }
    else d.sendMsg v

/-- Bring the assertion of a vector up to date; a vector that becomes asserted sends its message, and with `again` one that is
still asserted sends it again (02 R60). When it deasserts, its pending bit is cleared, as PCI Express states of a masked vector whose cause is
satisfied. -/
def Dev.vecSync (d : Dev) (v : Nat) (again : Bool) : Dev :=
  let was := d.on (pendFld v)
  let now_ := d.asserted v
  let d := d.p (pendFld v) (b2n now_)
  if now_ then when (again || !was) (fun d => d.msgDue v) d
  else { d with pcie := { d.pcie with pba := d.pcie.pba.filter (· != v) } }

/-- Is a page part of the real-time plane (02 R33, 15 R442). -/
def rtPage (page : Nat) : Bool :=
  match pageOf page with
  | some (p, _) => p.pg ∈ [.unit, .time, .seq, .hd, .loop, .ploop, .ibex, .fire, .ax, .bp]
  | none => false

/-- SRC of an event record (15 R442). -/
def srcOf (page : Nat) (forced : Bool) : Nat :=
  match pageOf page with
  | some (p, n) => p.type * 65536 + n * 256 + b2n (rtPage page) * 128 + b2n forced * 64
  | none => 0

/-- Set an event bit of a page and bring its vector up to date. -/
def Dev.setEvt (d : Dev) (page b : Nat) : Dev :=
  let d := d.flag ⟨page + 0x10, b, b⟩
  when (d.on (F.hdr_EVT_ROUTE_ROUTE_EN page)) (fun d => d.vecSync (d.g (F.hdr_EVT_ROUTE_VECTOR page)) false) d

/-- Queue a record for the recorder, or drop it when 1,024 are queued or the writer is closed (15 R445). The first drop since the last LOST record is an
occurrence of the event LOST, whose own record finds the queue full as well (log 101). QUEUE_HIGH of the EVR page at 768 is not set here: `raise` does. -/
def Dev.queueRec (d : Dev) (r : EvRec) : Dev :=
  let n := d.evr.queue.length
  if d.evr.closed || decide (1024 ≤ n) then
    let e := d.evr
    if e.dropped = 0 then
      (({ d with evr := { e with dropped := 2, dropSec := r.sec, dropNs := r.ns } }).bump F.evr_CNT_LOST 2).setEvt 0x5000 2
    else ({ d with evr := { e with dropped := e.dropped + 1 } }).bump F.evr_CNT_LOST
  else
    let d := { d with evr := { d.evr with queue := d.evr.queue ++ [r] } }
    let d := d.p F.evr_QUEUE_NOW (n + 1)
    when (decide (d.g F.evr_QUEUE_PEAK < n + 1)) (fun d => d.p F.evr_QUEUE_PEAK (n + 1)) d

/-- An event occurs: its EVT_RAW bit is set and its record queued, with the time base value now (15 R442, R443). When the record
brings the queue to 768, QUEUE_HIGH is set with a record of its own (15 R450). -/
def Dev.raise (d : Dev) (page b : Nat) (payload : List Nat := []) (forced : Bool := false) : Dev :=
  let d := (d.setEvt page b).queueRec ⟨b, srcOf page forced, d.time.sec, d.time.ns, payload⟩
  when (decide (d.evr.queue.length = 768)) (fun d => (d.setEvt 0x5000 3).queueRec ⟨3, srcOf 0x5000 false, d.time.sec, d.time.ns, []⟩) d

/-- Queue a record that is no page event (15 R443); QUEUE_HIGH as for one (15 R450). -/
def Dev.putRec (d : Dev) (r : EvRec) : Dev :=
  let d := d.queueRec r
  when (decide (d.evr.queue.length = 768)) (fun d => d.raise 0x5000 3) d

/-- Change SYS_STATE.STATE and raise STATE_CHANGE (02 R69, R74). -/
def Dev.goSt (d : Dev) (x : Sys) : Dev := (d.p F.sys_SYS_STATE_STATE x.code).raise 0 0

/-- A fault cause arises (02 R73): it waits for the next frame boundary, in ROM for the end of ROM. In FAULT_LATCHED only THERMAL_CRIT is taken, whose
latch ends at POR alone (16 R460). -/
def Dev.faultCause (d : Dev) (code : Nat) : Dev :=
  if d.isSt .por then d
  else if d.isSt .faultLatched ∧ code ≠ 1 then d
  else { d with ctl := { d.ctl with faults := d.ctl.faults ++ [code],
                                    faultFrame := if d.ctl.faults = [] then d.time.frame else d.ctl.faultFrame } }

/-! ### DRAM -/

/-- Installed capacity in bytes, 0 until training completes (12 R354, R355). -/
def Dev.capacity (d : Dev) : Nat := d.g F.ddr_CFG_CAP_GB * 2 ^ 30
/-- The first byte of the device region (02 R47). -/
def Dev.devRegion (d : Dev) : Nat := d.capacity - 256 * 2 ^ 20

/-- One byte of DRAM. -/
def memByte (m : List Host.Cell) (a : Nat) : Byte := Tab.at 0 m a
/-- `n` bytes from `a`. -/
def memBytes (m : List Host.Cell) (a n : Nat) : List Nat := (List.range n).map (fun i => (memByte m (a + i)).toNat)
/-- A little-endian number of `n` bytes. -/
def memLE (m : List Host.Cell) (a n : Nat) : Nat := (List.range n).foldl (fun v i => v + (memByte m (a + i)).toNat * 256 ^ i) 0
/-- A 32-bit word. -/
def mem32 (m : List Host.Cell) (a : Nat) : Nat := memLE m a 4
/-- Write one byte of DRAM. -/
def memPut (m : List Host.Cell) (a : Nat) (b : Byte) : List Host.Cell := Tab.set 0 m a b
/-- Write bytes from `a` on. -/
def memPuts : List Host.Cell → Nat → List Byte → List Host.Cell
  | m, _, [] => m
  | m, a, b :: bs => memPuts (memPut m a b) (a + 1) bs
/-- The little-endian bytes of a number. -/
def leBytes : Nat → Nat → List Byte
  | 0, _ => []
  | n + 1, v => BitVec.ofNat 8 v :: leBytes n (v / 256)
/-- A number from little-endian bytes. -/
def ofLE : List Nat → Nat
  | [] => 0
  | b :: bs => b + 256 * ofLE bs
/-- A number from big-endian bytes. -/
def ofBE (l : List Nat) : Nat := l.foldl (fun v b => v * 256 + b) 0
/-- Write the low `n` bytes of `v`, little-endian, at `a`. -/
def memPutLE (m : List Host.Cell) (a n v : Nat) : List Host.Cell := memPuts m a (leBytes n v)

/-! ### Lifting -/

/-- A meaning that changes the logic die alone. -/
def onDev (f : Dev → Dev) (s : State) : Host.Outcome State Fault Refusal := .next { s with dev := f s.dev }
/-- A meaning that changes the logic die and reads DRAM. -/
def onDevMem (f : List Host.Cell → Dev → Dev) (s : State) : Host.Outcome State Fault Refusal :=
  .next { s with dev := f s.mem s.dev }
/-- A meaning that changes the logic die and the isolated die. -/
def onDevIso (f : Dev × Iso → Dev × Iso) (s : State) : Host.Outcome State Fault Refusal :=
  let r := f (s.dev, s.iso)
  .next { s with dev := r.1, iso := r.2 }
/-- A meaning that changes the logic die and DRAM. -/
def onMem (f : Dev × List Host.Cell → Dev × List Host.Cell) (s : State) : Host.Outcome State Fault Refusal :=
  let r := f (s.dev, s.mem)
  .next { s with dev := r.1, mem := r.2 }

/-! ### Accesses from the host -/

/-- A bad or unmapped access (02 R45, R47, R537): counted, with the BAR and the offset of the latest. -/
def Dev.badAcc (d : Dev) (bar ofs : Nat) : Dev :=
  ((((d.bump F.pcie_BAD_ACC_COUNT).p F.pcie_BAD_ACC_ADDR_LO (ofs % 2 ^ 32)).p F.pcie_BAD_ACC_ADDR_HI_BAR bar).p
    F.pcie_BAD_ACC_ADDR_HI_OFS (ofs / 2 ^ 32)).raise 0x100000 0

/-- SYS_STATE.MODE is SC-12. -/
def Dev.scMode (d : Dev) : Bool := d.g F.sys_SYS_STATE_MODE == 2

/-- The pages that a host may write whole in SC-12 mode (18 R493): BOOT, IRQ, TIME and CAL. -/
def scWhole (page : Nat) : Bool := page ∈ [0x1000, 0x2000, 0x4000, 0x7000]

/-- The native targets that a host may write in SC-12 mode (18 R493). Of PAGE_CTRL only ERR_CLR acts there. The MSI-X region is the endpoint's. -/
def scTarget (a : Nat) : Bool :=
  let o := a % 0x1000
  ((pageOf a).isSome && (o == 0x08 || o == 0x10 || o == 0x14 || o == 0x1C))
    || scWhole (pageBase a) || pageBase a == 0x101000
    || a ∈ [0x4C, 0x50, 0x54, 0x3048, 0x3064, 0x3080, 0x5050, 0xD00B4, 0x12004C]

/-- Is a BAR0 address in the SC-12 window (19 R511). -/
def inScWindow (a : Nat) : Bool := decide (0x3F00000 ≤ a ∧ a < 0x3F10000)

/-- A write that no rule lets through to its target: in SC-12 mode a native target not listed (18 R493), in native mode the SC-12 window (R494). -/
def Dev.turnedAway (d : Dev) (a : Nat) : Bool := if inScWindow a then !d.scMode else d.scMode && !scTarget a

/-- A host's write of BAR0 offset `a`: no register is reachable in POR (02 R69); what is turned away is a BAD_ACCESS. -/
def hosted (a : Nat) (k : State → Host.Outcome State Fault Refusal) (s : State) : Host.Outcome State Fault Refusal :=
  if s.dev.isSt .por then .next s
  else if s.dev.turnedAway a then .next { s with dev := s.dev.badAcc 0 a }
  else k s

end Sys2Proof.Machine
end

