-- ==== Sys2Proof/Machine/Dram.lean ====
section
/-!
DEFINITION. DRAM behind its memory controller (12): the error code, corrections, uncorrectable and poisoned bursts, repair candidates,
the requests' scheduling, refresh, row disturbance, power-down, scrub and repair. Times inside the controller (R369, tRFC) are not
modelled (log 14).
-/
namespace Sys2Proof.Machine

/-- The DDR page. -/
def ddrPage : Nat := 0xD0000

/-! ### Address map (R357) -/

/-- Subchannel, bank group, bank and row of a burst number. -/
def burstSc (k : Nat) : Nat := k % 2
def burstRow (k : Nat) : Nat := k / 2 ^ 13 % 2 ^ 17
def burstBg (k : Nat) : Nat := k / 2 ^ 8 % 8 ^^^ burstRow k % 8
def burstBa (k : Nat) : Nat := k / 2 ^ 11 % 4 ^^^ burstRow k / 8 % 4
/-- The key of a burst's bank: subchannel, bank group, bank. -/
def burstBank (k : Nat) : Nat := 32 * burstSc k + 4 * burstBg k + burstBa k
/-- The first burst of the row of a subchannel that holds this burst: its column is 0. -/
def rowFirst (k : Nat) : Nat := k / 256 * 256 + k % 2
/-- The bursts of a row of a subchannel, from its first one (R377: 128 fragments). -/
def rowBursts (k : Nat) : List Nat := (List.range 128).map (fun c => rowFirst k + 2 * c)

/-! ### Error code (R359 to R364) -/

/-- The product in GF(2^8) with the polynomial x^8 + x^4 + x^3 + x^2 + 1 (R359): Horner's rule over the bits of `b`. -/
def gfMul (a b : Nat) : Nat :=
  (List.range 8).foldl (fun acc i =>
    let t := if acc < 128 then 2 * acc else 2 * acc ^^^ 0x11D
    if b.testBit (7 - i) then t ^^^ a else t) 0
/-- α^i, with α = 0x02. -/
def gfPow (i : Nat) : Nat := (List.range i).foldl (fun x _ => gfMul x 2) 1
/-- The generator, the product of (x − α^i) for i = 0 to 15: its coefficients below the leading 1, the highest first. -/
def rsGen : List Nat :=
  ((List.range 16).foldl (fun (g : List Nat) i => List.zipWith (fun a b => a ^^^ b) (g ++ [0]) (0 :: g.map (gfMul (gfPow i)))) [1]).drop 1
/-- The 16 check symbols of a burst's 64 data bytes (R359): the remainder of the data, symbol 0 as the highest coefficient (log 98), times x^16. -/
def rsCheck (data : List Nat) : List Nat :=
  data.foldl (fun (r : List Nat) x =>
    let f := x ^^^ r.headD 0
    List.zipWith (fun a g => a ^^^ gfMul f g) (r.drop 1 ++ [0]) rsGen) (List.replicate 16 0)
/-- The syndrome of a word of 80 symbols: its value at α^0 to α^15; all zero for a code word. -/
def rsSyndrome (word : List Nat) : List Nat :=
  (List.range 16).map (fun i => word.foldl (fun acc x => gfMul acc (gfPow i) ^^^ x) 0)
/-- The check symbols that DRAM holds beside the data of a burst (R359, R364). -/
def storedCheck (data : List Nat) (poison : Bool) : List Nat := (rsCheck data).map (fun x => if poison then x ^^^ 0xA5 else x)

/-- The four lanes of a device in a beat, lane `q` as bit `q` (R359): symbol 8d + j holds beat 2j in bits [3:0] and beat 2j + 1 in bits [7:4]. -/
def devLanes (word : List Nat) (dv beat : Nat) : Nat := word.getD (8 * dv + beat / 2) 0 / 16 ^ (beat % 2) % 16
/-- A beat of a burst: the 40 lanes of a subchannel, those of device `d` from bit 4d on. -/
def beatOf (word : List Nat) (beat : Nat) : Nat := (List.range 10).foldl (fun x dv => x + devLanes word dv beat * 16 ^ dv) 0
/-- The 16 beats of a burst (R354, R359). -/
def beatsOf (word : List Nat) : List Nat := (List.range 16).map (beatOf word)
/-- The symbol that a device's lanes carry in two beats: the way back. -/
def symOf (beats : List Nat) (s : Nat) : Nat :=
  let nib (b : Nat) : Nat := beats.getD b 0 / 16 ^ (s / 8) % 16
  nib (2 * (s % 8)) + 16 * nib (2 * (s % 8) + 1)

/-- MARK of a subchannel: the marked device, if any. -/
def Dev.marked (d : Dev) (sc : Nat) : Option Nat :=
  if sc = 0 then (if d.on F.ddr_MARK_M0_EN then some (d.g F.ddr_MARK_M0_DEV) else none)
  else (if d.on F.ddr_MARK_M1_EN then some (d.g F.ddr_MARK_M1_DEV) else none)

/-- What a read of a burst finds (R360): 0 clean, 1 corrected, 2 poisoned, 3 uncorrectable. A pattern beyond the table's reach is taken
as detected (log 23). -/
def Dev.judge (d : Dev) (k : Nat) : Nat :=
  let b : Burst := Tab.at {} d.ddr.bursts k
  let s := b.syms.eraseDups
  if s = [] then (if b.poison then 2 else 0)
  else if b.poison then 3
  else match d.marked (burstSc k) with
    | none => if s.length ≤ 8 then 1 else 3
    | some v => if (s.filter (fun x => decide (x / 8 ≠ v))).length ≤ 4 then 1 else 3

/-- DEV_CE of a device, 10 times the subchannel plus its number. -/
def devCe (i : Nat) : Fld := if i % 2 = 0 then F.ddr_DEV_CE_EVEN (i / 2) else F.ddr_DEV_CE_ODD (i / 2)

/-- PPR_STAT's counts from PPR_LOG. -/
def Dev.pprStat (d : Dev) : Dev :=
  let n (st : Nat) : Nat := (idxs 8 (fun i => d.g (F.ddr_PPR_LOGi_STATE i) == st)).length
  let d := (d.p F.ddr_PPR_STAT_PENDING (n 1)).p F.ddr_PPR_STAT_HARD (n 3)
  d.p F.ddr_PPR_STAT_STATE (if d.ddr.committed ≠ [] then 1 else if n 3 ≠ 0 then 2 else d.g F.ddr_PPR_STAT_STATE / 3 * 3)

/-- A row of one device becomes a repair candidate (R376, R378): not on a marked device, and not while the log names it as one to repair or
exhausted (log 24). -/
def Dev.candidate (d : Dev) (k dv : Nat) : Dev :=
  let sc := burstSc k
  let a := rowFirst k * 64
  let dup := (List.range 8).any (fun i =>
    (d.g (F.ddr_PPR_LOGi_STATE i) == 1 || d.g (F.ddr_PPR_LOGi_STATE i) == 4) && d.g2 (F.ddr_PPR_LOGi_ADDR_LO i) (F.ddr_PPR_LOGi_ADDR_HI i) == a
      && d.g (F.ddr_PPR_LOGi_DEV i) == 10 * sc + dv)
  if d.marked sc = some dv ∨ dup then d
  else match (List.range 8).find? (fun i => d.g (F.ddr_PPR_LOGi_STATE i) == 0) with
    | none => d.raise ddrPage 11
    | some i =>
      let out := decide (Tab.at 0 d.ddr.res ((10 * sc + dv) * 8 + burstBg k) = 0)
      let d := (d.p2 (F.ddr_PPR_LOGi_ADDR_LO i) (F.ddr_PPR_LOGi_ADDR_HI i) a).p (F.ddr_PPR_LOGi_STATE i) (if out then 4 else 1)
      let d := (d.p (F.ddr_PPR_LOGi_DEV i) (10 * sc + dv)).p (F.ddr_PPR_LOGi_CE i)
        (satU 16 (Tab.at 0 d.ddr.rowCe (rowFirst k * 20 + 10 * sc + dv)))
      let d := ({ d with ddr := { d.ddr with logAt := Tab.set 0 d.ddr.logAt i d.now } }).pprStat
      (d.raise ddrPage 6).pipe (when out (fun d => d.raise ddrPage 8))

/-- Record an uncorrectable or poisoned read (R363). -/
def Dev.lastUe (d : Dev) (k cls : Nat) : Dev :=
  let devs := match d.marked (burstSc k) with | some v => 2 ^ v | none => 0
  ((d.p2 F.ddr_LAST_UE_LO F.ddr_LAST_UE_HI (64 * k)).p F.ddr_LAST_UE_INFO_CLASS cls).p F.ddr_LAST_UE_INFO_DEVS devs

/-- The record of an uncorrectable read: offset, class and DEVS. -/
def Dev.uePayload (d : Dev) : List Nat :=
  [d.g F.ddr_LAST_UE_LO, d.g F.ddr_LAST_UE_HI, d.g F.ddr_LAST_UE_INFO_CLASS, d.g F.ddr_LAST_UE_INFO_DEVS]

/-- A corrected read: counted, written back, and its devices followed for the mark and for repair (R360 to R362, R376). -/
def Dev.corrected (d : Dev) (k : Nat) : Dev :=
  let sc := burstSc k
  let devs := ((Tab.at {} d.ddr.bursts k).syms.map (fun x => x / 8 % 10)).eraseDups
  let d := devs.foldl (fun d v => d.bump (devCe (10 * sc + v))) (d.bump F.ddr_CE_COUNT)
  let d := d.raise ddrPage 0
  let runs := forN 10 (fun v t => Tab.set 0 t (10 * sc + v) (if v ∈ devs then Tab.at 0 t (10 * sc + v) + 1 else 0)) d.ddr.runs
  let rowCe := devs.foldl (fun t v => Tab.upd 0 t (rowFirst k * 20 + 10 * sc + v) (· + 1)) d.ddr.rowCe
  let d := { d with ddr := { d.ddr with bursts := Tab.set {} d.ddr.bursts k {}, runs := runs, rowCe := rowCe } }
  let lim := d.g F.ddr_PPR_CTRL_ROW_CE_LIMIT
  devs.foldl (fun d v =>
    when (decide (lim ≠ 0 ∧ lim ≤ Tab.at 0 d.ddr.rowCe (rowFirst k * 20 + 10 * sc + v))) (fun d => d.candidate k v) d) d

/-- One burst is read for a requester of class `cls` (R360 to R364, R376): the result and the state after it. A poisoned read acts as an uncorrectable
one, but counts as poisoned and makes no candidate (R364; log 35). The device of an
uncorrectable read's candidate is a free value: the decoder cannot name it (R363; log 24). -/
def Dev.readBurst (d : Dev) (cls k : Nat) : Nat × Dev :=
  match d.judge k with
  | 0 => (0, d)
  | 1 => (1, d.corrected k)
  | 2 => let d := (d.bump F.ddr_POISON_COUNT).lastUe k cls
         (2, (d.raise ddrPage 2 d.uePayload).raise ddrPage 1 d.uePayload)
  | _ =>
    let d := (d.bump F.ddr_UE_COUNT).lastUe k cls
    let d := d.raise ddrPage 1 d.uePayload
    let (r, d) := d.draw
    (3, d.candidate k (r % 10))

/-- The bursts of a range. -/
def burstsOf (a n : Nat) : List Nat :=
  if n = 0 then [] else (List.range ((a + n - 1) / 64 - a / 64 + 1)).map (· + a / 64)

/-- The burst `k` is written in part or whole (R364): a part written over bad data leaves a poisoned burst. -/
def Dev.writeBurst (d : Dev) (cls k : Nat) (whole : Bool) : Dev :=
  if whole then { d with ddr := { d.ddr with bursts := Tab.set {} d.ddr.bursts k {} } }
  else
    let (x, d) := d.readBurst cls k
    if 2 ≤ x then { d with ddr := { d.ddr with bursts := Tab.set {} d.ddr.bursts k ⟨true, []⟩ } } else d

/-- A write of bytes from `a` on reaches DRAM (R364). -/
def dramPut (cls a : Nat) (bs : List Byte) (r : Dev × List Host.Cell) : Dev × List Host.Cell :=
  let e := a + bs.length
  ((burstsOf a bs.length).foldl (fun d k => d.writeBurst cls k (decide (a ≤ 64 * k ∧ 64 * k + 64 ≤ e))) r.1, memPuts r.2 a bs)

/-! ### Scheduling, refresh and row disturbance (R365 to R374) -/

/-- The fragment in progress on a subchannel. -/
def DdrSt.run (t : DdrSt) (sc : Nat) : Option Frag := if sc = 0 then t.run0 else t.run1
/-- Set it. -/
def DdrSt.setRun (t : DdrSt) (sc : Nat) (x : Option Frag) : DdrSt := if sc = 0 then { t with run0 := x } else { t with run1 := x }
/-- Is a class 0 fragment waiting or running on a subchannel. -/
def DdrSt.class0 (t : DdrSt) (sc : Nat) : Bool :=
  (t.frags ++ (t.run sc).toList).any (fun x => decide (burstSc x.burst = sc ∧ x.cls = 0))
/-- The age cap of a class, in CLK_MC cycles of 1.25 ns. -/
def Dev.ageCap (d : Dev) (cls : Nat) : Nat :=
  match cls with
  | 0 => d.g F.ddr_AGE_RT | 1 => d.g F.ddr_AGE_IMG | 2 => d.g F.ddr_AGE_HOST | _ => d.g F.ddr_AGE_MGMT
/-- Has a fragment waited longer than its cap (R366). -/
def Dev.overdue (d : Dev) (x : Frag) : Bool := !x.trace && decide (d.ageCap x.cls * 5 < (d.now - x.t) * 8)
/-- Does a fragment hit the open row of its bank. -/
def Dev.rowHit (d : Dev) (x : Frag) : Bool := Tab.at 0 d.ddr.rows (burstBank x.burst) == burstRow x.burst + 1

/-- Whether RFM is due on some bank of a subchannel (R373). -/
def Dev.rfmDue (d : Dev) (sc : Nat) : Bool :=
  d.on F.ddr_NR_CTRL_RFM_REQ && d.ddr.raa.any (fun e => decide (e.1 / 32 = sc ∧ d.ddr.raaimt ≤ e.2 ∧ e.2 ≠ 0))

/-- The next fragment of a subchannel (R365, R366, R368): none overtakes an earlier one of the same burst. -/
def Dev.nextFrag (d : Dev) (sc : Nat) : Option Frag :=
  let all := d.ddr.frags
  let mine := (all.zipIdx.filter (fun e => decide (burstSc e.1.burst = sc)
    && !(all.take e.2).any (fun y => y.burst == e.1.burst))).map (·.1)
  let c0 := mine.filter (fun x => x.cls == 0 && !x.trace)
  let tr := mine.filter (fun x => x.cls == 0 && x.trace)
  let hitFirst (l : List Frag) : List Frag := l.filter d.rowHit ++ l.filter (fun x => !d.rowHit x)
  let low (c : Nat) : List Frag := hitFirst (mine.filter (fun x => x.cls == c))
  (c0.filter d.overdue ++ hitFirst c0 ++ hitFirst tr ++ mine.filter (fun x => decide (0 < x.cls) && d.overdue x) ++ low 1 ++ low 2 ++ low 3).head?

/-- RFM on a bank (R373): RAAIMT comes off its rolling count, and the bank is precharged. -/
def Dev.rfmBank (d : Dev) (b : Nat) : Dev :=
  let d := { d with ddr := { d.ddr with raa := Tab.upd 0 d.ddr.raa b (· - d.ddr.raaimt), rows := Tab.set 0 d.ddr.rows b 0 } }
  (d.bump F.ddr_RFM_COUNT).raise ddrPage 5

/-- `n` activations of a bank count (R373): where they would take the count past RAAMMT, RFM comes first. -/
def Dev.countActs (d : Dev) (b n : Nat) : Dev :=
  let d := when (d.on F.ddr_NR_CTRL_RFM_REQ && decide (d.ddr.raammt < Tab.at 0 d.ddr.raa b + n)) (fun d => d.rfmBank b) d
  { d with ddr := { d.ddr with raa := Tab.upd 0 d.ddr.raa b (· + n) } }

/-- A bank is activated (R372, R373): counted, and with NR_EN = 1 a neighbour refresh by a chance of 2^−K, a free value. Devices without directed refresh
management have their logical neighbours activated, and these count too. -/
def Dev.activate (d : Dev) (k : Nat) : Dev :=
  let b := burstBank k
  let d := d.countActs b 1
  let d := { d with ddr := { d.ddr with rows := Tab.set 0 d.ddr.rows b (burstRow k + 1) } }
  if !d.on F.ddr_NR_CTRL_EN then d
  else
    let (r, d) := d.draw
    when (decide (r % 2 ^ d.g F.ddr_NR_CTRL_K = 0)) (fun d =>
      let acts := if d.ddr.drfm then 0 else 2 * (1 + d.g F.ddr_NR_CTRL_RADIUS)
      (d.countActs b acts).bump F.ddr_NR_COUNT) d

/-- A fragment of a burst starts (R372 to R374): its subchannel is in use and leaves power-down, RFM that is due comes first, and a row that is not open
is activated. -/
def Dev.touch (d : Dev) (k : Nat) : Dev :=
  if !d.on F.ddr_CFG_TRAINED then d
  else
    let sc := burstSc k
    let t := d.ddr
    let d := { d with ddr := { t with powerDown := t.powerDown.filter (· != sc), lastFrag := Tab.set 0 t.lastFrag sc d.now } }
    let d := when (d.rfmDue sc) (fun d => ((List.range 32).map (· + 32 * sc)).foldl (fun d b =>
      when (decide (d.ddr.raaimt ≤ Tab.at 0 d.ddr.raa b ∧ Tab.at 0 d.ddr.raa b ≠ 0)) (fun d => d.rfmBank b) d) d) d
    if Tab.at 0 d.ddr.rows (burstBank k) = burstRow k + 1 then d else d.activate k

/-- A read of a range: whether any burst was uncorrectable or poisoned. `dramTurn` comes before it. -/
def Dev.dramRead (d : Dev) (cls a n : Nat) : Bool × Dev :=
  (burstsOf a n).foldl (fun (r : Bool × Dev) k => let (x, d) := (r.2.touch k).readBurst cls k; (r.1 || decide (2 ≤ x), d)) (false, d)

/-- All banks of a subchannel are precharged for a refresh; JESD79-5 takes RAAIMT off each rolling count. PRESUMED (log 25). -/
def Dev.refresh (d : Dev) (sc : Nat) : Dev :=
  { d with ddr := { d.ddr with rows := d.ddr.rows.filter (fun e => e.1 / 32 != sc),
                               raa := (d.ddr.raa.map (fun e => if e.1 / 32 = sc then (e.1, e.2 - d.ddr.raaimt) else e)).filter (fun e => e.2 != 0),
                               powerDown := d.ddr.powerDown.filter (· != sc) } }

/-- OWED0 or OWED1. -/
def owed (sc : Nat) : Fld := if sc = 0 then F.ddr_REF_STAT_OWED0 else F.ddr_REF_STAT_OWED1

/-- A row is read for its repair, corrected, and written back; what was uncorrectable is written poisoned (R377, R379). -/
def Dev.rowRewrite (d : Dev) (k : Nat) : Dev :=
  (rowBursts k).foldl (fun d k =>
    let (x, d) := (d.touch k).readBurst 3 k
    { d with ddr := { d.ddr with bursts := Tab.set {} d.ddr.bursts k (if 2 ≤ x then ⟨true, []⟩ else {}) } }) d

/-- Does a repair occupy the subchannel (R377): the rows committed are repaired in turn. -/
def Dev.repairing (d : Dev) (sc : Nat) : Bool := d.ddr.committed.head?.any (fun i => decide (d.g (F.ddr_PPR_LOGi_DEV i) / 10 = sc))

/-- The subchannel is free: a forced refresh first, then RFM, then the next fragment (R368, R371, R373); fragments wait while a repair runs
(R377). -/
def Dev.schedule (d : Dev) (sc : Nat) : Dev :=
  if (d.ddr.run sc).isSome then d
  else
    let d := if sc ∈ d.ddr.forced then ({ d with ddr := { d.ddr with forced := d.ddr.forced.filter (· != sc) } }).refresh sc else d
    if d.rfmDue sc || d.repairing sc then d
    else match d.nextFrag sc with
      | none => d
      | some x =>
        let d := { d with ddr := ({ d.ddr with frags := d.ddr.frags.erase x }).setRun sc (some x) }
        if d.rowHit x then d else d.activate x.burst

/-- Cut a request into fragments (R365): for a write, the bytes that fall into each. -/
def fragsOf (a len cls t : Nat) (trace : Bool) (wr : Option (List Byte)) : List Frag :=
  (burstsOf a len).map (fun k =>
    let lo := max a (64 * k)
    { burst := k, cls := cls, t := t, trace := trace, wr := wr.map (fun bs => (lo - 64 * k, (bs.drop (lo - a)).take (64 * k + 64 - lo))) })

/-- Does a write to a burst wait: it arrived after the read in progress, so a corrected burst is not written back (R362). -/
def Dev.newerWrite (d : Dev) (k : Nat) : Bool := d.ddr.frags.any (fun x => x.burst == k && x.wr.isSome)

/-- A read of a burst whose devices deliver the symbols `syms` wrong, with its write-back (R360 to R362). -/
def Dev.readDelivered (d : Dev) (cls k : Nat) (syms : List (Fin 80)) : Nat × Dev :=
  let d := { d with ddr := { d.ddr with bursts := Tab.upd {} d.ddr.bursts k (fun b => { b with syms := (b.syms ++ syms.map (fun (x : Fin 80) => x.val)).eraseDups }) } }
  let b : Burst := Tab.at {} d.ddr.bursts k
  let (x, e) := d.readBurst cls k
  (x, if x = 1 ∧ d.newerWrite k then { e with ddr := { e.ddr with bursts := Tab.set {} e.ddr.bursts k b } } else e)

/-- A fragment's read ends: what it delivers, and a bus error where a management processor asked (R363). -/
def Dev.deliver (d : Dev) (m : List Host.Cell) (cls k : Nat) (syms : List (Fin 80)) : Dev :=
  let (x, d) := d.readDelivered cls k syms
  let data := memBytes m (64 * k) 64
  let check := storedCheck data (x == 2)
  { d with ddr := { d.ddr with rdRes := x, rdata := data, rcheck := check, rbeats := beatsOf (data ++ check),
                               busErr := if cls = 3 ∧ 2 ≤ x then some (64 * k) else d.ddr.busErr } }

/-! ### Requests whose fragments are executed as they arrive

BAR2, the DMA engine, the recorder, the rings, the streams and the scrub ask the controller through `dramRead` and `dramWrite`. -/

/-- The row that is next in turn is repaired (R377): read and corrected, the owed refreshes issued, repaired on its device, and written back. A row whose bank
group has no resource left is exhausted instead (R378). -/
def Dev.repairNext (d : Dev) : Dev :=
  match d.ddr.committed with
  | [] => d
  | i :: rest =>
    let k := d.g2 (F.ddr_PPR_LOGi_ADDR_LO i) (F.ddr_PPR_LOGi_ADDR_HI i) / 64
    let dv := d.g (F.ddr_PPR_LOGi_DEV i)
    let left := Tab.at 0 d.ddr.res (dv * 8 + burstBg k)
    let d := { d with ddr := { d.ddr with committed := rest } }
    if left = 0 then (d.p (F.ddr_PPR_LOGi_STATE i) 4).pprStat.raise ddrPage 8
    else
      let d := ((d.rowRewrite k).p (owed (dv / 10)) 0).refresh (dv / 10)
      let d := { d with ddr := { d.ddr with res := Tab.set 0 d.ddr.res (dv * 8 + burstBg k) (left - 1) } }
      let d := (d.p (F.ddr_PPR_LOGi_STATE i) 2).bump F.ddr_PPR_STAT_SOFT
      (d.p F.ddr_PPR_RES (min (d.g F.ddr_PPR_RES) (left - 1))).pprStat.raise ddrPage 7

/-- A fragment that waited is executed: a read with what the devices then deliver, a write. -/
def serveFrag (x : Frag) (r : Dev × List Host.Cell) : Dev × List Host.Cell :=
  match x.wr with
  | none => (r.1.deliver r.2 x.cls x.burst [], r.2)
  | some (o, bs) => dramPut x.cls (64 * x.burst + o) bs r

/-- Earlier fragments of a burst, the one in progress first, are executed before a later one of it (R365). -/
def settle (k : Nat) (r : Dev × List Host.Cell) : Dev × List Host.Cell :=
  let t := r.1.ddr
  let sc := burstSc k
  match ((t.run sc).toList ++ t.frags).filter (fun x => x.burst == k) with
  | [] => r
  | l =>
    let t := { t with frags := t.frags.filter (fun x => x.burst != k) }
    let t := if (t.run sc).any (fun x => x.burst == k) then t.setRun sc none else t
    let r := l.foldl (fun r x => serveFrag x r) ({ r.1 with ddr := t }, r.2)
    (r.1.schedule sc, r.2)

/-- Does nothing wait in the controller: no fragment waits or is in progress, and no row waits for its repair. -/
def Dev.quiet (d : Dev) : Bool := d.ddr.frags.isEmpty && d.ddr.run0.isNone && d.ddr.run1.isNone && d.ddr.committed.isEmpty

/-- What comes before a read of a range: the repairs that occupy its subchannels end, since the read waits for them (R377), and the earlier fragments of
its bursts are executed (R365). -/
def dramTurn (a n : Nat) (r : Dev × List Host.Cell) : Dev × List Host.Cell :=
  if r.1.quiet then r
  else (burstsOf a n).foldl (fun r k =>
    settle k (r.1.ddr.committed.foldl (fun d _ => when (d.repairing (burstSc k)) (fun d => d.repairNext) d) r.1, r.2)) r

/-- The same before reads of several ranges, each given by its offset and length. -/
def dramTurns (l : List (Nat × Nat)) (r : Dev × List Host.Cell) : Dev × List Host.Cell := l.foldl (fun r e => dramTurn e.1 e.2 r) r

/-- A meaning that reads the ranges of DRAM that `need` names. -/
def onRead (need : Dev → List (Nat × Nat)) (f : List Host.Cell → Dev → Dev) (s : State) : Host.Outcome State Fault Refusal :=
  onMem (fun r => let r := dramTurns (need r.1) r; (f r.2 r.1, r.2)) s

/-- A write of bytes from `a` on, of a class; bytes beyond the installed capacity go nowhere (log 9). Fragments of a subchannel that a repair occupies
wait (R377); the others are executed, each after the earlier ones of its burst. -/
def dramWrite (cls a : Nat) (bs : List Byte) (r : Dev × List Host.Cell) : Dev × List Host.Cell :=
  let bs := bs.take (r.1.capacity - a)
  if r.1.quiet then dramPut cls a bs ((burstsOf a bs.length).foldl (fun d k => d.touch k) r.1, r.2)
  else (fragsOf a bs.length cls r.1.now false (some bs)).foldl (fun r x =>
    if r.1.repairing (burstSc x.burst) then ({ r.1 with ddr := { r.1.ddr with frags := r.1.ddr.frags ++ [x] } }, r.2)
    else let r := settle x.burst r; serveFrag x (r.1.touch x.burst, r.2)) r

/-! ### Meanings -/

/-- DRAM_REQUEST (R365 to R368): fragments wait, and a free subchannel starts the next one. Bytes beyond capacity form no fragment. -/
def execDramRequest (addr : BitVec 36) (len : BitVec 16) (cls : Fin 4) (trace : Bool) (wr : Option (List Byte)) (s : State) :
    Host.Outcome State Fault Refusal :=
  onDev (fun d =>
    if !d.on F.ddr_CFG_TRAINED then d
    else
      let n := match wr with | some b => b.length | none => len.toNat
      let fs := fragsOf addr.toNat (min n (d.capacity - addr.toNat)) cls.val d.now (trace && cls.val == 0) wr
      let t := d.ddr
      let scs := (fs.map (fun x => burstSc x.burst)).eraseDups
      let d := { d with ddr := { t with frags := t.frags ++ fs, powerDown := t.powerDown.filter (fun x => x ∉ scs),
                                        lastFrag := scs.foldl (fun l x => Tab.set 0 l x d.now) t.lastFrag } }
      (d.schedule 0).schedule 1) s

/-- DRAM_READ_DONE (R359 to R363): the read in progress on a subchannel ends; `syms` are the symbols that the devices deliver wrong. -/
def execDramReadDone (sc : Fin 2) (syms : List (Fin 80)) (s : State) : Host.Outcome State Fault Refusal :=
  onDevMem (fun m d =>
    match d.ddr.run sc.val with
    | some ⟨k, cls, _, _, none⟩ =>
      let d := d.deliver m cls k syms
      Dev.schedule { d with ddr := d.ddr.setRun sc.val none } sc.val
    | _ => d) s

/-- DRAM_WRITE (R364): the write in progress on a subchannel reaches DRAM. -/
def execDramWrite (sc : Fin 2) (s : State) : Host.Outcome State Fault Refusal :=
  onMem (fun r =>
    match r.1.ddr.run sc.val with
    | some ⟨k, cls, _, _, some (o, bs)⟩ =>
      let (d, m) := dramPut cls (64 * k + o) bs r
      (({ d with ddr := d.ddr.setRun sc.val none }).schedule sc.val, m)
    | _ => r) s

/-- DEV_MARKED (R361): MARK_N consecutive corrections on one device mark it; a subchannel holds one mark. -/
def execDevMarked (sc : Fin 2) (s : State) : Host.Outcome State Fault Refusal :=
  onDev (fun d =>
    let n := d.g F.ddr_MARK_N
    match (List.range 10).find? (fun v => decide (n ≠ 0 ∧ n ≤ Tab.at 0 d.ddr.runs (10 * sc.val + v))) with
    | none => d
    | some v =>
      if d.marked sc.val ≠ none then d
      else
        let d := if sc.val = 0 then (d.p F.ddr_MARK_M0_EN 1).p F.ddr_MARK_M0_DEV v else (d.p F.ddr_MARK_M1_EN 1).p F.ddr_MARK_M1_DEV v
        d.raise ddrPage 3 [sc.val, v]) s

/-- REFRESH_DUE (R370, R371): issued at once, postponed and owed, or forced. `hot` is what the devices report of their temperature. -/
def execRefreshDue (sc : Fin 2) (hot : Bool) (s : State) : Host.Outcome State Fault Refusal :=
  onDev (fun d =>
    if !d.on F.ddr_CFG_TRAINED then d
    else
      let d := when (hot && !d.on F.ddr_REF_CTRL_TEMP_2X) (fun d => d.raise ddrPage 10) d
      let d := d.p F.ddr_REF_CTRL_TEMP_2X (b2n hot)
      let o := d.g (owed sc.val)
      if !d.ddr.class0 sc.val then (d.refresh sc.val).schedule sc.val
      else if o < d.g F.ddr_REF_CTRL_POSTPONE_MAX then d.p (owed sc.val) (o + 1)
      else
        let d := (d.bump F.ddr_REF_STAT_FORCED_COUNT).raise ddrPage 4
        ({ d with ddr := { d.ddr with forced := d.ddr.forced ++ [sc.val] } }).schedule sc.val) s

/-- OWED_REFRESH (R371): with no class 0 fragment waiting, one owed refresh is issued. -/
def execOwedRefresh (sc : Fin 2) (s : State) : Host.Outcome State Fault Refusal :=
  onDev (fun d =>
    let o := d.g (owed sc.val)
    when (decide (o ≠ 0) && !d.ddr.class0 sc.val) (fun d => ((d.p (owed sc.val) (o - 1)).refresh sc.val).schedule sc.val) d) s

/-- RFM (R373): issued on a bank whose count has reached RAAIMT, at the end of the fragment in progress. -/
def execRfm (sc : Fin 2) (bank : Fin 32) (s : State) : Host.Outcome State Fault Refusal :=
  onDev (fun d =>
    let b := 32 * sc.val + bank.val
    let n := Tab.at 0 d.ddr.raa b
    when (d.on F.ddr_NR_CTRL_RFM_REQ && decide (n ≠ 0 ∧ d.ddr.raaimt ≤ n) && (d.ddr.run sc.val).isNone) (fun d => (d.rfmBank b).schedule sc.val) d) s

/-- Power-down ends where it is no longer allowed (R374): PD_EN = 0, or ARMED and RUNNING with RUN_PD = 0. -/
def Dev.pdLeave (d : Dev) : Dev :=
  if d.on F.ddr_PD_CTRL_PD_EN && (d.on F.ddr_PD_CTRL_RUN_PD || !d.armedOrRunning) then d else { d with ddr := { d.ddr with powerDown := [] } }

/-- POWER_DOWN_ENTRY (R374). -/
def execPowerDownEntry (sc : Fin 2) (s : State) : Host.Outcome State Fault Refusal :=
  onDev (fun d =>
    let idle := !(d.ddr.frags ++ (d.ddr.run sc.val).toList).any (fun x => burstSc x.burst == sc.val)
      && decide (d.g F.ddr_PD_CTRL_PD_IDLE * 5 ≤ (d.now - Tab.at 0 d.ddr.lastFrag sc.val) * 8)
    let ok := d.on F.ddr_CFG_TRAINED && d.on F.ddr_PD_CTRL_PD_EN && (d.on F.ddr_PD_CTRL_RUN_PD || !d.armedOrRunning)
      && idle && decide (sc.val ∉ d.ddr.powerDown)
    when ok (fun d => { d with ddr := { d.ddr with powerDown := d.ddr.powerDown ++ [sc.val],
                                                   rows := d.ddr.rows.filter (fun e => e.1 / 32 != sc.val) } }) d) s

/-- SCRUB_STEP (R375): the patrol reads the next burst, which waits while a repair occupies its subchannel (R377); `counts` are the devices' error check and scrub counts, read at the pass's end
(R358). -/
def execScrubStep (syms : List (Fin 80)) (counts : List Word) (s : State) : Host.Outcome State Fault Refusal :=
  onMem (fun r =>
    let total := r.1.capacity / 64
    let k := r.1.ddr.scrub % total
    if !r.1.on F.ddr_CFG_TRAINED || r.1.g F.ddr_SCRUB_HOURS == 0 || total == 0 || r.1.repairing (burstSc k) then r
    else
      let r := settle k r
      let (_, d) := (r.1.touch k).readDelivered 3 k syms
      let n := k + 1
      if n < total then (({ d with ddr := { d.ddr with scrub := n } }).p F.ddr_SCRUB_STAT_PCT (n * 100 / total), r.2)
      else
        let d := ({ d with ddr := { d.ddr with scrub := 0, rowCe := [] } }).p F.ddr_SCRUB_STAT_PCT 0
        ((d.bump F.ddr_SCRUB_STAT_PASSES).raise ddrPage 9 (counts.map (fun (x : Word) => x.toNat)), r.2)) s

/-- Pending candidates commit as remaps at a layer boundary (R377): those recorded before its cycle 0. One whose bank group has no resource left by then is
exhausted (R378). -/
def Dev.pprCommit (d : Dev) : Dev :=
  if !d.on F.ddr_PPR_CTRL_AUTO then d
  else
    let l := idxs 8 (fun i => d.g (F.ddr_PPR_LOGi_STATE i) == 1 && decide (Tab.at 0 d.ddr.logAt i < d.time.frame * 1250) && decide (i ∉ d.ddr.committed))
    let res (i : Nat) : Nat := Tab.at 0 d.ddr.res (d.g (F.ddr_PPR_LOGi_DEV i) * 8 + burstBg (d.g2 (F.ddr_PPR_LOGi_ADDR_LO i) (F.ddr_PPR_LOGi_ADDR_HI i) / 64))
    let out := l.filter (fun i => res i == 0)
    let d := Dev.pprStat { d with ddr := { d.ddr with committed := d.ddr.committed ++ l.filter (fun i => res i != 0) } }
    out.foldl (fun d i => (d.p (F.ddr_PPR_LOGi_STATE i) 4).pprStat.raise ddrPage 8) d

/-- PPR_REPAIR_DONE (R377, R378): the first committed row's repair ends; then the fragments that have waited go on. -/
def execPprRepairDone (s : State) : Host.Outcome State Fault Refusal :=
  onDev (fun d => if d.ddr.committed = [] then d else (d.repairNext.schedule 0).schedule 1) s

/-- A write of PPR_CMD (R379, R380): OP 1 marks every soft-repaired row for hardening, in IDLE only; OP 2 empties the pending entries that are not
being repaired. -/
def Dev.pprCmd (d : Dev) (v : Word) : Dev :=
  if Word.f v 31 16 ≠ 0x5050 then d
  else match Word.f v 1 0 with
  | 1 =>
    if !d.isSt .idle then d.p F.ddr_PPR_STAT_STATE 3
    else (forN 8 (fun i d => when (d.g (F.ddr_PPR_LOGi_STATE i) == 2) (fun d => d.p (F.ddr_PPR_LOGi_STATE i) 3) d)
      (d.p F.ddr_PPR_STAT_STATE 0)).pprStat
  | 2 => (forN 8 (fun i d => when (d.g (F.ddr_PPR_LOGi_STATE i) == 1 && decide (i ∉ d.ddr.committed)) (fun d =>
        (((d.p (F.ddr_PPR_LOGi_STATE i) 0).p2 (F.ddr_PPR_LOGi_ADDR_LO i) (F.ddr_PPR_LOGi_ADDR_HI i) 0).p (F.ddr_PPR_LOGi_DEV i) 0).p
          (F.ddr_PPR_LOGi_CE i) 0) d) (d.p F.ddr_PPR_STAT_STATE 0)).pprStat
  | _ => d
/-- HARDEN (R379). -/
def execHarden (val : Word) (s : State) : Host.Outcome State Fault Refusal :=
  hosted F.ddr_PPR_CMD_OP.addr (onDev (fun d => if Word.f val 1 0 = 1 then d.pprCmd val else d)) s
/-- CLEAR_PENDING (R380). -/
def execClearPending (val : Word) (s : State) : Host.Outcome State Fault Refusal :=
  hosted F.ddr_PPR_CMD_OP.addr (onDev (fun d => if Word.f val 1 0 = 2 then d.pprCmd val else d)) s

/-- PPR_HARDEN_DONE (R379): in ROM the first row marked for hardening is read, hard-repaired and written back; its entry is free again. -/
def execPprHardenDone (s : State) : Host.Outcome State Fault Refusal :=
  onDev (fun d =>
    match (List.range 8).find? (fun i => d.g (F.ddr_PPR_LOGi_STATE i) == 3) with
    | none => d
    | some i => when (d.isSt .rom && d.on F.ddr_CFG_TRAINED) (fun d =>
        let d := d.rowRewrite (d.g2 (F.ddr_PPR_LOGi_ADDR_LO i) (F.ddr_PPR_LOGi_ADDR_HI i) / 64)
        ((((d.p (F.ddr_PPR_LOGi_STATE i) 0).p2 (F.ddr_PPR_LOGi_ADDR_LO i) (F.ddr_PPR_LOGi_ADDR_HI i) 0).p (F.ddr_PPR_LOGi_DEV i) 0).p
          (F.ddr_PPR_LOGi_CE i) 0).pprStat.raise ddrPage 7) d) s

end Sys2Proof.Machine
end

