-- ==== Sys2Proof/Machine/Header.lean ====
section
/-!
DEFINITION. The page header: access codes, LOCK, errors, shadow commit, events and vectors of one page (00 R12 to R14, 02 R51 to R61).
-/
namespace Sys2Proof.Machine

/-- The bits of a word that the rows with these access codes cover. -/
def accMask (rows : List RegRow) (p : Acc → Bool) : Nat :=
  rows.foldl (fun m r => if p r.acc then m ||| maskBits r.hi r.lo else m) 0

/-- PAGE_CTRL.ENABLE of a page. -/
def Dev.enabled (d : Dev) (page : Nat) : Bool := d.on (F.hdr_PAGE_CTRL_ENABLE page)
/-- LOCK of a page (02 R53). -/
def Dev.locked (d : Dev) (page : Nat) : Bool := d.on (F.hdr_PAGE_CTRL_LOCK page)

/-- A write presented less than 300 ns, 150 CLK_RT cycles, before the coming boundary (01 R536). -/
def Dev.isLate (d : Dev) : Bool := decide (1100 < d.time.cycle)
/-- The boundary that a value presented now may or may not reach, 0 when it surely reaches the next. -/
def Dev.lateDue (d : Dev) : Nat := if d.isLate then d.time.frame + 1 else 0

/-- Would the write change an RW or RWS field of a locked page (02 R53). -/
def Dev.lockRefuses (d : Dev) (addr : Nat) (v : Word) (rows : List RegRow) : Bool :=
  let m := BitVec.ofNat 32 (accMask rows (fun a => a == .rw || a == .rws))
  d.locked (pageBase addr) && ((d.reg addr ^^^ v) &&& m) != 0

/-- A write guarded by the page's LOCK: `k` when it is let through. -/
def Dev.guarded (d : Dev) (addr : Nat) (v : Word) (rows : List RegRow) (k : Dev → Dev) : Dev :=
  if d.lockRefuses addr v rows then d.errAt 0x81 addr else k d

/-- The effect of a write by its access codes alone (00 R12): RW at once, W1C clears, RWS waits for its commit. -/
def Dev.byAccess (d : Dev) (addr : Nat) (v : Word) (rows : List RegRow) : Dev :=
  let rw := BitVec.ofNat 32 (accMask rows (fun a => a == .rw || a == .rws))
  let c := BitVec.ofNat 32 (accMask rows (fun a => a == .w1c))
  let sh := accMask rows (fun a => a == .rws)
  let (keep, d) := if c = 0 then (0, d) else d.keptBits addr (v &&& c)
  let d := d.setReg addr (Word.mix (d.reg addr) rw v &&& ~~~(v &&& c &&& ~~~keep))
  when (decide (sh ≠ 0))
    (fun d => { d with regs := { d.regs with pend := d.regs.pend ++ [⟨addr, sh, v.toNat, d.lateDue⟩] } }) d

/-- A write of a register that has no behaviour of its own. -/
def Dev.plainWrite (d : Dev) (addr : Nat) (v : Word) : Dev :=
  match pageOf addr with
  | none => d
  | some (p, _) => let rows := rowsAt p.pg (addr % 0x1000); d.guarded addr v rows (fun d => d.byAccess addr v rows)

/-- A write of a register whose fields are writable in IDLE only (02 R55 code 0x82). This check comes before that of LOCK (log 75). -/
def Dev.idleOnly (d : Dev) (addr : Nat) (k : Dev → Dev) : Dev := if d.isSt .idle then k d else d.errAt 0x82 addr

/-- A write of a value that a check refuses (02 R55 code 0x83). -/
def Dev.checked (d : Dev) (addr : Nat) (ok : Bool) (k : Dev → Dev) : Dev := if ok then k d else d.errAt 0x83 addr

/-- ERR_CLR (02 R53). -/
def Dev.errClr (d : Dev) (page : Nat) : Dev := (d.setReg (page + 0x20) 0).setReg (page + 0x24) 0

/-- A W1C write to EVT_RAW: the named events are cleared, but for those set in the same cycle (00 R14), and the page's vector sends again if it is still asserted (02 R60). -/
def Dev.evtRawWrite (d : Dev) (page : Nat) (v : Word) : Dev :=
  let (keep, d) := d.keptBits (page + 0x10) v
  let d := d.setReg (page + 0x10) (d.reg (page + 0x10) &&& ~~~(v &&& ~~~keep))
  when (d.on (F.hdr_EVT_ROUTE_ROUTE_EN page)) (fun d => d.vecSync (d.g (F.hdr_EVT_ROUTE_VECTOR page)) true) d

/-- A write to EVT_EN (02 R60). It stays writable while the page is locked (02 R53). -/
def Dev.evtEnWrite (d : Dev) (page : Nat) (v : Word) : Dev :=
  let d := d.setReg (page + 0x14) v
  when (d.on (F.hdr_EVT_ROUTE_ROUTE_EN page)) (fun d => d.vecSync (d.g (F.hdr_EVT_ROUTE_VECTOR page)) true) d

/-- A write to EVT_ROUTE: the vectors it leaves and reaches are brought up to date (02 R59). -/
def Dev.evtRouteWrite (d : Dev) (page : Nat) (v : Word) : Dev :=
  let old := d.g (F.hdr_EVT_ROUTE_VECTOR page)
  let d := (d.p (F.hdr_EVT_ROUTE_ROUTE_EN page) (Word.f v 31 31)).p (F.hdr_EVT_ROUTE_VECTOR page) (Word.f v 5 0)
  (d.vecSync old false).vecSync (d.g (F.hdr_EVT_ROUTE_VECTOR page)) false

/-- A write to EVT_FORCE: each 1 sets its event as if it occurred and writes a forced record without payload (02 R52, 15 R443);
refused on a locked page when it carries any 1 (02 R53). -/
def Dev.evtForceWrite (d : Dev) (page : Nat) (v : Word) : Dev :=
  if d.locked page && v != 0 then d.errAt 0x81 (page + 0x18)
  else forN 32 (fun b d => when (v.getLsbD b) (fun d => d.raise page b [] true) d) d

/-- A write to SHADOW_CTRL.POINT (02 R53, R57, 19 R508). One in the last 300 ns before a boundary counts at that boundary (log 72). -/
def Dev.pointWrite (d : Dev) (page : Nat) (v : Word) : Dev :=
  match pageOf page with
  | none => d
  | some (p, _) =>
    let a := page + 0x28
    if !p.shd then d.errAt 0x86 a
    else if Word.f v 1 0 = 1 && !p.lc then d.errAt 0x83 a
    else if d.locked page && Word.f v 1 0 != d.g (F.hdr_SHADOW_CTRL_POINT page) then d.errAt 0x81 a
    else d.p (F.hdr_SHADOW_CTRL_POINT page) (Word.f v 1 0)

/-- SYS.SHADOW_RELEASE (02 R58): every page at HOLD moves to LAYER when bit 1 is set and it may commit there, else to FRAME. -/
def Dev.shadowRelease (d : Dev) (v : Word) : Dev :=
  if Word.f v 1 0 = 0 then d
  else forL (pageIndex.filter (·.shd)) (fun p d =>
    forN p.count (fun i d =>
      let f := F.hdr_SHADOW_CTRL_POINT (p.base + 0x1000 * i)
      when (decide (2 ≤ d.g f)) (fun d => d.p f (if Word.f v 1 1 = 1 && p.lc then 1 else 0)) d) d) d

/-- Does this page commit at a boundary, frame or layer (02 R57). -/
def Dev.commitsAt (d : Dev) (page : Nat) (layer : Bool) : Bool :=
  let p := d.g (F.hdr_SHADOW_CTRL_POINT page)
  p == 0 || (layer && p == 1)

/-- One pending write takes effect. -/
def Dev.applyPend (d : Dev) (w : WPend) : Dev :=
  d.setLive w.addr (Word.mix (d.liveReg w.addr) (BitVec.ofNat 32 w.mask) (BitVec.ofNat 32 w.val))

/-- At a frame boundary it is settled which of the late writes have crossed: a free number of them, the oldest first (01 R536; log 4). The rest will
have crossed at the next boundary. -/
def Dev.crossing (d : Dev) : Dev :=
  let now := d.time.frame
  let late := d.regs.pend.filter (fun w => decide (w.due = now ∧ now ≠ 0))
  if late = [] then d
  else
    let (r, d) := d.draw
    let n := r % (late.length + 1)
    let sure := d.regs.pend.filter (fun w => !decide (w.due = now ∧ now ≠ 0))
    { d with regs := { d.regs with pend := sure ++ (late.take n).map (fun w => { w with due := 0 }) ++ late.drop n } }

/-- The shadow commit of a boundary (02 R56, R57): every page that commits at this kind of boundary takes all writes that have crossed
at once and counts one commit. -/
def Dev.commit (d : Dev) (layer : Bool) : Dev :=
  let goes (w : WPend) : Bool := decide (w.due < d.time.frame ∨ w.due = 0) && d.commitsAt (pageBase w.addr) layer
  let go := d.regs.pend.filter goes
  let d := go.foldl Dev.applyPend { d with regs := { d.regs with pend := d.regs.pend.filter (fun w => !goes w) } }
  ((go.map (fun w => pageBase w.addr)).eraseDups).foldl (fun d p => d.bumpW (F.hdr_SHADOW_CTRL_COMMIT_COUNT p)) d

/-- The registers of a page above its header back at their reset values, and no RWS write of it pending. -/
def Dev.resetPage (d : Dev) (page : Nat) : Dev :=
  let keep (k : Nat) : Bool := decide (k < page + 0x40 ∨ page + 0x1000 ≤ k)
  { d with regs := { d.regs with cur := d.regs.cur.filter (fun e => keep e.1), live := d.regs.live.filter (fun e => keep e.1),
                                 pend := d.regs.pend.filter (fun w => keep w.addr) } }

end Sys2Proof.Machine
end

