-- ==== Sys2Proof/Machine/Seq.lean ====
section
/-!
DEFINITION. The exposure contexts, the sequencer table and the sequencer's own entries (03 R75 to R97, R111).
-/
namespace Sys2Proof.Machine

/-! ### Contexts (R95 to R97) -/

/-- The bits that a context entry's word holds (R95); reserved bits read 0. -/
def ctxMask (o : Nat) : Nat :=
  if o = 0x00 then 0x800001EF
  else if o < 0x2C then 0xFFFFFF
  else if o < 0x48 then 0xFFFFFFFF
  else if o = 0x48 then 0xFFFF
  else if o < 0x58 then 0xFFFFFFFF
  else if o = 0x58 then 0xFF07
  else 0

/-- A word of the context in force. -/
def Dev.cw (d : Dev) (n o : Nat) : Nat := if n = 0 then 0 else (Tab.at 0 d.ctxLive (n * 0x80 + o)).toNat
/-- The 23 words of the context in force: what a vector keeps to its end (R98). -/
def Dev.ctxWords (d : Dev) (n : Nat) : List Nat := (List.range 23).map (fun i => d.cw n (4 * i))
/-- VALID of the context in force. -/
def Dev.ctxValid (d : Dev) (n : Nat) : Bool := decide (n ≠ 0) && bit (d.cw n 0) 31

/-- A word of a context kept by a vector, by its offset. -/
def cxw (c : List Nat) (o : Nat) : Nat := nth c (o / 4)
/-- The same as signed. -/
def cxi (c : List Nat) (o : Nat) : Int := sx 32 (cxw c o)

/-- The checks of R96 on the words of a context with VALID = 1: the offset of the first field, in offset order, that fails. -/
def ctxCheck (c : List Nat) : Option Nat :=
  let w := cxw c
  let i := cxi c
  let inR (o : Nat) (m : Int) : Bool := decide (-m ≤ i o ∧ i o ≤ m)
  let pitch := w 0x44
  let width := w 0x48
  let checks : List (Nat × Bool) :=
    [(0x04, decide (w 0x08 ≤ w 0x04 ∧ w 0x04 ≤ w 0x0C))] ++
    [0x14, 0x18, 0x1C, 0x20, 0x24, 0x28].map (fun o => (o, decide (w o ≠ 0))) ++
    [0x2C, 0x30, 0x34, 0x38].map (fun o => (o, inR o 40000)) ++
    [0x3C, 0x40].map (fun o => (o, inR o 100000)) ++
    [(0x44, (decide (pitch = 0) || decide (1000 ≤ pitch ∧ pitch ≤ 10000000)) && (decide (pitch = 0) == decide (width = 0))),
     (0x4C, decide (w 0x4C ≤ 10000000)), (0x50, decide (w 0x50 ≤ 10000000))]
  (checks.find? (fun e => !e.2)).map (·.1)

/-- CTX_PEND bit of a context (R111). -/
def ctxPendFld (n : Nat) : Fld := ⟨0x8080 + 4 * (n / 32), n % 32, n % 32⟩

/-- Window writes that have crossed by now reach the context table. -/
def Dev.ctxFlush (d : Dev) : Dev :=
  let go := d.seq.ctxLate.filter (fun e => decide (e.2.2 ≤ d.time.frame))
  let stay := d.seq.ctxLate.filter (fun e => !decide (e.2.2 ≤ d.time.frame))
  go.foldl (fun d e => { d with ctxCrossed := Tab.set 0 d.ctxCrossed e.1 (BitVec.ofNat 32 e.2.1) }) { d with seq := { d.seq with ctxLate := stay } }

/-- A write of the context window (R76, R97): CTX0 is discarded and counted, reserved words are discarded. -/
def Dev.ctxWindowWrite (d : Dev) (ofs : Nat) (v : Word) : Dev :=
  let o := ofs / 4 * 4
  if o < 0x80 then d.err 0x8000 0x82 o (0x1000000 + o)
  else
    let w := v &&& BitVec.ofNat 32 (ctxMask (o % 0x80))
    let d := Dev.ctxFlush { d with ctxWin := Tab.set 0 d.ctxWin o w }
    if d.isLate then { d with seq := { d.seq with ctxLate := d.seq.ctxLate ++ [(o, w.toNat, d.lateDue)] } }
    else { d with ctxCrossed := Tab.set 0 d.ctxCrossed o w }

/-- SEQ.CTX_COMMIT (R97): a second request for the same context replaces the first. -/
def Dev.ctxCommitWrite (d : Dev) (v : Word) : Dev :=
  let n := Word.f v 7 0
  if n = 0 then d.errAt 0x82 0x8070
  else
    let q := d.seq.ctxReq.filter (fun r => r.1 != n)
    ({ d with seq := { d.seq with ctxReq := q ++ [(n, decide (Word.f v 8 8 = 1), d.lateDue)] } }).p (ctxPendFld n) 1

/-- One context commits or is refused (R96, R97). -/
def Dev.ctxTake (d : Dev) (n : Nat) : Dev :=
  let c := (List.range 23).map (fun i => (Tab.at 0 d.ctxCrossed (n * 0x80 + 4 * i)).toNat)
  let d := d.p (ctxPendFld n) 0
  match (if bit (nth c 0) 31 then ctxCheck c else none) with
  | some o => (d.err 0x8000 0x83 o n).raise 0x8000 6
  | none => forN 23 (fun i d => { d with ctxLive := Tab.set 0 d.ctxLive (n * 0x80 + 4 * i) (BitVec.ofNat 32 (nth c i)) }) d

/-- At a frame boundary it is settled which of the late window writes and requests have crossed (01 R536; log 4): a free number of the writes, the oldest
first, and the late requests or none of them. -/
def Dev.ctxCrossing (d : Dev) : Dev :=
  let now := d.time.frame
  let late (n : Nat) : Bool := decide (n = now ∧ now ≠ 0)
  let old := d.seq.ctxLate.filter (fun e => !late e.2.2)
  let new := d.seq.ctxLate.filter (fun e => late e.2.2)
  let (r, d) := if !new.isEmpty || d.seq.ctxReq.any (fun q => late q.2.2) then d.draw else (0, d)
  let n := r % (new.length + 1)
  let inB := decide (r / (new.length + 1) % 2 = 1)
  let d := (old ++ new.take n).foldl (fun d e => { d with ctxCrossed := Tab.set 0 d.ctxCrossed e.1 (BitVec.ofNat 32 e.2.1) }) d
  { d with seq := { d.seq with ctxLate := new.drop n, ctxReq := d.seq.ctxReq.map (fun q => if late q.2.2 && inB then (q.1, q.2.1, 0) else q) } }

/-- The context commits of a boundary: every request that has crossed and counts at this kind of boundary (R97). -/
def Dev.ctxCommit (d : Dev) (layer : Bool) : Dev :=
  let counts (q : Nat × Bool × Nat) : Bool := (!q.2.1 || layer) && decide (q.2.2 < d.time.frame ∨ q.2.2 = 0)
  let go := d.seq.ctxReq.filter counts
  let d := { d with seq := { d.seq with ctxReq := d.seq.ctxReq.filter (fun q => !counts q) } }
  go.foldl (fun d q => d.ctxTake q.1) d

/-! ### The sequencer table (R77, R83 to R86) -/

/-- A write of the sequencer table window: accepted in IDLE only (R77). -/
def Dev.seqTableWrite (d : Dev) (ofs : Nat) (v : Word) : Dev :=
  let o := ofs / 4 * 4
  if d.isSt .idle then { d with seqTab := Tab.set 0 d.seqTab o v } else d.err 0x8000 0x82 (o % 65536) (0x1010000 + o)

/-- Word `k` of entry `e`. -/
def Dev.ent (d : Dev) (e k : Nat) : Nat := (Tab.at 0 d.seqTab (16 * e + 4 * k)).toNat
/-- OP, FLAGS and the arguments of an entry (R83). -/
def Dev.entOp (d : Dev) (e : Nat) : Nat := bits (d.ent e 0) 31 24
def Dev.entFlags (d : Dev) (e : Nat) : Nat := bits (d.ent e 0) 23 16
def Dev.entA0 (d : Dev) (e : Nat) : Nat := bits (d.ent e 0) 15 0
def Dev.entA1 (d : Dev) (e : Nat) : Nat := d.ent e 1
def Dev.entA2 (d : Dev) (e : Nat) : Nat := d.ent e 2
def Dev.entA3 (d : Dev) (e : Nat) : Nat := d.ent e 3

/-- Which of FLAGS [0], ARG0, ARG1, ARG2, ARG3 an operation uses (R84). -/
def opUses : Nat → Option (Bool × Bool × Bool × Bool × Bool)
  | 0x00 | 0x01 | 0x02 | 0x03 | 0x0D => some (false, false, false, false, false)
  | 0x04 => some (true, true, true, false, false)
  | 0x05 => some (false, true, true, false, false)
  | 0x06 => some (false, false, true, false, false)
  | 0x07 => some (false, false, true, true, false)
  | 0x08 => some (false, true, true, true, true)
  | 0x09 => some (false, false, true, false, false)
  | 0x0A | 0x0B => some (false, true, false, false, false)
  | 0x0C => some (true, true, false, false, false)
  | _ => none

/-- Are the arguments of an entry in their ranges (R86 code 7). -/
def Dev.entRangeOk (d : Dev) (e : Nat) : Bool :=
  let a0 := d.entA0 e
  let a1 := d.entA1 e
  let a2 := d.entA2 e
  match d.entOp e with
  | 0x04 => decide (a0 ≠ 0 ∧ a1 ≤ 7)
  | 0x05 => decide (a0 ≠ 0)
  | 0x06 => decide (1 ≤ a1)
  | 0x07 => decide (a1 ≠ 0 ∧ a1 < 65536 ∧ a2 < 65536)
  | 0x08 => decide (a0 ≤ 1 ∧ a1 ≠ 0 ∧ (a0 = 1 → a1 < 65536 ∧ a2 < 65536))
  | _ => true

/-- The first check of an entry that fails, in the order of R86: codes 2, 3, 7, 4. -/
def Dev.entCheck (d : Dev) (len e : Nat) : Option Nat :=
  match opUses (d.entOp e) with
  | none => some 2
  | some (f, u0, u1, u2, u3) =>
    let clean := (f || decide (d.entFlags e % 2 = 0)) && decide (d.entFlags e < 2) && (u0 || decide (d.entA0 e = 0)) && (u1 || decide (d.entA1 e = 0))
      && (u2 || decide (d.entA2 e = 0)) && (u3 || decide (d.entA3 e = 0))
    if !clean then some 3
    else if !d.entRangeOk e then some 7
    else if d.entOp e ∈ [0x0A, 0x0B, 0x0C] && decide (len ≤ d.entA0 e) then some 4
    else none

/-- From the entry after an EXPOSE: is a LAYER_CLOSE met before another EXPOSE or LAYER_OPEN (R86). -/
def Dev.closeFollows (d : Dev) (len : Nat) : Nat → Nat → Bool
  | 0, _ => false
  | n + 1, e =>
    if len ≤ e then false
    else if d.entOp e = 0x03 then true
    else if d.entOp e = 0x01 ∨ d.entOp e = 0x02 then false
    else d.closeFollows len n (e + 1)

/-- Validation of the table (R86): the first failing check as (code, entry), none when it passes. -/
def Dev.tblValidate (d : Dev) : Option (Nat × Nat) :=
  let len := d.g F.seq_TBL_LEN
  if len = 0 ∨ 4096 < len then some (1, 0)
  else match (List.range len).findSome? (fun e => (d.entCheck len e).map (fun c => (c, e))) with
    | some r => some r
    | none =>
      if !(d.entOp (len - 1) = 0x0D || d.entOp (len - 1) = 0x0A) then some (8, len - 1)
      else if !([0x01, 0x02, 0x03, 0x0D] : List Nat).all (fun op => (List.range len).any (fun e => d.entOp e == op)) then some (5, 0)
      else ((List.range len).find? (fun e => d.entOp e == 0x02 && !d.closeFollows len len (e + 1))).map (fun e => (6, e))

/-- Validate and report in TBL_STAT (R86). -/
def Dev.tblCheck (d : Dev) : Dev :=
  match d.tblValidate with
  | none => ((d.p F.seq_TBL_STAT_ERR_ENTRY 0).p F.seq_TBL_STAT_ERR_CODE 0).p F.seq_TBL_STAT_VALID 1
  | some (c, e) => ((d.p F.seq_TBL_STAT_ERR_ENTRY e).p F.seq_TBL_STAT_ERR_CODE c).p F.seq_TBL_STAT_VALID 0

/-! ### Register writes of the SEQ page (R111) -/

/-- LQ_CTRL.RESET: LQ_RD to 0, in IDLE (R111). -/
def Dev.lqReset (d : Dev) (v : Word) : Dev :=
  if Word.f v 0 0 = 0 then d else d.idleOnly 0x8060 (fun d => d.p F.seq_LQ_RD 0)

/-- SEQ.CONTINUE (R87): the key restarts a stalled entry and its timeout; anything else does nothing. -/
def Dev.seqContinue (d : Dev) (v : Word) : Dev :=
  if Word.f v 15 0 = 0x434F ∧ d.g F.seq_SEQ_STAT_STEP = 4 then
    ({ d with seq := { d.seq with takenFrame := d.time.frame } }).p F.seq_SEQ_STAT_STEP 2
  else d

/-- A write of a SEQ block register. -/
def Dev.seqWrite (d : Dev) (addr : Nat) (v : Word) : Dev :=
  let plain (d : Dev) : Dev := d.plainWrite addr v
  match addr with
  | 0x8044 | 0x8050 | 0x8054 => d.idleOnly addr plain
  | 0x8058 => d.idleOnly addr (fun d => d.checked addr (decide (2 ≤ v.toNat ∧ v.toNat ≤ 4096)) plain)
  | 0x804C => if Word.f v 0 0 = 1 then d.tblCheck else d
  | 0x8060 => d.lqReset v
  | 0x8070 => d.ctxCommitWrite v
  | 0x807C => d.seqContinue v
  | _ => plain d

/-! ### Entries (R84, R85) -/

/-- PC of the sequencer. -/
def Dev.pc (d : Dev) : Nat := d.g F.seq_SEQ_STAT_PC
/-- The entry at PC was just taken and is this operation. -/
def Dev.fresh (d : Dev) (op : Nat) : Bool := d.isSt .running && d.seq.fresh && decide (d.entOp d.pc = op)
/-- The entry at PC is this operation, was executed and waits. -/
def Dev.waiting (d : Dev) (op : Nat) : Bool :=
  d.isSt .running && !d.seq.fresh && !d.seq.done && decide (d.entOp d.pc = op)
/-- The entry completes; the sequencer takes entry `n` next. -/
def Dev.complete (d : Dev) (n : Nat) : Dev :=
  ({ d with seq := { d.seq with fresh := false, done := true, next := n } }).p F.seq_SEQ_STAT_STEP 1
/-- The entry waits in this step state. -/
def Dev.wait (d : Dev) (step : Nat) : Dev :=
  ({ d with seq := { d.seq with fresh := false, done := false } }).p F.seq_SEQ_STAT_STEP step
/-- The sequencer takes entry `e` (R85). -/
def Dev.take (d : Dev) (e : Nat) : Dev :=
  ((({ d with seq := { d.seq with fresh := true, done := false, takenFrame := d.time.frame, waitLogged := false } }).p
    F.seq_SEQ_STAT_PC e).p F.seq_SEQ_STAT_STEP 1)

/-- A waiting entry completes at the present boundary: entry `n` is taken at cycle 16 of the frame that begins (R84, R85). -/
def Dev.pass (d : Dev) (n : Nat) : Dev := (d.complete n).take n

/-- A run ends: the sequencer stops (R111 STEP 0). -/
def Dev.seqStop (d : Dev) : Dev :=
  ({ d with seq := { d.seq with fresh := false, done := false, okFrame := none } }).p F.seq_SEQ_STAT_STEP 0

/-- A STOP is pending: the host's, or the host watchdog's (R71, R74). -/
def Dev.stopPending (d : Dev) : Bool := d.ctl.cmd == 3 || d.ctl.stopInt

/-- A STOP meets the LAYER_OPEN entry with no layer open (R88): the entry is saved and ARMED follows at the next frame boundary. -/
def Dev.stopAtOpen (d : Dev) : Dev :=
  ({ d with seq := { d.seq with endFrame := some d.time.frame, endIsStop := true } }).p F.seq_RESUME_ENTRY d.pc

/-- DI levels as filtered, DI0 to DI31 or DI32 to DI47 (17 R485). -/
def Dev.diBank (d : Dev) (bank : Nat) : Nat := if bank = 0 then d.g F.iso_DI_LO else d.g F.iso_DI_HI

/-- IN_WAIT's condition: the masked inputs have the given values (R84). -/
def Dev.inWaitOk (d : Dev) (e : Nat) : Bool :=
  ((d.diBank (d.entA0 e)) ^^^ (d.entA2 e)) &&& (d.entA1 e) == 0

/-- AUX_WAIT's condition: every axis in the mask reports its move done (R84). -/
def Dev.auxWaitOk (d : Dev) (e : Nat) : Bool :=
  (List.range 16).all (fun a => !bit (d.entA0 e) a || d.on (F.ax_AX_STAT_DONE a))

/-- An AUX_WAIT whose mask holds an axis in ERROR, or one with START_REFUSED set, stalls at once (10 R324). -/
def Dev.auxBad (d : Dev) (e : Nat) : Bool :=
  (List.range 16).any (fun a => bit (d.entA0 e) a && (d.g (F.ax_AX_STAT_STATE a) == 5 || d.on (F.ax_AX_FLAGS_START_REFUSED a)))

/-- The condition of the AUX_WAIT or IN_WAIT entry that waits. -/
def Dev.waitOk (d : Dev) : Bool := if d.entOp d.pc = 0x05 then d.auxWaitOk d.pc && !d.auxBad d.pc else d.inWaitOk d.pc
/-- Its timeout in frames, 0 for none. -/
def Dev.waitTimeout (d : Dev) : Nat := if d.entOp d.pc = 0x05 then d.entA1 d.pc else d.entA3 d.pc

/-! ### The layer queue (R78 to R80) -/

/-- The DRAM offset of the descriptor at an index. -/
def Dev.lqAddr (d : Dev) (i : Nat) : Nat := d.g F.seq_LQ_BASE_LO * 1024 + d.g F.seq_LQ_BASE_HI * 2 ^ 32 + 1024 * i
/-- READY as it must stand for a layer number. -/
def readyWord (num : Nat) : Nat := 0x52440000 + num % 65536

/-- The heads of a descriptor's head mask, in rising order. -/
def descHeads (w : List Nat) : List Nat :=
  (List.range 48).filter (fun h => bit (if h < 32 then nth w 3 else nth w 4) (h % 32))

/-- The first check of R80 that fails on a ready descriptor: the offset of the failing field. The hidden streams of SC-12 mode lie in the device
region (18 R498; log 36). A stream that reaches the device region is reported at its STREAM_ADDR. DESIGN CHOICE (log 116). -/
def Dev.lqCheck (d : Dev) (w : List Nat) : Option Nat :=
  let num := nth w 1
  let heads := descHeads w
  let addr (h : Nat) : Nat := nth w (16 + 4 * h) + nth w (17 + 4 * h) * 2 ^ 32
  let cnt (h : Nat) : Nat := nth w (18 + 4 * h)
  let ctx (h : Nat) : Nat := nth w (19 + 4 * h)
  if d.seq.closedSince && num != (d.g F.seq_LAYER_NUM + 1) % 2 ^ 32 then some 0x004
  else match heads.findSome? (fun h =>
      if addr h % 32 ≠ 0 then some (0x40 + 16 * h)
      else if cnt h = 0 then some (0x48 + 16 * h)
      else if d.devRegion < addr h + 32 * cnt h ∧ d.g F.sys_SYS_STATE_MODE ≠ 2 then some (0x40 + 16 * h)
      else none) with
    | some o => some o
    | none => match heads.find? (fun h => !d.ctxValid (ctx h % 256)) with
      | some h => some (0x4C + 16 * h)
      | none =>
        if 2 ≤ nth w 2 then some 0x008
        else if 65536 ≤ nth w 4 then some 0x010
        else if nth w 7 ≠ 0 then some 0x01C
        else match (List.range 4).find? (fun i => nth w (12 + i) != 0) with
          | some i => some (0x030 + 4 * i)
          | none => match (List.range 48).find? (fun h => 256 ≤ ctx h) with
            | some h => some (0x4C + 16 * h)
            | none => ((List.range 48).find? (fun i => nth w (208 + i) != 0)).map (fun i => 0x340 + 4 * i)

/-- LQ_POLL (R80, 01 R23): in the layer-wait step the sequencer reads the next descriptor once in the frame. `w` is the descriptor's
256 words, none when the read met an uncorrectable error, which counts as not ready (01 R24). -/
def Dev.lqPoll (d : Dev) (w : Option (List Nat)) : Dev :=
  let w := w.getD []
  let idx := d.g F.seq_LQ_RD
  if nth w 0 ≠ readyWord (nth w 1) ∨ w = [] then
    let d := { d with seq := { d.seq with badLogged := false, okFrame := none } }
    if d.seq.waitLogged then d else ({ d with seq := { d.seq with waitLogged := true } }).raise 0x8000 2
  else match d.lqCheck w with
    | none => if d.seq.okFrame.isSome then { d with seq := { d.seq with desc := w } }
              else { d with seq := { d.seq with okFrame := some d.time.frame, desc := w } }
    | some o =>
      let d := { d with seq := { d.seq with okFrame := none } }
      if d.seq.badLogged then d else ({ d with seq := { d.seq with badLogged := true } }).raise 0x8000 5 [idx, o]

/-! ### Meanings -/

/-- CONTEXT_WINDOW_WRITE (R97). -/
def execContextWindowWrite (ofs : BitVec 15) (val : Word) (s : State) : Host.Outcome State Fault Refusal :=
  hosted (0x1000000 + ofs.toNat) (onDev (fun d => d.ctxWindowWrite ofs.toNat val)) s
/-- SEQ_TABLE_WRITE (R77). -/
def execSeqTableWrite (ofs : BitVec 16) (val : Word) (s : State) : Host.Outcome State Fault Refusal :=
  hosted (0x1010000 + ofs.toNat) (onDev (fun d => d.seqTableWrite ofs.toNat val)) s
/-- CTX_COMMIT (R97). -/
def execCtxCommit (val : Word) (s : State) : Host.Outcome State Fault Refusal :=
  hosted F.seq_CTX_COMMIT_CTX.addr (onDev (fun d => d.ctxCommitWrite val)) s
/-- TBL_CHECK (R86). -/
def execTblCheck (val : Word) (s : State) : Host.Outcome State Fault Refusal :=
  hosted F.seq_TBL_CHECK.addr (onDev (fun d => d.seqWrite 0x804C val)) s
/-- LQ_RESET (R111). -/
def execLqReset (val : Word) (s : State) : Host.Outcome State Fault Refusal :=
  hosted F.seq_LQ_CTRL_RESET.addr (onDev (fun d => d.lqReset val)) s
/-- CONTINUE (R87). -/
def execContinueEntry (val : Word) (s : State) : Host.Outcome State Fault Refusal :=
  hosted F.seq_CONTINUE.addr (onDev (fun d => d.seqContinue val)) s

/-- NOP (R84). -/
def execNop (s : State) : Host.Outcome State Fault Refusal :=
  onDev (fun d => when (d.fresh 0x00) (fun d => d.complete (d.pc + 1)) d) s

/-- LAYER_OPEN (R84, R88): the layer-wait step; with a STOP pending and no layer open the run ends here. -/
def execLayerOpen (s : State) : Host.Outcome State Fault Refusal :=
  onDev (fun d => when (d.fresh 0x01)
    (fun d => let d := d.wait 3; when (d.stopPending && !d.on F.seq_LAYER_STAT_OPEN) Dev.stopAtOpen d) d) s

/-- LAYER_CLOSE (R84): waits for the layer boundary. -/
def execLayerClose (s : State) : Host.Outcome State Fault Refusal :=
  onDev (fun d => when (d.fresh 0x03) (fun d => d.wait 2) d) s

/-- AUX_WAIT (R84, 10 R324). -/
def execAuxWait (s : State) : Host.Outcome State Fault Refusal :=
  onDev (fun d => when (d.fresh 0x05) (fun d => d.wait 2) d) s

/-- DELAY (R84). -/
def execDelay (s : State) : Host.Outcome State Fault Refusal :=
  onDev (fun d => when (d.fresh 0x06) (fun d => d.wait 2) d) s

/-- DELAY_DONE (R84): ARG1 frames after the entry was taken. -/
def execDelayDone (s : State) : Host.Outcome State Fault Refusal :=
  onDev (fun d => when (d.waiting 0x06 && decide (d.seq.takenFrame + d.entA1 d.pc ≤ d.time.frame))
    (fun d => d.pass (d.pc + 1)) d) s

/-- IN_WAIT (R84). -/
def execInWait (s : State) : Host.Outcome State Fault Refusal :=
  onDev (fun d => when (d.fresh 0x08) (fun d => d.wait 2) d) s

/-- WAIT_ENTRY_DONE (R84): the condition holds at a boundary after the entry was taken. -/
def execWaitEntryDone (s : State) : Host.Outcome State Fault Refusal :=
  onDev (fun d => when ((d.waiting 0x05 || d.waiting 0x08) && decide (d.g F.seq_SEQ_STAT_STEP = 2)
      && decide (d.seq.takenFrame < d.time.frame) && d.waitOk)
    (fun d => d.pass (d.pc + 1)) d) s

/-- STALL (R87, 10 R324): the timeout has run out and the condition does not hold, or an axis of AUX_WAIT cannot report its move. -/
def execStall (s : State) : Host.Outcome State Fault Refusal :=
  onDev (fun d => when ((d.waiting 0x05 || d.waiting 0x08) && decide (d.g F.seq_SEQ_STAT_STEP = 2)
      && ((decide (d.waitTimeout ≠ 0) && decide (d.seq.takenFrame + d.waitTimeout ≤ d.time.frame) && !d.waitOk)
        || (decide (d.entOp d.pc = 0x05) && d.auxBad d.pc)))
    (fun d => ((d.p F.seq_SEQ_STAT_STEP 4).p F.seq_STALL_INFO_ENTRY d.pc).raise 0x8000 8) d) s

/-- EVENT (R84). -/
def execEvent (s : State) : Host.Outcome State Fault Refusal :=
  onDev (fun d => when (d.fresh 0x09) (fun d => (d.raise 0x8000 9 [d.entA1 d.pc, d.pc]).complete (d.pc + 1)) d) s

/-- JUMP (R84, R85). -/
def execJump (s : State) : Host.Outcome State Fault Refusal :=
  onDev (fun d => when (d.fresh 0x0A) (fun d => d.complete (d.entA0 d.pc)) d) s

/-- BR_MORE (R84): it tests the layer closed last, whatever layer is open. -/
def execBrMore (s : State) : Host.Outcome State Fault Refusal :=
  onDev (fun d => when (d.fresh 0x0B)
    (fun d => d.complete (if !d.seq.closedSince || !d.seq.closedLast then d.entA0 d.pc else d.pc + 1)) d) s

/-- BR_RESUMED (R84). -/
def execBrResumed (s : State) : Host.Outcome State Fault Refusal :=
  onDev (fun d => when (d.fresh 0x0C)
    (fun d => d.complete (if d.on F.seq_SEQ_STAT_RESUMED then
        (if d.entFlags d.pc % 2 = 1 then d.g F.seq_RESUME_ENTRY else d.entA0 d.pc) else d.pc + 1)) d) s

/-- END (R84): the job ends, and the device enters ARMED at the next frame boundary. -/
def execEndEntry (s : State) : Host.Outcome State Fault Refusal :=
  onDev (fun d => when (d.fresh 0x0D)
    (fun d => ({ d with seq := { d.seq with fresh := false, endFrame := some d.time.frame, endIsStop := false } }).raise 0x8000 10) d) s

end Sys2Proof.Machine
end

