-- ==== Sys2Proof/Machine/Plan.lean ====
section
/-!
DEFINITION. The plan of a head as timed pieces of motion (03 R101 to R106, R538): speed ramps, positions and path coordinates at
any time, and the planning of one piece. Times in 2^−16 frame, coordinates in 1/256 nm, speeds and limits in UQ16.8.
-/
namespace Sys2Proof.Machine

/-- The head of an index. -/
def Dev.hd (d : Dev) (h : Nat) : Head := Tab.at {} d.heads h
/-- Change a head. -/
def Dev.hdUpd (d : Dev) (h : Nat) (f : Head → Head) : Dev := { d with heads := Tab.upd {} d.heads h f }

/-! ### Speed ramps -/

/-- One frame in plan time. -/
def frameT : Nat := 65536

/-- The time a speed change `dv` takes under acceleration `a` and jerk `j`: dv/a + a/j when a is reached, else 2·√(dv/j) (R106). -/
def rampT (dv a j : Nat) : Nat :=
  if a * a ≤ dv * j then dv * frameT / a + a * frameT / j else 2 * isqrt (dv * frameT * frameT / (if j = 0 then 1 else j))

/-- The distance of that change between speeds `u` and `v`. -/
def rampD (u v a j : Nat) : Nat := (u + v) * rampT ((u - v) + (v - u)) a j / (2 * frameT)

/-- The distance covered `t` after the start of a ramp from `u` to `v`: jerk up, constant acceleration, jerk down. -/
def rampPos (u v a j t : Nat) : Nat :=
  let dv := (u - v) + (v - u)
  let T := rampT dv a j
  let t := min t T
  let tj := min (T / 2) (if a * a ≤ dv * j then a * frameT / (if j = 0 then 1 else j) else T / 2)
  -- the magnitude of the speed change integrated over time
  let up (t : Nat) : Nat := j * t * t * t / (6 * frameT ^ 3)
  let ap := j * tj / frameT
  let v1 := j * tj * tj / (2 * frameT * frameT)
  let g :=
    if t ≤ tj then up t
    else if t ≤ T - tj then up tj + v1 * (t - tj) / frameT + ap * (t - tj) * (t - tj) / (2 * frameT * frameT)
    else dv * T / (2 * frameT) - (dv * (T - t) / frameT - up (T - t))
  if u ≤ v then u * t / frameT + g else u * t / frameT - g

/-- The speed reached `t` after the start of a ramp. -/
def rampV (u v a j t : Nat) : Nat :=
  let dv := (u - v) + (v - u)
  let T := rampT dv a j
  let t := min t T
  let tj := min (T / 2) (if a * a ≤ dv * j then a * frameT / (if j = 0 then 1 else j) else T / 2)
  let g :=
    if t ≤ tj then j * t * t / (2 * frameT * frameT)
    else if t ≤ T - tj then j * tj * tj / (2 * frameT * frameT) + (j * tj / frameT) * (t - tj) / frameT
    else dv - j * (T - t) * (T - t) / (2 * frameT * frameT)
  if u ≤ v then u + min g dv else u - min g dv

/-- The greatest speed in `[lo, hi]` for which `ok`, which holds at `lo` and is monotone; `n` halvings. -/
def bisect : Nat → (Nat → Bool) → Nat → Nat → Nat
  | 0, _, lo, _ => lo
  | n + 1, ok, lo, hi =>
    let m := (lo + hi + 1) / 2
    if ok m then bisect n ok m hi else bisect n ok lo (m - 1)

/-- The greatest speed from which (or to which) `v` is reached within a length. -/
def reach (len v vmax a j : Nat) : Nat :=
  if vmax ≤ v then vmax else bisect 26 (fun w => decide (rampD v w a j ≤ len)) v vmax

/-- The peak speed of a piece of this length between two end speeds (R103). -/
def peak (len v0 v1 vmax a j : Nat) : Nat :=
  let lo := max v0 v1
  if vmax ≤ lo then lo else bisect 26 (fun w => decide (rampD v0 w a j + rampD w v1 a j ≤ len)) lo vmax

/-! ### Evaluating a piece -/

/-- Length of the motion, XY or F alone (R91). -/
def Seg.dist (g : Seg) : Nat := if g.len = 0 then g.flen else g.len

/-- Distance covered at absolute time `t`. -/
def Seg.at (g : Seg) (t : Nat) : Nat :=
  let u := min g.stop (t - g.t0)
  let ta := rampT (g.vp - g.v0) g.acc g.jerk
  let td := rampT (g.vp - g.v1) g.acc g.jerk
  if g.dur ≤ u then g.dist
  else if u ≤ ta then min g.dist (rampPos g.v0 g.vp g.acc g.jerk u)
  else if u ≤ g.dur - td then min g.dist (rampD g.v0 g.vp g.acc g.jerk + g.vp * (u - ta) / frameT)
  else g.dist - min g.dist (rampPos g.v1 g.vp g.acc g.jerk (g.dur - u))

/-- Speed along the path at time `t`. -/
def Seg.vel (g : Seg) (t : Nat) : Nat :=
  let u := min g.stop (t - g.t0)
  let ta := rampT (g.vp - g.v0) g.acc g.jerk
  let td := rampT (g.vp - g.v1) g.acc g.jerk
  if g.dur ≤ u then g.v1
  else if u ≤ ta then rampV g.v0 g.vp g.acc g.jerk u
  else if u ≤ g.dur - td then g.vp
  else rampV g.v1 g.vp g.acc g.jerk (g.dur - u)

/-- End time. -/
def Seg.t1 (g : Seg) : Nat := g.t0 + g.stop
/-- Path coordinate at the end. -/
def Seg.s1 (g : Seg) : Int := if g.len = 0 then g.s0 else g.s0 + g.at g.t1

/-- The coordinate `k` of the way from `a` to `b`. -/
def lerp (a b : Int) (k n : Nat) : Int := if n = 0 then a else a + Int.tdiv ((b - a) * k) n

/-- A planned coordinate is a signed 32-bit number of nm, saturating (00 R16, R17). -/
def coord (x : Int) : Int := clampI (-(2 ^ 31) * 256) ((2 ^ 31 - 1) * 256) x

/-- F after `k` of the piece. -/
def Seg.fAt (g : Seg) (k : Nat) : Int := if g.fb = 0 then lerp g.f0 g.f1 k g.dist else lerp g.f0 g.f1 (min (k - g.fa) (g.fb - g.fa)) (g.fb - g.fa)

/-- A point of the plan: X, Y, F in 1/256 nm, path coordinate, speed, whether any vector is present, and the piece. -/
structure PPoint where
  x : Int := 0
  y : Int := 0
  f : Int := 0
  s : Int := 0
  v : Nat := 0
  seg : Option Seg := none

/-- A piece at time `t`. -/
def Seg.point (g : Seg) (t : Nat) : PPoint :=
  let k := g.at t
  { x := lerp g.x0 g.x1 k g.dist, y := lerp g.y0 g.y1 k g.dist, f := g.fAt k,
    s := if g.len = 0 then g.s0 else g.s0 + k, v := if g.len = 0 then 0 else g.vel t, seg := some g }

/-- The plan at time `t`: the piece that runs then, else rest at the end of the last piece before it, else at the plan's end point. -/
def Head.point (hd : Head) (t : Nat) : PPoint :=
  match hd.segs.find? (fun g => decide (g.t0 ≤ t ∧ t < g.t1)) with
  | some g => g.point t
  | none =>
    match (hd.segs.filter (fun g => decide (g.t1 ≤ t))).getLast? with
    | some g => { g.point g.t1 with v := 0, seg := none }
    | none =>
      match hd.segs.head? with
      | some g => { x := g.x0, y := g.y0, f := g.f0, s := g.s0 }
      | none => { x := hd.p.px, y := hd.p.py, f := hd.p.pf, s := hd.p.ps }

/-- Path coordinate at boundary `f` (05 R161 s_plan). -/
def Head.sPlan (hd : Head) (f : Nat) : Int := (hd.point (f * frameT)).s

/-- The pieces present in plan frame `f`. -/
def Head.segsIn (hd : Head) (f : Nat) : List Seg :=
  hd.segs.filter (fun g => decide (g.t0 < (f + 1) * frameT ∧ f * frameT < g.t1 ))
/-- Is the head lit in plan frame `f` (06 R197). -/
def Head.litIn (hd : Head) (f : Nat) : Bool := (hd.segsIn f).any (fun g => decide (g.lit ≠ 0))
/-- The piece present at boundary `f` or, when none is, the first in frame `f`. -/
def Head.segAt (hd : Head) (f : Nat) : Option Seg :=
  match hd.segs.find? (fun g => decide (g.t0 ≤ f * frameT ∧ f * frameT < g.t1)) with
  | some g => some g
  | none => (hd.segsIn f).head?

/-- The planned position that the servo and Ibex see: exact at rest, and within 1 nm of the profile in motion, as the device's own
arithmetic gives it (R538; log 13). -/
def Dev.planned (d : Dev) (h f : Nat) : PPoint × Dev :=
  let p := (d.hd h).point (f * frameT)
  if p.seg.isNone || decide (p.v = 0) then (p, d)
  else
    let (r, d) := d.draw
    let e (k : Nat) : Int := ((r / 512 ^ k % 513 : Nat) : Int) - 256
    ({ p with x := coord (p.x + e 0), y := coord (p.y + e 1), f := coord (p.f + e 2) }, d)

/-! ### Planning pieces -/

/-- XY length in 1/256 nm. -/
def xyLen (x0 y0 x1 y1 : Int) : Nat := isqrt ((x1 - x0).natAbs ^ 2 + (y1 - y0).natAbs ^ 2)

/-- Append a piece from the plan's end to a point, at most `vmax`, from the plan's end speed to `v1`. -/
def Head.move (hd : Head) (x y f : Int) (v1 vmax a j lit : Nat) (who : Who) : Head :=
  let p := hd.p
  let len := xyLen p.px p.py x y
  let flen := (f - p.pf).natAbs
  let dist := if len = 0 then flen else len
  if dist = 0 ∨ a = 0 ∨ j = 0 then { hd with p := { p with px := x, py := y, pf := f } }
  else
    let v0 := min p.pv vmax
    let v1 := min v1 (reach dist v0 vmax a j)
    let vp := peak dist v0 v1 vmax a j
    let cruise := dist - (rampD v0 vp a j + rampD vp v1 a j)
    let dur := max 1 (rampT (vp - v0) a j + rampT (vp - v1) a j + (if vp = 0 then 0 else cruise * frameT / vp))
    let g : Seg := { t0 := p.pt, dur := dur, stop := dur, x0 := p.px, y0 := p.py, f0 := p.pf, x1 := x, y1 := y, f1 := f,
                     len := len, flen := flen, v0 := v0, vp := vp, v1 := v1, acc := a, jerk := j, s0 := p.ps, lit := lit, who := who }
    { hd with segs := hd.segs ++ [g], p := { p with pt := g.t1, px := x, py := y, pf := f, ps := p.ps + len, pv := v1 } }

/-- Append pieces and change the last one, if any was appended. -/
def Head.lastSeg (hd hd' : Head) (f : Seg → Seg) : Head :=
  if hd'.segs.length = hd.segs.length then hd' else { hd' with segs := hd'.segs.modify (hd'.segs.length - 1) f }

/-- Append a stay of `dur` at the plan's end point. -/
def Head.stay (hd : Head) (dur lit : Nat) (who : Who) : Head :=
  let p := hd.p
  let g : Seg := { t0 := p.pt, dur := dur, stop := dur, x0 := p.px, y0 := p.py, f0 := p.pf, x1 := p.px, y1 := p.py, f1 := p.pf,
                   len := 0, flen := 0, v0 := 0, vp := 0, v1 := 0, acc := 1, jerk := 1, s0 := p.ps, lit := lit, who := who }
  { hd with segs := hd.segs ++ [g], p := { p with pt := g.t1, pv := 0 } }

/-- Rest until time `t`. -/
def Head.restUntil (hd : Head) (t : Nat) : Head := { hd with p := { hd.p with pt := max hd.p.pt t, pv := 0 } }

/-- The effective delays and alignment of a record for the executing head (R99): on delay, off delay, align. -/
def Dev.dirVals (d : Dev) (h : Nat) (c : List Nat) (rev : Bool) : Int × Int × Int :=
  let cal := bit (cxw c 0) 7
  let a (f : Fld) : Int := if cal then d.gi f else 0
  if rev then (cxi c 0x34 + a (F.hd_CAL_ON_REV h), cxi c 0x38 + a (F.hd_CAL_OFF_REV h), cxi c 0x40 + a (F.hd_CAL_ALIGN_REV h))
  else (cxi c 0x2C + a (F.hd_CAL_ON_FWD h), cxi c 0x30 + a (F.hd_CAL_OFF_FWD h), cxi c 0x3C + a (F.hd_CAL_ALIGN_FWD h))

/-- The minimum pulse period of a head in codes (05 R173). -/
def Dev.tmin (d : Dev) (h : Nat) (c : List Nat) : Nat :=
  let hz := d.g (F.hd_FIRE_MAX_HZ h)
  max (max (if hz = 0 then 0 else (2000000000 + hz - 1) / hz) (cxw c 0x48 + d.g (F.hd_MIN_OFF h))) 625

/-- The planned speed limit of a marking record (R103): MARK_SPEED and, for POINTS, the speed governor (05 R174). -/
def Dev.markSpeed (d : Dev) (h : Nat) (c : List Nat) (typ : Nat) : Nat :=
  if typ = 2 then min (cxw c 0x14) (cxw c 0x44 * 5000 / d.tmin h c * 256) else cxw c 0x14

/-- The reservation of a vector in nJ (05 R179): PMAX times the planned emission time, which is the marking time `dur` (2^−16 frame) of a
LINE, pulses times POINT_WIDTH of a POINTS vector, PARAM codes of a DWELL. -/
def reserveNJ (c : List Nat) (typ dur pulses param : Nat) : Nat :=
  let pm := cxw c 0x0C
  if typ = 2 then pm * pulses * cxw c 0x48 / 2000
  else if typ = 3 then pm * param / 2000
  else pm * dur * 5 / (2 * frameT)

/-- The key of a vector among the reservations: stream head and record. -/
def Who.key (w : Who) : Nat := w.src * 2 ^ 32 + w.idx

/-- The speed allowed at a CONT junction between two directions (R104): MARK_ACCEL over the length of the change of direction. -/
def junction (c : List Nat) (vm : Nat) (ax ay bx by_ : Int) (la lb : Nat) : Nat :=
  if la = 0 ∨ lb = 0 then 0
  else
    let q : Int := 2 ^ 30
    let dx := bx * q / lb - ax * q / la
    let dy := by_ * q / lb - ay * q / la
    let m := isqrt (dx.natAbs ^ 2 + dy.natAbs ^ 2)
    if m = 0 then vm else min vm (cxw c 0x1C * 2 ^ 30 / m)

end Sys2Proof.Machine
end

