-- ==== Sys2Proof/Machine/Servo.lean ====
section
/-!
DEFINITION. Field correction, the set-point limiter, the loop laws, following error, parking and trace (04 R113 to R156; 03 R107, R108).
-/
namespace Sys2Proof.Machine

/-- A field of a slot's block by slot number (04 R155). -/
def sf (f : Nat → Nat → Fld) (s : Nat) : Fld := f (s / 16) (s % 16)
/-- An array field of a slot's block. -/
def sfi (f : Nat → Nat → Nat → Fld) (s i : Nat) : Fld := f (s / 16) (s % 16) i
/-- The LOOP page of a slot. -/
def loopPage (s : Nat) : Nat := 0x40000 + 0x1000 * (s / 16)
/-- A slot's hidden state. -/
def Dev.slot (d : Dev) (s : Nat) : Slot := Tab.at {} d.slots s
/-- Change a slot's hidden state. -/
def Dev.slotUpd (d : Dev) (s : Nat) (f : Slot → Slot) : Dev := { d with slots := Tab.upd {} d.slots s f }
/-- SLOT_STAT.MODE codes (R136). -/
def Dev.mode (d : Dev) (s : Nat) : Nat := d.g (sf F.slot_SLOT_STAT_MODE s)
/-- Set SLOT_STAT.MODE. -/
def Dev.setMode (d : Dev) (s m : Nat) : Dev := d.p (sf F.slot_SLOT_STAT_MODE s) m
/-- The slot that serves axis `a` of a head: the mapping in force (R113). -/
def Dev.axisSlot (d : Dev) (h a : Nat) : Nat :=
  d.g (if a = 0 then F.hd_SERVO_SLOTS_X h else if a = 1 then F.hd_SERVO_SLOTS_Y h else F.hd_SERVO_SLOTS_F h)
/-- The head and axis that a slot serves, if it serves one. -/
def Dev.servesAxis (d : Dev) (s : Nat) : Option (Nat × Nat) :=
  if d.on (sf F.slot_SLOT_MAP_MAPPED s) then some (d.g (sf F.slot_SLOT_MAP_HEAD s), d.g (sf F.slot_SLOT_MAP_AXIS s)) else none
/-- The three slots of a head. -/
def Dev.headSlots (d : Dev) (h : Nat) : List Nat := [0, 1, 2].map (d.axisSlot h)
/-- Set a sticky bit of SLOT_FLAGS.SAT and raise SAT when it was clear (R129); one that is set again counts as set now (00 R14). -/
def Dev.satFlag (d : Dev) (s b : Nat) : Dev :=
  let f := sf F.slot_SLOT_FLAGS_SAT s
  let d' := (d.p f (d.g f ||| 2 ^ b)).markFresh f.addr (BitVec.ofNat 32 (place (2 ^ b) f.hi f.lo))
  if bit (d.g f) b then d' else d'.raise (loopPage s) 5

/-! ### Field correction (R118 to R122) -/

/-- A grid node's corrections (R119). -/
def Dev.node (d : Dev) (h i j : Nat) : Int × Int × Int :=
  let w := (Tab.at 0 d.grid (h * 8192 + 65 * j + i)).toNat
  (sx 24 (bits w 63 40), sx 24 (bits w 39 16), sx 16 (bits w 15 0))

/-- The result of field correction: the three targets, whether each saturated, the first node with an uncorrectable error, and the nodes whose error was
corrected (R122). -/
structure FcOut where
  t : List Int
  sat : List Bool
  bad : Option Nat
  corr : List Nat

/-- Field correction of a plan point (coordinates in 1/256 nm). -/
def Dev.fc (d : Dev) (h : Nat) (x y f : Int) : FcOut :=
  let cx := d.gi (F.hd_FC_CX h)
  let cy := d.gi (F.hd_FC_CY h)
  let pitch : Int := max 1 (d.g (F.hd_FC_PITCH h))
  let dx := x - 256 * cx
  let dy := y - 256 * cy
  let lin (a b : Int) : Int := rdiv (a * dx + b * dy) (2 ^ 36)
  let gx := dx + 256 * 32 * pitch
  let gy := dy + 256 * 32 * pitch
  let i := (clampI 0 63 (gx / (256 * pitch))).toNat
  let j := (clampI 0 63 (gy / (256 * pitch))).toNat
  let u := clampI 0 65536 ((gx - i * 256 * pitch) * 256 / pitch)
  let v := clampI 0 65536 ((gy - j * 256 * pitch) * 256 / pitch)
  let key (i j : Nat) : Nat := h * 8192 + 65 * j + i
  let keys := [key i j, key (i + 1) j, key i (j + 1), key (i + 1) (j + 1)]
  let bad := keys.find? (fun k => decide (2 ≤ Tab.at 0 d.gridErr k))
  let corr := keys.filter (fun k => decide (Tab.at 0 d.gridErr k = 1))
  let n00 := d.node h i j
  let n10 := d.node h (i + 1) j
  let n01 := d.node h i (j + 1)
  let n11 := d.node h (i + 1) (j + 1)
  let mix (a b c e : Int) : Int :=
    if bad.isSome then 0
    else rdiv (a * ((65536 - u) * (65536 - v)) + b * (u * (65536 - v)) + c * ((65536 - u) * v) + e * (u * v)) (2 ^ 32)
  let tx := lin (d.gi (F.hd_FC_M00 h)) (d.gi (F.hd_FC_M01 h)) + mix n00.1 n10.1 n01.1 n11.1
  let ty := lin (d.gi (F.hd_FC_M10 h)) (d.gi (F.hd_FC_M11 h)) + mix n00.2.1 n10.2.1 n01.2.1 n11.2.1
  let tf := rdiv (d.gi (F.hd_FC_KF h) * f) (2 ^ 36) + mix n00.2.2 n10.2.2 n01.2.2 n11.2.2
  let ts := [tx, ty, tf]
  { t := ts.map (satS 32), sat := ts.map (fun t => decide (satS 32 t ≠ t)), bad := bad, corr := corr }

/-- Is a point in the field (R121). -/
def Dev.inField (d : Dev) (h : Nat) (x y : Int) : Bool :=
  let p : Int := d.g (F.hd_FC_PITCH h)
  let gx := x - 256 * (d.gi (F.hd_FC_CX h) - 32 * p)
  let gy := y - 256 * (d.gi (F.hd_FC_CY h) - 32 * p)
  decide (0 ≤ gx ∧ gx ≤ 256 * 64 * p ∧ 0 ≤ gy ∧ gy ≤ 256 * 64 * p)

/-! ### The limiter (03 R107) -/

/-- One step of the limiter of an axis towards a target, in 1/256 LSB: position and velocity after it. With limits below the present
speed the axis slows at amax. -/
def limStep (p v tPrev target vmax amax : Int) : Int × Int :=
  let vt := 256 * (target - tPrev)
  let e := 256 * target - (p + vt)
  let vg := vt + sgn e * min (absI e) (isqrt (2 * amax * absI e).toNat)
  let lo := max (v - amax) (-vmax)
  let hi := min (v + amax) vmax
  let v' := if lo ≤ hi then clampI lo hi vg else if 0 < v then lo else hi
  (p + v', v')

/-! ### Laws (R124 to R131) -/

/-- The observer's prediction over one frame (R130), states Q32.16, with whether one saturates. -/
def obsPred (ka ai bi : Int) (x : Int × Int × Int × Int) (c : Int) : (Int × Int × Int × Int) × Bool :=
  let (p, v, i, dd) := x
  let acc := rdiv (ka * (i + dd)) (2 ^ 30)
  let p' := p + v + rdiv acc 2
  let v' := v + acc
  let i' := rdiv (ai * i) (2 ^ 30) + rdiv (bi * c * 65536) (2 ^ 30)
  ((satS 48 p', satS 48 v', satS 48 i', dd), decide (satS 48 p' ≠ p' ∨ satS 48 v' ≠ v' ∨ satS 48 i' ≠ i'))

/-- What the primary law answers (R124): command, output y, states, and which sticky flags it would set. -/
structure LawOut where
  cmd : Int
  y : Int
  yc : Int
  s1 : Int
  s2 : Int
  s3 : Int
  errSat : Bool
  stateSat : Bool
  outSat : Bool

/-- The primary law with coefficient set `k`; `init` re-initialises the states first (R128). -/
def Dev.primary (d : Dev) (s : Nat) (sl : Slot) (k : Nat) (err ffr : Int) (init : Bool) : LawOut :=
  let c (f : Nat → Nat → Nat → Fld) : Int := d.vi (sfi f s k)
  let two := d.v (sfi F.slot_SETk_ORDER s k) = 1
  let b0 := c F.slot_SETk_B0
  let b1 := c F.slot_SETk_B1
  let b2 := c F.slot_SETk_B2
  let b3 := if two then 0 else c F.slot_SETk_B3
  let a1 := c F.slot_SETk_A1
  let a2 := c F.slot_SETk_A2
  let a3 := if two then 0 else c F.slot_SETk_A3
  let osh := d.v (sfi F.slot_SETk_OSHIFT s k)
  let imax : Int := d.v (sf F.slot_IMAX s)
  let e := satS 24 err
  let i1 := sl.ycPrev - b0 * e
  let s1 := if init then satS 48 i1 else sl.s1
  let s2 := if init then 0 else sl.s2
  let s3 := if init then 0 else sl.s3
  let y0 := b0 * e + s1
  let y := satS 48 y0
  let u := rdiv (y * 2 ^ osh) (2 ^ 30) + ffr
  let cmd := clampI (-imax) imax u
  let yc := if cmd = u then y else (cmd - ffr) * 2 ^ (30 - osh)
  let n1 := b1 * e - rdiv (a1 * yc) (2 ^ 30) + s2
  let n2 := b2 * e - rdiv (a2 * yc) (2 ^ 30) + s3
  let n3 := b3 * e - rdiv (a3 * yc) (2 ^ 30)
  { cmd := cmd, y := y, yc := yc, s1 := satS 48 n1, s2 := satS 48 n2, s3 := if two then 0 else satS 48 n3,
    errSat := decide (e ≠ err),
    stateSat := init && decide (satS 48 i1 ≠ i1) || decide (y ≠ y0 ∨ satS 48 n1 ≠ n1 ∨ satS 48 n2 ≠ n2 ∨ satS 48 n3 ≠ n3),
    outSat := decide (cmd ≠ u) }

/-- The coefficient set in force (R127): override, the motion context's set, the set of the frame before, HOLD_SET. A slot that serves no head has no plan
entry: its set is the override or HOLD_SET. -/
def Dev.spareSet (d : Dev) (s : Nat) : Nat :=
  if d.v (sf F.slot_SLOT_CTRL_SET_OVR_EN s) = 1 then d.v (sf F.slot_SLOT_CTRL_SET_OVR s) else d.v (sf F.slot_SLOT_CTRL_HOLD_SET s)
/-- The set in force of a slot that serves a head, in frame `f`. -/
def Dev.setOf (d : Dev) (h s f : Nat) : Nat :=
  if d.v (sf F.slot_SLOT_CTRL_SET_OVR_EN s) = 1 then d.v (sf F.slot_SLOT_CTRL_SET_OVR s)
  else if !d.on F.seq_LAYER_STAT_OPEN then d.v (sf F.slot_SLOT_CTRL_HOLD_SET s)
  else match (d.hd h).segAt (f + 2) with
    | some g => bits (cxw g.who.cw 0) 3 2
    | none => if (d.hd h).entered then d.g (sf F.slot_SLOT_STAT_SET s) else d.v (sf F.slot_SLOT_CTRL_HOLD_SET s)

/-! ### Summaries (R155) -/

/-- The summaries of a LOOP page (R155). A slot in PARKING counts in SUM_FAULT for a fault of its own, not for one of another slot of its head, and a slot
that was remapped away counts with the mode it was left in (log 107). -/
def Dev.loopSum (d : Dev) (n : Nat) : Dev :=
  let m (p : Nat → Bool) : Nat := (List.range 16).foldl (fun w b => if p (16 * n + b) then w ||| 2 ^ b else w) 0
  let d := d.p (F.loop_SUM_FAULT n) (m (fun s => d.mode s == 7 || d.mode s == 6 || (d.mode s == 4 && (d.slot s).faulted)))
  let d := d.p (F.loop_SUM_FB n) (m (fun s => d.mode s == 2 || d.mode s == 3))
  d.p (F.loop_SUM_FLAG n) (m (fun s => (d.reg (sf F.slot_SLOT_FLAGS_SAT s).addr) != 0))
/-- The summaries of every LOOP page. -/
def Dev.loopSums (d : Dev) : Dev := forN 10 (fun n d => d.loopSum n) d
/-- The summaries of the pages that serve a head. -/
def Dev.headSums (d : Dev) (h : Nat) : Dev := forL ((d.headSlots h).map (· / 16)).eraseDups (fun n d => d.loopSum n) d

/-! ### Parking (R137 to R139) -/

/-- The park set-point of an axis. -/
def Dev.parkOf (d : Dev) (h a : Nat) : Int :=
  d.vi (if a = 0 then F.hd_PARK_X h else if a = 1 then F.hd_PARK_Y h else F.hd_PARK_F h)

/-- Is this a boundary at which a failure of the head is due (01 R38 step 5). -/
def Dev.failsNow (d : Dev) (h : Nat) : Bool := (d.hd h).failPend.isSome && decide ((d.hd h).failFrame < d.time.frame ∧ d.time.cycle = 0)

/-- A head is to be declared failed at the boundary after frame `f`, its remaining work from plan time `t` on (06 R210): the first cause is kept, of two at
the same boundary the lower code. -/
def Dev.failAsk (d : Dev) (h cause f t : Nat) : Dev :=
  d.hdUpd h (fun hd =>
    if hd.failPend.any (fun c => decide (hd.failFrame < f ∨ hd.failFrame = f ∧ c ≤ cause)) then hd else { hd with failPend := some cause, failFrame := f, failT := t })

/-- A slot enters PARKING (R137), from PRIMARY, FALLBACK or FE_FAULT; one in COAST does so when its position is back (R136; log 89). -/
def Dev.parkSlot (d : Dev) (s : Nat) : Dev :=
  if d.mode s ∈ [1, 2, 7] then
    (((d.setMode s 4).p (sf F.slot_SLOT_STAT_FE_COUNT s) 0).slotUpd s (fun sl => { sl with parkRun := 0, parkFrames := 0, parkDue := false })).loopSum (s / 16)
  else if d.mode s = 3 then d.slotUpd s (fun sl => { sl with parkDue := true })
  else d

/-- The head's three slots enter PARKING together (R137). -/
def Dev.enterParking (d : Dev) (h : Nat) : Dev := forL (d.headSlots h) (fun s d => d.parkSlot s) d

/-- The boundary's parking: of heads whose PARK_REQ waits, and of slots whose coast has ended meanwhile. -/
def Dev.parkStep (d : Dev) : Dev :=
  let d := forN 48 (fun h d => when (d.hd h).parkReq (fun d => (d.hdUpd h (fun hd => { hd with parkReq := false })).enterParking h) d) d
  forN 160 (fun s d => when ((d.slot s).parkDue && decide (d.mode s ≠ 3)) (fun d => d.parkSlot s) d) d

/-- A head reports parked (R138): all three slots PARKED or CURRENT_PARK. -/
def Dev.reportsParked (d : Dev) (h : Nat) : Bool := (d.headSlots h).all (fun s => d.mode s == 5 || d.mode s == 6)

/-! ### Trace (R149 to R152) -/

/-- The value of a trace node as 32 bits (R150). -/
def Dev.traceNode (d : Dev) (s : Nat) (target pos : Int) (fe y ffr : Int) (cur : Int) (n : Nat) : Nat :=
  let sl := d.slot s
  let v : Int := match n with
    | 1 => target | 2 => sl.sp2 | 3 => pos | 4 => fe | 5 => y / 65536 | 6 => ffr | 7 => sl.c3
    | 8 => ((d.reg (sf F.slot_SLOT_STAT_MODE s).addr).toInt) | 9 => cur
    | 10 => sl.op / 65536 | 11 => sl.ov / 65536 | 12 => sl.oi / 65536 | 13 => sl.od / 65536
    | 14 => sl.s1 / 65536 | 15 => sl.s2 / 65536 | 16 => sl.s3 / 65536 | _ => 0
  ux 32 (satS 32 v)

/-- Sample `k` of a slot's trace is its trigger (R151). -/
def Dev.traceHit (d : Dev) (s k : Nat) : Dev :=
  (((d.p (sf F.slot_TRACE_STAT_STATE s) 2).p (sf F.slot_TRACE_STAT_TRIG_INDEX s) (k % 4096)).p
    (sf F.slot_TRACE_STAT_VALID_PRE s) (min k (d.g (sf F.slot_TRACE_TRIG_PRE s)))).slotUpd s (fun sl => { sl with tTrig := k })

/-- A trigger source that is met after a frame's sample was taken, by a fault or a fall-back decided in that frame: the sample taken last is the trigger. -/
def Dev.traceLate (d : Dev) (s src : Nat) : Dev :=
  let k := (d.slot s).tIdx
  if d.g (sf F.slot_TRACE_STAT_STATE s) = 1 ∧ d.g (sf F.slot_TRACE_TRIG_SRC s) = src ∧ k ≠ 0 then d.traceHit s (k - 1) else d

/-- The DRAM address of a sample of a slot's trace (R149). -/
def Dev.traceAddr (d : Dev) (s k : Nat) : Nat :=
  d.g (F.loop_TRACE_BASE_LO (s / 16)) * 2 ^ 20 + d.g (F.loop_TRACE_BASE_HI (s / 16)) * 2 ^ 32 + s % 16 * 0x10000 + k * 16

/-- The samples of the burst in progress go to the memory controller. -/
def Dev.traceSend (d : Dev) (s : Nat) : Dev :=
  let sl := d.slot s
  if sl.tBurst = [] then d
  else { d with traceQ := d.traceQ ++ [(s, d.traceAddr s sl.tBurstIdx, sl.tBurst)] }.slotUpd s (fun sl => { sl with tBurst := [] })

/-- One sample of a slot's trace and its trigger (R151). `fbEntry` tells whether the slot entered fall-back in this frame. The first sample after arming is
compared with node 0 of the last earlier capture, 0 at reset (log 109). -/
def Dev.traceStep (d : Dev) (s : Nat) (target pos fe y ffr cur : Int) (fbEntry : Bool) : Dev :=
  let st := d.g (sf F.slot_TRACE_STAT_STATE s)
  if st = 0 ∨ st = 3 then d
  else
    let sel := d.g (sf F.slot_TRACE_SEL s)
    let word (q : Nat) : Nat := d.traceNode s target pos fe y ffr cur (bits sel (5 * q + 4) (5 * q))
    let sl := d.slot s
    let lvl := d.gi (sf F.slot_TRACE_LEVEL s)
    let n0 := sx 32 (word 0)
    let src := d.g (sf F.slot_TRACE_TRIG_SRC s)
    let hit := sl.tForce || (decide (src = 1) && decide (sl.tNode < lvl ∧ lvl ≤ n0)) || (decide (src = 2) && decide (lvl < sl.tNode ∧ n0 ≤ lvl))
      || (decide (src = 4) && fbEntry)
    let k := sl.tIdx
    let d := when (decide (st = 1) && hit) (fun d => d.traceHit s k) d
    let burst := sl.tBurst ++ [word 0, word 1, word 2, word 3]
    let d := d.slotUpd s (fun sl => { sl with tIdx := k + 1, tNode := n0, tForce := false, tBurst := burst,
                                              tBurstIdx := if sl.tBurst = [] then k % 4096 else sl.tBurstIdx })
    when (decide (burst.length = 16)) (fun d => d.traceSend s) d

/-! ### One frame of one slot (R117, R130 to R142) -/

/-- The limiter's speed and acceleration limits of an axis, 1/256 LSB (03 R112). -/
def Dev.limits (d : Dev) (h a : Nat) : Int × Int :=
  ((d.v (if a = 0 then F.hd_LIM_VMAX_X h else if a = 1 then F.hd_LIM_VMAX_Y h else F.hd_LIM_VMAX_F h) : Nat),
   (d.v (if a = 0 then F.hd_LIM_AMAX_X h else if a = 1 then F.hd_LIM_AMAX_Y h else F.hd_LIM_AMAX_F h) : Nat))

/-- A lane's hidden state. -/
def Dev.lane (d : Dev) (h : Nat) : Lane := Tab.at {} d.lanes h
/-- Change a lane's hidden state. -/
def Dev.laneUpd (d : Dev) (h : Nat) (f : Lane → Lane) : Dev := { d with lanes := Tab.upd {} d.lanes h f }

/-- The energy counted for a list whose content is not sent after all (05 R181, R189). -/
def Head.unspend (hd : Head) (l : FList) : Head :=
  { hd with spent := l.parts.foldl (fun t e => Tab.upd 0 t e.1 (· - e.2)) hd.spent, cas := { hd.cas with energy := hd.cas.energy - l.energy } }

/-- No edge and no power for the next frame (R143): the content computed for it in the frame that has just ended, which the downstream frame that leaves now
carries, is none. -/
def Dev.blankNext (d : Dev) (h : Nat) : Dev :=
  let next (l : FList) : Bool := decide (l.frame = d.time.frame + 1)
  let d := d.hdUpd h (fun hd =>
    let hd := (hd.lists.filter next).foldl Head.unspend hd
    { hd with lists := hd.lists.map (fun l => if next l then { l with edges := [], code := 0, level := false, gateEn := false, energy := 0, parts := [] } else l) })
  d.laneUpd h (fun q => { q with dsEdges := [], dsPwr := 0, dsFlags := q.dsFlags - q.dsFlags / 8 % 4 * 8 })

/-- A slot enters CURRENT_PARK (R139): its command ramps to 0 over 8 frames, from the one that the downstream frame of this boundary carries; its head
has no plan position (03 R539) and is declared failed with this cause at the next boundary. `t` is the plan time of R212. -/
def Dev.enterCurrentPark (d : Dev) (h a s cause t : Nat) : Dev :=
  let d := ((d.setMode s 6).flag (sf F.slot_SLOT_FLAGS_PARK_CURRENT s)).raise (loopPage s) 3
  let d := d.p (sf F.slot_SLOT_STAT_FE_COUNT s) 0
  let c := rdiv ((d.slot s).c2 * 7) 8
  let d := d.slotUpd s (fun sl => { sl with rampFrom := sl.c2, rampLeft := 7, c3 := c, faulted := true, restarted := false, parkDue := false })
  let d := (d.p (sf F.slot_CMD_NOW s) (ux 16 c)).laneUpd h (fun q => { q with dsCmd := q.dsCmd.set a c })
  (d.blankNext h).failAsk h cause (d.time.frame - 1) t |>.hdUpd h (fun hd => { hd with placed := false })

/-- The position word of an axis in this frame, none when missing or marked invalid (R132, 09 R295). -/
def Dev.posWord (d : Dev) (h a : Nat) : Option Int :=
  let l := d.lane h
  if l.got && l.posOk.getD a false then some (nthI l.pos a) else none
/-- The coil-current word. -/
def Dev.curWord (d : Dev) (h a : Nat) : Option Int :=
  let l := d.lane h
  if l.got && l.curOk.getD a false then some (nthI l.cur a) else none

/-- A slot in OFF becomes PRIMARY when EN is in force and the position is valid (R136): states with yc_prev = 0, limiter and observer
at rest at the measured position (log 17). -/
def Dev.slotStart (d : Dev) (h s : Nat) (pos : Int) : Dev :=
  let old := d.slot s
  let d := (d.setMode s 1).hdUpd h (fun hd => { hd with placed := false })
  d.slotUpd s (fun _ =>
    { lp := 256 * pos, tPrev := pos, sp0 := pos, sp1 := pos, sp2 := pos, op := 65536 * pos, faulted := old.faulted, restarted := old.restarted,
      tIdx := old.tIdx, tTrig := old.tTrig, tPre := old.tPre, tNode := old.tNode, tForce := old.tForce, tBurst := old.tBurst,
      tBurstIdx := old.tBurstIdx })

/-- A frame of a slot in OFF (R114), with its coefficient set `k` (R127): it commands nothing, and the frame is measured and traced. Without a valid word nodes
3 and 9 are recorded as 0, and so is node 4 (log 108). -/
def Dev.offFrame (d : Dev) (s k : Nat) (pos cur : Option Int) (tgt : Int) : Dev :=
  let sl := d.slot s
  let d := d.p (sf F.slot_SLOT_STAT_SET s) k
  let fe := match pos with | some z => satS 32 (sl.sp1 - z) | none => 0
  let d := d.slotUpd s (fun sl => { sl with sp0 := sl.sp1, sp1 := sl.sp2, c1 := sl.c2, c2 := sl.c3, c3 := 0 })
  ((d.pi (sf F.slot_FE_NOW s) fe).p (sf F.slot_CMD_NOW s) 0).traceStep s tgt (pos.getD 0) fe 0 0 (cur.getD 0) false

/-- One frame `f` of a slot that is not OFF. `target` is the field-corrected target for `f + 2`, none when the head has no plan position;
the answer says whether the limited set-point differs from its target by more than CLIP_TOL (03 R108). Without a valid word nodes 3 and 9 of the trace
are recorded as 0 and node 4 as the last fe (log 108). -/
def Dev.slotFrame (d : Dev) (h a s f : Nat) (target : Option Int) (spSat : Bool) : Dev × Bool :=
  let pos := d.posWord h a
  let mode := d.mode s
  let sl := d.slot s
  -- the observer, warm in every mode (R130)
  let ka := d.vi (sf F.slot_OBS_KA s)
  let ai := d.vi (sf F.slot_OBS_AI s)
  let bi := d.vi (sf F.slot_OBS_BI s)
  let (x0, o0) := obsPred ka ai bi (sl.op, sl.ov, sl.oi, sl.od) sl.c1
  let l (i : Nat) : Int := d.vi (sfi F.slot_OBS_L s i)
  let (xh, o1) := match pos with
    | none => (x0, false)
    | some z =>
      let ep := 65536 * z - x0.1
      let ei := match d.curWord h a with | some c => 65536 * c - x0.2.2.1 | none => 0
      let upd (x : Int) (k : Nat) : Int := x + rdiv (l (2 * k) * ep + l (2 * k + 1) * ei) (2 ^ 24)
      let p := upd x0.1 0
      let v := upd x0.2.1 1
      let i := upd x0.2.2.1 2
      let dd := upd x0.2.2.2 3
      ((satS 48 p, satS 48 v, satS 48 i, satS 48 dd), decide (satS 48 p ≠ p ∨ satS 48 v ≠ v ∨ satS 48 i ≠ i ∨ satS 48 dd ≠ dd))
  if mode = 6 then
    -- CURRENT_PARK: the ramp goes on (R139)
    let left := sl.rampLeft - 1
    let fe := match pos with | some z => satS 32 (sl.sp1 - z) | none => d.gi (sf F.slot_FE_NOW s)
    let d := d.slotUpd s (fun sl => { sl with op := xh.1, ov := xh.2.1, oi := xh.2.2.1, od := xh.2.2.2, c1 := sl.c2, c2 := sl.c3,
                                              sp0 := sl.sp1, sp1 := sl.sp2, c3 := rdiv (sl.rampFrom * left) 8, rampLeft := left })
    let d := when (o0 || o1) (fun d => d.satFlag s 3) (d.p (sf F.slot_SLOT_STAT_SET s) (d.setOf h s f))
    let d := (d.pi (sf F.slot_FE_NOW s) fe).pi (sf F.slot_CMD_NOW s) (d.slot s).c3
    (d.traceStep s (target.getD sl.tPrev) (pos.getD 0) fe 0 0 ((d.curWord h a).getD 0) false, false)
  else
    let parking := mode = 4 ∨ mode = 5 ∨ mode = 7
    let tgt := if parking then d.parkOf h a else target.getD sl.tPrev
    let (vmax, amax) := d.limits h a
    let (lp, lv) := limStep sl.lp sl.lv sl.tPrev tgt vmax amax
    let sp2 := satS 32 (rdiv lp 256)
    let sp0 := sl.sp1
    let sp1 := sl.sp2
    let clipped := !decide parking && decide ((d.v (F.hd_CLIP_TOL h) : Int) < absI (sp2 - tgt))
    let vs := sp2 - sp1
    let ffr := rdiv (d.vi (sf F.slot_KV s) * vs + d.vi (sf F.slot_KA s) * (vs - sl.vsPrev)) (2 ^ 24)
    let imax : Int := d.v (sf F.slot_IMAX s)
    -- the fall-back law (R131)
    let (x1, o2) := obsPred ka ai bi xh sl.c2
    let (x2, o3) := obsPred ka ai bi x1 sl.c3
    let kk (i : Nat) : Int := d.vi (sfi F.slot_OBS_K s i)
    let uFb := ffr * 2 ^ 40 + kk 0 * (65536 * sp2 - x2.1) + kk 1 * (65536 * vs - x2.2.1) + kk 2 * (65536 * ffr - x2.2.2.1) - kk 3 * x2.2.2.2
    let rFb := rdiv uFb (2 ^ 40)
    let cmdFb := clampI (-imax) imax rFb
    let fbSat := decide (cmdFb ≠ rFb)
    let obsSat := o0 || o1 || o2 || o3
    let k := d.setOf h s f
    let changed := decide (k ≠ d.g (sf F.slot_SLOT_STAT_SET s)) || sl.reinit
    let fbForce := d.v (sf F.slot_SLOT_CTRL_FB_FORCE s) = 1
    -- the primary law, evaluated when a position was measured; in fall-back without re-initialisation (R147)
    let law := d.primary s sl k (sp0 - pos.getD sp0) ffr (changed && !sl.lawFb || sl.initAll)
    let missing := pos.isNone
    let lawFb := sl.lawFb || missing || fbForce
    let usesPr := !lawFb
    let cmd := if usesPr then law.cmd else cmdFb
    let satC := if missing then 0 else if law.stateSat || law.outSat then sl.satCount + 1 else 0
    let clean := if missing || obsSat || decide (satC ≠ 0) then 0 else sl.clean + 1
    let osh := d.v (sfi F.slot_SETk_OSHIFT s k)
    let yc := if usesPr then law.yc else (cmdFb - ffr) * 2 ^ (30 - osh)
    -- mode (R132, R133)
    let mode' := if mode = 1 ∨ mode = 2 ∨ mode = 3 then (if missing then 3 else if lawFb then 2 else 1) else mode
    let coast := if mode' = 3 then d.g (sf F.slot_SLOT_STAT_COAST_COUNT s) + 1 else 0
    let fbEntry := lawFb && !sl.lawFb
    -- following error (R141, R142)
    let fe := match pos with | some z => satS 32 (sp0 - z) | none => d.gi (sf F.slot_FE_NOW s)
    let lim : Int := d.v (sf F.slot_FE_LIM s)
    let tooFar := decide (lim < absI fe)
    let cnt := d.g (sf F.slot_SLOT_STAT_FE_COUNT s)
    let feCnt := if mode' = 1 ∨ mode' = 2 then (if tooFar then cnt + 1 else 0) else if mode' = 3 then cnt else 0
    -- parking (R138, R139)
    let inTol := match pos with | some z => decide (absI (d.parkOf h a - z) ≤ (d.v (F.hd_PARK_TOL h) : Int)) | none => false
    let prun := if mode = 4 then (if inTol then sl.parkRun + 1 else 0) else 0
    let pfr := if mode = 4 then sl.parkFrames + 1 else 0
    let cleared := (d.headSlots h).all (fun n => !d.on (sf F.slot_SLOT_FLAGS_FE_FAULT n))
    let hold := if mode' = 5 ∧ sl.restarted ∧ cleared ∧ pos.isSome ∧ absI fe ≤ lim then sl.holdRun + 1 else 0
    let d := (d.setMode s mode').p (sf F.slot_SLOT_STAT_SET s) k
    let d := (d.p (sf F.slot_SLOT_STAT_FE_COUNT s) (satU 16 feCnt)).p (sf F.slot_SLOT_STAT_COAST_COUNT s) (satU 4 coast)
    let d := (d.pi (sf F.slot_FE_NOW s) fe).pi (sf F.slot_CMD_NOW s) cmd
    let d := d.slotUpd s (fun sl =>
      { sl with s1 := if missing then sl.s1 else law.s1, s2 := if missing then sl.s2 else law.s2, s3 := if missing then sl.s3 else law.s3,
                ycPrev := yc, vsPrev := vs, lp := lp, lv := lv, tPrev := tgt, sp0 := sp0, sp1 := sp1, sp2 := sp2,
                op := xh.1, ov := xh.2.1, oi := xh.2.2.1, od := xh.2.2.2, c1 := sl.c2, c2 := sl.c3, c3 := cmd,
                cmdFb := cmdFb, fbSat := fbSat, lawFb := lawFb, satCount := satC, clean := clean, reinit := false, initAll := sl.initAll && missing,
                parkRun := prun, parkFrames := pfr, holdRun := hold,
                feStart := if cnt = 0 ∧ feCnt = 1 then f else sl.feStart,
                coastStart := if coast = 1 then f else sl.coastStart })
    let d := when (usesPr && law.errSat) (fun d => d.satFlag s 0) d
    let d := when (usesPr && law.stateSat) (fun d => d.satFlag s 1) d
    let d := when (if usesPr then law.outSat else fbSat) (fun d => d.satFlag s 2) d
    let d := when obsSat (fun d => d.satFlag s 3) d
    let d := when (spSat && !decide parking) (fun d => d.satFlag s 4) d
    let d := when (missing && (fbEntry || decide (coast = 1))) (fun d => d.flag (sf F.slot_SLOT_FLAGS_FB_POS s)) d
    let d := when (decide (coast = 1)) (fun d => d.raise (loopPage s) 2) d
    let d := when (decide (mode' = 2 ∧ mode ≠ 2) || fbEntry && !missing && decide (4 ≤ mode)) (fun d => d.raise (loopPage s) 1) d
    let d := d.traceStep s tgt (pos.getD 0) fe law.y ffr ((d.curWord h a).getD 0) fbEntry
    (d, clipped)

/-- The BAR0 address of a node of the field correction store, by its key (R119). -/
def nodeAddr (k : Nat) : Nat := 0x1100000 + k / 8192 * 0x10000 + k % 8192 * 8

/-- The errors corrected in the node reads of a head's frame (R122): each counts, and the address of the last is kept (log 90). -/
def Dev.fcErrors (d : Dev) (h : Nat) (o : FcOut) : Dev :=
  o.corr.foldl (fun d k => Dev.bump { d with fcLog := Tab.set 0 d.fcLog h (nodeAddr k) } (F.hd_FC_STAT_ECC_CORR h)) d

/-- Errors appear in nodes of the field correction store: head, node, and whether the codes cannot correct it. -/
def Dev.gridErrors (d : Dev) (l : List (Fin 48 × Fin 4225 × Bool)) : Dev :=
  { d with gridErr := l.foldl (fun t e => Tab.upd 0 t (e.1.val * 8192 + e.2.1.val) (fun n => max n (1 + b2n e.2.2))) d.gridErr }

/-- A command or a mode that a fault or a fall-back decided in this frame replaces the one that the frame's sample shows: nodes 7 and 8 of that sample are
taken again (R150). -/
def Dev.traceMend (d : Dev) (s : Nat) : Dev :=
  let st := d.g (sf F.slot_TRACE_STAT_STATE s)
  let sl := d.slot s
  if st = 0 ∨ st = 3 ∨ sl.tIdx = 0 then d
  else
    let sel := d.g (sf F.slot_TRACE_SEL s)
    let mend (l : List Nat) : List Nat :=
      l.take (l.length - 4) ++ (l.drop (l.length - 4)).mapIdx (fun q w =>
        let c := bits sel (5 * q + 4) (5 * q)
        if c = 7 ∨ c = 8 then d.traceNode s 0 0 0 0 0 0 c else w)
    if sl.tBurst ≠ [] then d.slotUpd s (fun sl => { sl with tBurst := mend sl.tBurst })
    else match d.traceQ.findIdx? (fun q => q.1 == s && q.2.1 == d.traceAddr s ((sl.tIdx - 4) % 4096)) with
      | none => d
      | some i => { d with traceQ := d.traceQ.modify i (fun q => (q.1, q.2.1, mend q.2.2)) }

/-- One frame `f` of the three slots of a head (R117): field correction of the plan entry for `f + 2`, then each axis, whatever its state (R114). The causes
of a clipped frame (03 R108, R121, R122, R134) are collected in `clipNow`. -/
def Dev.headServo (d : Dev) (h f : Nat) : Dev :=
  let slots := d.headSlots h
  -- OFF and EN (R136): PRIMARY leaves to OFF when EN = 0 is committed
  let d := forL [0, 1, 2] (fun a d =>
    let s := nth slots a
    let en := d.v (sf F.slot_SLOT_CTRL_EN s) = 1
    if d.mode s = 0 then
      match (if en then d.posWord h a else none) with
      | some z => d.slotStart h s z
      | none => d
    else if d.mode s = 1 ∧ !en then ((d.setMode s 0).p (sf F.slot_SLOT_STAT_FE_COUNT s) 0)
    else d) d
  let d := when (d.on F.seq_LAYER_STAT_OPEN && ((d.hd h).segAt (f + 2)).isSome) (fun d => d.hdUpd h (fun hd => { hd with entered := true })) d
  let hd := d.hd h
  -- a slot that parks bypasses field correction (R137)
  let on := hd.placed && slots.any (fun s => decide (d.mode s ∈ [1, 2, 3]))
  let (pt, d) := if on then d.planned h (f + 2) else ({}, d)
  let o : FcOut := if on then d.fc h pt.x pt.y pt.f else { t := [], sat := [], bad := none, corr := [] }
  let oof := on && hd.litIn (f + 2) && !d.inField h pt.x pt.y
  let d := when oof (fun d => d.bump (F.hd_FC_STAT_OOF_COUNT h)) (d.fcErrors h o)
  let step (r : Dev × Bool) (a : Nat) : Dev × Bool :=
    let s := nth slots a
    let t := if on then some (nthI o.t a) else none
    if r.1.mode s = 0 then (r.1.offFrame s (r.1.setOf h s f) (r.1.posWord h a) (r.1.curWord h a) (t.getD 0), r.2)
    else
      let q := r.1.slotFrame h a s f t (o.sat.getD a false)
      (q.1, r.2 || q.2)
  let (d, clipped) := [0, 1, 2].foldl step (d, false)
  let coasting := slots.any (fun s => d.mode s == 3)
  let causes := (if clipped then [0x20] else []) ++ (if oof then [0x21] else []) ++ (if o.bad.isSome then [0x22] else [])
    ++ (if coasting then [0x23] else [])
  d.hdUpd h (fun hd => { hd with clipNow := causes, badNode := o.bad.map nodeAddr })

/-- A frame of the slots that serve no axis (R114): they have no position and no set-point. -/
def Dev.spareFrames (d : Dev) : Dev :=
  forN 160 (fun s d => when (!d.on (sf F.slot_SLOT_MAP_MAPPED s)) (fun d => d.offFrame s (d.spareSet s) none none 0) d) d

/-! ### Exposure set (R116; 03 R110; 05 R160; 09 R308; 16 R463) -/

/-- The servo's part of the conditions (R116, 03 R110). -/
def Dev.servoFit (d : Dev) (h : Nat) : Bool :=
  (d.headSlots h).all (fun s => d.v (sf F.slot_SLOT_CTRL_EN s) = 1 && d.v (sf F.slot_FE_LIM s) != 0
      && !(d.mode s == 7 || d.mode s == 4 || d.mode s == 6 || (d.slot s).faulted))
    && d.on (F.hd_FC_STAT_VALID h)
    && [F.hd_LIM_VMAX_X h, F.hd_LIM_VMAX_Y h, F.hd_LIM_VMAX_F h, F.hd_LIM_AMAX_X h, F.hd_LIM_AMAX_Y h, F.hd_LIM_AMAX_F h].all
        (fun f => d.v f != 0)

/-! ### Host writes -/

/-- A host write at `ofs` of the grid window that makes its entry `w'` (R123): IDLE only, clears VALID; the bytes after each grid are not stored (R119). -/
def Dev.gridEntry (d : Dev) (ofs w' : Nat) : Dev :=
  let h := ofs / 0x10000
  let o := ofs % 0x10000
  if 48 ≤ h then d
  else if !d.isSt .idle then d.err (0x10000 + 0x1000 * h) 0x82 (ofs % 65536) (0x1100000 + ofs)
  else if 4225 * 8 ≤ o then d
  else
    let k := h * 8192 + o / 8
    let d := { d with grid := Tab.set 0 d.grid k (BitVec.ofNat 64 w'), gridErr := Tab.set 0 d.gridErr k 0 }
    (d.p (F.hd_FC_STAT_VALID h) 0).p (F.hd_FC_STAT_HOST_WRITTEN h) 1
/-- A 32-bit host write of the grid window (R123). -/
def Dev.gridWrite (d : Dev) (ofs : Nat) (v : Word) : Dev :=
  d.gridEntry ofs (putHalf (Tab.at 0 d.grid (ofs / 0x10000 * 8192 + ofs % 0x10000 / 8)) ofs v)

/-- A write of the word at HDn 0x1B4: FC_ACCEPT and SERVO_RESTART, each half by its own key (R156). -/
def Dev.fcAcceptWrite (d : Dev) (h : Nat) (v : Word) : Dev :=
  let d := when (decide (Word.f v 15 0 = 0x4643)) (fun d => (d.p (F.hd_FC_STAT_VALID h) 1).p (F.hd_FC_STAT_HOST_WRITTEN h) 0) d
  -- the return of R144: CURRENT_PARK leaves to OFF; the 400 frames count once FE_FAULT is clear too
  when (decide (Word.f v 31 16 = 0x5253)) (fun d =>
    (forL (d.headSlots h) (fun s d =>
      let d := when (decide (d.mode s = 6)) (fun d => d.setMode s 0) d
      d.slotUpd s (fun sl => { sl with restarted := true, holdRun := 0 })) (d.hdUpd h (fun hd => { hd with restart := true }))).headSums h) d

/-! ### Meanings -/

/-- SAT_LIMIT_REACHED (R132): the saturation count of a slot under the primary law has reached SAT_LIMIT; the fall-back law's command replaces the one computed, in the downstream
frame of this boundary too. -/
def execSatLimitReached (slot : Fin 160) (s : State) : Host.Outcome State Fault Refusal :=
  onDev (fun d =>
    let n := slot.val
    let lim := d.v (sf F.slot_SAT_LIMIT n)
    when (decide (d.mode n = 1 ∨ d.mode n = 4 ∨ d.mode n = 5) && !(d.slot n).lawFb && decide (lim ≠ 0 ∧ lim ≤ (d.slot n).satCount)) (fun d =>
      let d := ((when (decide (d.mode n = 1)) (fun d => d.setMode n 2) d).flag (sf F.slot_SLOT_FLAGS_FB_SAT n)).raise (loopPage n) 1
      let d := when (d.slot n).fbSat (fun d => d.satFlag n 2) ((d.traceLate n 4).slotUpd n (fun sl => { sl with lawFb := true, c3 := sl.cmdFb }))
      let d := ((d.pi (sf F.slot_CMD_NOW n) (d.slot n).c3).loopSum (n / 16)).traceMend n
      match d.servesAxis n with
      | some (h, a) => d.laneUpd h (fun q => { q with dsCmd := q.dsCmd.set a (d.slot n).c3 })
      | none => d) d) s

/-- COAST_EXPIRE (R133, R139): more than COAST_MAX consecutive missing frames. -/
def execCoastExpire (slot : Fin 160) (s : State) : Host.Outcome State Fault Refusal :=
  onDev (fun d =>
    let n := slot.val
    match d.servesAxis n with
    | none => d
    | some (h, a) => when (decide (d.mode n = 3 ∧ d.v (sf F.slot_COAST_MAX n) < d.g (sf F.slot_SLOT_STAT_COAST_COUNT n)))
        (fun d => ((d.enterCurrentPark h a n 2 (((d.slot n).coastStart + 2) * frameT)).headSums h).traceMend n) d) s

/-- RECOVERED (R135): RECOVER clean frames, FB_FORCE = 0 and the laser off in plan entry F+2. -/
def execRecovered (slot : Fin 160) (s : State) : Host.Outcome State Fault Refusal :=
  onDev (fun d =>
    let n := slot.val
    match d.servesAxis n with
    | none => d
    | some (h, _) =>
      when (decide (d.mode n = 2) && decide (d.v (sf F.slot_RECOVER n) ≤ (d.slot n).clean) && decide (d.v (sf F.slot_SLOT_CTRL_FB_FORCE n) = 0)
          && !(d.hd h).litIn (d.time.frame + 2)) (fun d =>
        (((d.setMode n 1).slotUpd n (fun sl => { sl with lawFb := false, reinit := true })).raise (loopPage n) 6).loopSum (n / 16)) d) s

/-- A write of PARK_REQ (R137): the head's slots enter PARKING at the next boundary. -/
def Dev.parkWrite (d : Dev) (h : Nat) (v : Word) : Dev :=
  if Word.f v 0 0 = 1 then d.hdUpd h (fun hd => { hd with parkReq := true }) else d
/-- PARK_REQ (R137). -/
def execParkReq (head : Fin 48) (val : Word) (s : State) : Host.Outcome State Fault Refusal :=
  hosted (F.hd_PARK_REQ head.val).addr (onDev (fun d => d.parkWrite head.val val)) s

/-- PARKED (R138): 4 consecutive frames within PARK_TOL. The head has no plan position any more (03 R539). -/
def execParked (slot : Fin 160) (s : State) : Host.Outcome State Fault Refusal :=
  onDev (fun d =>
    let n := slot.val
    match d.servesAxis n with
    | none => d
    | some (h, _) => when (decide (d.mode n = 4 ∧ 4 ≤ (d.slot n).parkRun)) (fun d =>
        let d := ((d.setMode n 5).raise (loopPage n) 4).loopSum (n / 16)
        let d := d.hdUpd h (fun hd => { hd with placed := false })
        when (d.reportsParked h) (fun d => d.p (F.hd_PLAN_STAT_STATE h) 6) d) d) s

/-- The plan time of the first frame that a slot in PARKING left dark, two frames after it entered PARKING: it had no coast, which 06 R212 names. -/
def Dev.parkDark (d : Dev) (n : Nat) : Nat := (d.time.frame + 2 - (d.slot n).parkFrames) * frameT

/-- PARK_TIMEOUT (R139): not parked within PARK_TIME frames. -/
def execParkTimeout (slot : Fin 160) (s : State) : Host.Outcome State Fault Refusal :=
  onDev (fun d =>
    let n := slot.val
    match d.servesAxis n with
    | none => d
    | some (h, a) => when (decide (d.mode n = 4 ∧ d.v (F.hd_PARK_TIME h) ≤ (d.slot n).parkFrames ∧ (d.slot n).parkRun < 4))
        (fun d => ((d.enterCurrentPark h a n 3 (d.parkDark n)).headSums h).traceMend n) d) s

/-- SERVO_RESTART (R144, R156). -/
def execServoRestart (head : Fin 48) (val : Word) (s : State) : Host.Outcome State Fault Refusal :=
  hosted (F.hd_SERVO_RESTART head.val).addr (onDev (fun d => d.fcAcceptWrite head.val val)) s

/-- SERVO_HOLD_QUALIFIED (R144): 400 frames at the park position with |fe| ≤ FE_LIM; the head may rejoin at a layer boundary. -/
def execServoHoldQualified (head : Fin 48) (s : State) : Host.Outcome State Fault Refusal :=
  onDev (fun d =>
    let h := head.val
    when ((d.hd h).restart && (d.headSlots h).all (fun n => decide (400 ≤ (d.slot n).holdRun))) (fun d =>
      forL (d.headSlots h) (fun n d => d.slotUpd n (fun sl => { sl with faulted := false, restarted := false, holdRun := 0 }))
        (d.hdUpd h (fun hd => { hd with restart := false }))) d) s

/-- FC_GRID_WRITE (R123). -/
def execFcGridWrite (ofs : BitVec 22) (val : Word) (s : State) : Host.Outcome State Fault Refusal :=
  hosted (0x1100000 + ofs.toNat) (onDev (fun d => d.gridWrite ofs.toNat val)) s
/-- FC_ACCEPT (R123, R156). -/
def execFcAccept (head : Fin 48) (val : Word) (s : State) : Host.Outcome State Fault Refusal :=
  hosted (F.hd_FC_ACCEPT head.val).addr (onDev (fun d => d.fcAcceptWrite head.val val)) s

/-- A write of TRACE_ARM (R151): each 1 starts the capture of a slot of the page. Arming clears VALID_PRE and GAP_COUNT and begins the index at 0 (log 109). -/
def Dev.traceArm (d : Dev) (page : Nat) (v : Word) : Dev :=
  forN 16 (fun b d => when (v.getLsbD b) (fun d =>
    let n := 16 * page + b
    (((d.p (sf F.slot_TRACE_STAT_STATE n) 1).p (sf F.slot_TRACE_STAT_VALID_PRE n) 0).p (sf F.slot_TRACE_STAT_GAP_COUNT n) 0).slotUpd n
      (fun sl => { sl with tIdx := 0, tForce := false, tBurst := [] })) d) d
/-- TRACE_ARM (R151). -/
def execTraceArm (page : Fin 10) (val : Word) (s : State) : Host.Outcome State Fault Refusal :=
  hosted (F.loop_TRACE_ARM page.val).addr (onDev (fun d => d.traceArm page.val val)) s

/-- A write of TRACE_FORCE (R151): each 1 triggers the trace of a slot that captures. -/
def Dev.traceForce (d : Dev) (page : Nat) (v : Word) : Dev :=
  forN 16 (fun b d =>
    let n := 16 * page + b
    when (v.getLsbD b && decide (d.g (sf F.slot_TRACE_STAT_STATE n) = 1)) (fun d => d.slotUpd n (fun sl => { sl with tForce := true })) d) d
/-- TRACE_FORCE (R151). -/
def execTraceForce (page : Fin 10) (val : Word) (s : State) : Host.Outcome State Fault Refusal :=
  hosted (F.loop_TRACE_FORCE page.val).addr (onDev (fun d => d.traceForce page.val val)) s

/-- TRACE_DONE (R151): 4,096 − PRE samples from the trigger on have been captured, the trigger's among them (log 85). The last burst goes out as far as it
is filled. -/
def execTraceDone (slot : Fin 160) (s : State) : Host.Outcome State Fault Refusal :=
  onDev (fun d =>
    let n := slot.val
    when (decide (d.g (sf F.slot_TRACE_STAT_STATE n) = 2 ∧ (d.slot n).tTrig + 4096 - d.g (sf F.slot_TRACE_TRIG_PRE n) ≤ (d.slot n).tIdx))
      (fun d => ((d.traceSend n).p (sf F.slot_TRACE_STAT_STATE n) 3).raise (loopPage n) 7) d) s

/-- A trace burst of a slot is dropped (R152). -/
def Dev.traceDrop (d : Dev) (n : Nat) : Dev :=
  (((d.flag (sf F.slot_SLOT_FLAGS_TRACE_GAP n)).bump (sf F.slot_TRACE_STAT_GAP_COUNT n)).raise (loopPage n) 8).loopSum (n / 16)

/-- TRACE_GAP (R152): a burst of the slot that the controller has not accepted is dropped. -/
def execTraceGap (slot : Fin 160) (s : State) : Host.Outcome State Fault Refusal :=
  onDev (fun d =>
    let n := slot.val
    when (d.traceQ.any (fun q => q.1 == n)) (fun d => Dev.traceDrop { d with traceQ := d.traceQ.eraseP (fun q => q.1 == n) } n) d) s

end Sys2Proof.Machine
end

