-- ==== Sys2Proof/Machine/Stream.lean ====
section
/-!
DEFINITION. The vector engines: records and their checks, the prefetch buffer, and the planning of records and handoff items
(03 R89 to R94, R98 to R106, R539; 05 R174, R178; 06 R215, R219).
-/
namespace Sys2Proof.Machine

/-- The record of 8 words (R89). -/
def recOf (w : List Nat) : VRec :=
  let w0 := nth w 0
  { typ := bits w0 7 0, ctx := bits w0 15 8, rev := bit w0 16, cont := bit w0 17, skyIn := bit w0 18, skyOut := bit w0 19,
    dirty := decide (2 ^ 20 ≤ w0 ∨ nth w 6 ≠ 0 ∨ nth w 7 ≠ 0), x := sx 32 (nth w 1), y := sx 32 (nth w 2), f := sx 32 (nth w 3),
    param := nth w 4, tag := nth w 5 }

/-- The record at a DRAM address. -/
def recAt (m : List Host.Cell) (a : Nat) : VRec := recOf ((List.range 8).map (fun i => mem32 m (a + 4 * i)))

/-- Is a record a marking LINE or POINTS record. -/
def VRec.marks (r : VRec) : Bool := decide ((r.typ = 1 ∨ r.typ = 2) ∧ r.ctx ≠ 0)

/-- Is a record invalid (R92), after a record that did or did not mark and did or did not set SKY_OUT. SC-12 microcode takes a rest time in
PARAM of a CTX 0 LINE record (18 R498). CONT on a record that is no marking LINE or POINTS record is not invalid; it has no effect (log 77). -/
def Dev.recBad (d : Dev) (r : VRec) (prevMark prevSkyOut : Bool) : Bool :=
  let zero3 := decide (r.x = 0 ∧ r.y = 0 ∧ r.f = 0)
  let ctxOk := match r.typ with
    | 0x01 => true
    | 0x02 | 0x03 => decide (r.ctx ≠ 0)
    | 0x10 | 0x1F => decide (r.ctx = 0)
    | _ => false
  let c := d.ctxWords r.ctx
  !ctxOk || (decide (r.ctx ≠ 0) && !d.ctxValid r.ctx) || r.dirty
    || (r.cont && (!prevMark || prevSkyOut || r.skyIn))
    || ((r.skyIn || r.skyOut) && !r.marks)
    || (decide (r.typ = 2) && decide (cxw c 0x44 = 0 ∨ cxw c 0x48 = 0))
    || (decide (r.typ = 1 ∨ r.typ = 2) && decide (r.param ≠ 0) && !(decide (r.typ = 1 ∧ r.ctx = 0) && decide (d.g F.sys_SYS_STATE_MODE = 2)))
    || (decide (r.typ = 0x10) && !zero3)
    || (decide (r.typ = 0x1F) && (!zero3 || decide (r.param ≠ 0)))
    || (decide (r.typ = 3) && decide (r.param = 0))

/-- The record `k` places after the next one to plan, if it is in the prefetch buffer. -/
def Head.rec? (hd : Head) (k : Nat) : Option VRec :=
  let n := hd.p.next + k
  if n < hd.fetched ∧ n < hd.count ∧ hd.base ≤ n then hd.buf[n - hd.base]? else none

/-- The records in the buffer from `k` places after the next one on. -/
def Head.recsFrom (hd : Head) (k : Nat) : List VRec := (List.range 64).filterMap (fun i => hd.rec? (k + i))

/-- What planning reports (03 R90, R92; 01 R23; 05 R182; 06 R219): a MARKER by its record index. -/
inductive PEvt where
  | marker (idx tag param : Nat)
  | under
  | bad (idx : Nat)
  | item (n : Nat)
  | chain (nJ key : Nat)
  deriving DecidableEq, Repr

/-! ### Speeds of a marking vector (R94, R103, R104) -/

/-- The vectors of a CONT chain after its present one: each record, and whether it runs out at its marking speed. -/
abbrev Links := List (VRec × Bool)

/-- XY length of a record from a start point. -/
def VRec.lenFrom (r : VRec) (x y : Int) : Nat := xyLen x y (256 * r.x) (256 * r.y)

/-- Lengths of the vectors that follow a point. -/
def lensFrom : Int → Int → Links → List Nat
  | _, _, [] => []
  | x, y, l :: rest => l.1.lenFrom x y :: lensFrom (256 * l.1.x) (256 * l.1.y) rest

/-- The speed at which no plan frame holds more than 4 boundaries of a CONT chain (R94): any four vectors in a row take a frame when each runs at no
more than the sum of their lengths. `prev`: the lengths before, latest first; `next`: those behind (log 78). -/
def chainCap (prev : List Nat) (len : Nat) (next : List Nat) : Nat :=
  let l := (prev.take 3).reverse ++ len :: next.take 3
  (List.range (l.length - 3)).foldl (fun m i => min m (((l.drop i).take 4).foldl (· + ·) 0)) (2 ^ 32)

/-- The speed allowed at the end of a vector from `x, y` with limit `vm`, before the chain `rest`: that of the junction, with the values of the vector
before it (log 79), and that at which the rest can be entered. -/
def exitSpeed (c : List Nat) (vm : Nat) (x y : Int) (r : VRec) (rest : Links) (entry : Nat) : Nat :=
  match rest with
  | [] => 0
  | n :: _ =>
    let x1 := 256 * r.x
    let y1 := 256 * r.y
    min (junction c vm (x1 - x) (y1 - y) (256 * n.1.x - x1) (256 * n.1.y - y1) (r.lenFrom x y) (n.1.lenFrom x1 y1)) entry

/-- The greatest speed at which a chain may be entered at a point so that all of it can be run within its limits. Records that are not in the buffer end
the chain at rest. -/
def Dev.chainEntry (d : Dev) (h : Nat) : Links → List Nat → Int → Int → Nat
  | [], _, _, _ => 0
  | (r, out) :: rest, prev, x, y =>
    let c := d.ctxWords r.ctx
    let len := r.lenFrom x y
    let vm := min (d.markSpeed h c r.typ) (chainCap prev len (lensFrom (256 * r.x) (256 * r.y) rest))
    let a := cxw c 0x1C
    let j := cxw c 0x24
    if a = 0 ∨ j = 0 then 0
    else if out ∨ rampD 0 vm a j ≤ len then vm
    else reach len (exitSpeed c vm x y r rest (d.chainEntry h rest ((len :: prev).take 3) (256 * r.x) (256 * r.y))) vm a j

/-- The speeds of a piece of a marking record: its limit, what it ends with and what it is entered at. `c`: its context values; `cap`: a limit set by
R94; `len`: its length. -/
def Dev.markVs (d : Dev) (h : Nat) (c : List Nat) (x y : Int) (r : VRec) (len cap : Nat) (out : Bool) (rest : Links) (prev : List Nat) : Nat × Nat × Nat :=
  let vm := min (d.markSpeed h c r.typ) (min cap (chainCap prev len (lensFrom (256 * r.x) (256 * r.y) rest)))
  let a := cxw c 0x1C
  let j := cxw c 0x24
  let exit := if out then vm else exitSpeed c vm x y r rest (d.chainEntry h rest ((len :: prev).take 3) (256 * r.x) (256 * r.y))
  (vm, exit, if a = 0 ∨ j = 0 then 0 else reach len exit vm a j)

/-- The run-in's or run-out's length: the context's, or the distance needed when that is longer (R106), and whether it was stretched. -/
def skyLen (c : List Nat) (o v : Nat) : Nat × Bool :=
  let need := rampD 0 v (cxw c 0x1C) (cxw c 0x24)
  let want := 256 * cxw c o
  if want < need then (need, true) else (want, false)

/-- A point at path offset `k` (which may be negative) from a start along a line of length `L`. -/
def along (x0 y0 x1 y1 : Int) (L : Nat) (k : Int) : Int × Int :=
  if L = 0 then (x0, y0) else (coord (x0 + Int.tdiv ((x1 - x0) * k) L), coord (y0 + Int.tdiv ((y1 - y0) * k) L))

/-- The plan time at which the path coordinate passes `c`. -/
def Head.timeAt (hd : Head) (c : Int) : Nat :=
  match hd.segs.find? (fun g => decide (0 < g.len ∧ c < g.s1)) with
  | some g =>
    if c ≤ g.s0 then g.t0
    else g.t0 + bisect 40 (fun u => decide (g.s0 + g.at (g.t0 + u) ≤ c)) 0 g.stop
  | none => hd.p.pt

/-- Focus of a record's end in 1/256 nm, FOCUS_OFS of its motion context included (R95). -/
def focus (r : VRec) (c : List Nat) : Int := coord (256 * (r.f + cxi c 0x54))

/-- What a piece of a head's own stream belongs to: record `idx`, from the point where the record starts. -/
def Dev.whoOf (d : Dev) (h idx : Nat) (r : VRec) (ctx : Nat) (x0 y0 f0 : Int) : Who :=
  let c := d.ctxWords ctx
  { src := h, idx := idx, tag := r.tag, ctx := ctx, cw := c, rev := r.rev && bit (cxw c 0) 5, vr := r, x0 := x0, y0 := y0, f0 := f0 }

/-- Does a marking record run out of its own: SKY_OUT under SKY_EN (R105). -/
def VRec.runsOut (r : VRec) (c : List Nat) : Bool := r.skyOut && bit (cxw c 0) 6
/-- Does a marking record run in of its own (R105). -/
def VRec.runsIn (r : VRec) (c : List Nat) : Bool := r.skyIn && bit (cxw c 0) 6

/-- The valid CONT records that continue a marking record of the stream. One that is invalid, or of no length (R91), ends the marking at the vector
boundary before it (R92). -/
def Dev.contRun (d : Dev) : VRec → List VRec → Links
  | _, [] => []
  | r, m :: rest =>
    if m.cont && m.marks && !d.recBad m true r.skyOut && decide (m.x ≠ r.x ∨ m.y ≠ r.y) then (m, m.runsOut (d.ctxWords m.ctx)) :: d.contRun m rest else []

/-- Where the run-in of a marking record starts: on the straight extension before its start (R105). `rest`: the records behind it. -/
def Dev.runInStart (d : Dev) (h : Nat) (x y : Int) (r : VRec) (rest : List VRec) : Int × Int :=
  let c := d.ctxWords r.ctx
  let L := r.lenFrom x y
  if r.runsIn c then along x y (256 * r.x) (256 * r.y) L (-(skyLen c 0x4C (d.markVs h c x y r L (2 ^ 32) (r.runsOut c) (d.contRun r rest) []).2.2).1) else (x, y)

/-- Remember where planning stands at a laser-off vector boundary. -/
def Head.checkpoint (hd : Head) : Head := { hd with cps := hd.cps ++ [hd.p] }

/-- The edges of a marked piece (R100, 05 R161, R171): on and off coordinates moved by align, pulses on the record's own lattice inside
the piece (06 R215). `on` and `off` say which edges of a LINE the piece has; `v` is the vector's planned speed limit; `onT` and `lag` time an off edge
by the fixed clock. -/
def Dev.edgesOf (d : Dev) (h : Nat) (hd : Head) (r : VRec) (who : Who) (s0 s1 : Int) (o0 o1 : Int) (on off : Bool) (v onT : Nat) (lag : Int) : List PEdge :=
  let (dOn, dOff, al) := d.dirVals h who.cw who.rev
  let al := 256 * al
  let e (k : Nat) (c dl : Int) : PEdge := { kind := k, c := c, delay := dl, t := hd.timeAt c, width := 0, who := who, v := v, onT := onT, lag := lag }
  if r.typ = 1 ∧ d.g F.sys_SYS_STATE_MODE = 2 then
    -- the mark clock (18 R500, R501): single pulses, or one merged mark where the head cannot fire them
    let clk := Tab.at (0, 0) d.scClk who.ctx
    if clk.1 = 0 then []
    else
      let w := min clk.2 (clk.1 - d.g (F.hd_MIN_OFF h))
      let mk (k : Nat) (c dl : Int) : PEdge :=
        { kind := k, c := c, delay := dl, t := hd.timeAt c, width := w, pitch := hd.timeAt (s1 + al), last := dOff, who := who, v := v }
      if clk.1 < d.tmin h who.cw then [mk 4 (s0 + al) dOn, mk 5 (s1 + al) dOff] else [mk 6 (s0 + al) dOn]
  else if r.typ = 2 then
    let pitch : Int := 256 * cxw who.cw 0x44
    if pitch = 0 then []
    else
      -- the first lattice point at or after o0, the last before o1 (at or before, at the record's end)
      let k0 := (o0 + pitch - 1) / pitch
      let first := s0 + (k0 * pitch - o0) + al
      if s1 + al < first + (if o1 < 0 then 0 else 1) then []
      else [{ kind := 2, c := first, delay := dOn, t := hd.timeAt first, width := cxw who.cw 0x48, pitch := pitch,
              last := s1 + al - (if o1 < 0 then 0 else 1), who := who, v := v, c0 := first }]
  else (if on then [e 0 (s0 + al) dOn] else []) ++ (if off then [e 1 (s1 + al) dOff] else [])

/-! ### Pieces of a vector -/

/-- The speed of a record that ends in the plan frame it is taken into and would be followed there by a fifth (R94): the greatest at which it ends in a
later one. `endOf`: when it ends at a speed. -/
def Head.paced (hd : Head) (crowded : Bool) (v : Nat) (endOf : Nat → Nat) : Nat :=
  let e := (hd.p.recFrame + 1) * frameT
  if crowded && decide (1 ≤ v ∧ endOf v < e) then bisect 26 (fun w => decide (e ≤ endOf w)) 1 v else v

/-- The direction of a record from its start point. -/
def Who.dir (w : Who) : Int × Int := (256 * w.vr.x - w.x0, 256 * w.vr.y - w.y0)

/-- The run-out of a marking in its direction (R105): its speed is held, then the head comes to rest at SKY_OUT, stretched where needed (R106). -/
def Head.runOut (hd : Head) (who : Who) (dir : Int × Int) : Head :=
  let p := hd.p
  let c := who.cw
  let (len, str) := skyLen c 0x50 p.pv
  let fin := along p.px p.py (p.px + dir.1) (p.py + dir.2) (xyLen 0 0 dir.1 dir.2) len
  hd.lastSeg (hd.move fin.1 fin.2 p.pf 0 (max p.pv 1) (cxw c 0x1C) (cxw c 0x24) 0 who) (fun g => { g with str := str })

/-- Plan the run-in and the marking of a piece `[o0, o1)` of a record (o1 negative: to its end), from the record's start point. `out`: it ends at its
marking speed; `cont`: it continues the piece before with the laser on; `rest`: the chain that follows; `cap`: a limit of R94. -/
def Dev.planMark (d : Dev) (h : Nat) (r : VRec) (who : Who) (o0 o1 : Int) (runIn out cont : Bool) (rest : Links) (hd : Head) (cap : Nat) : Head :=
  let c := who.cw
  let x1 := 256 * r.x
  let y1 := 256 * r.y
  let f1 := focus r c
  let L := xyLen who.x0 who.y0 x1 y1
  let e1 : Int := if o1 < 0 then L else o1
  let len := (e1 - o0).toNat
  let a := cxw c 0x1C
  let j := cxw c 0x24
  let pA := along who.x0 who.y0 x1 y1 L o0
  let pB := along who.x0 who.y0 x1 y1 L e1
  let fA := lerp who.f0 f1 o0.toNat L
  let fB := lerp who.f0 f1 e1.toNat L
  let (vm, exit, ve) := d.markVs h c who.x0 who.y0 r len cap out rest hd.p.lens
  let jump (hd : Head) (x y : Int) : Head := hd.move x y fA 0 (cxw c 0x18) (cxw c 0x20) (cxw c 0x28) 0 who
  -- run-in: from rest, the marking speed exactly at the start point
  let hd := if runIn then
      let (inLen, str) := skyLen c 0x4C ve
      let st := along who.x0 who.y0 x1 y1 L (o0 - inLen)
      let hd := jump hd st.1 st.2
      hd.lastSeg (hd.move pA.1 pA.2 fA ve vm a j 0 who) (fun g => { g with str := str })
    else if cont then hd else jump hd pA.1 pA.2
  let s0 := hd.p.ps
  let prev := if cont then hd.segs.getLast?.filter (fun g => g.goesOn) else none
  let goesOn := match rest with | n :: _ => decide (n.1.typ = 1 ∧ r.typ = 1) | [] => false
  let hd1 := hd.move pB.1 pB.2 fB exit vm a j r.typ { who with nom := o0 }
  let codes (n v : Nat) : Int := rdiv ((n * 5000 : Nat) : Int) (max 1 v)
  let (onT, lag) := match prev with | some g => (g.onT, g.lag + codes g.len g.vm) | none => (hd1.timeAt (s0 + 256 * (d.dirVals h c who.rev).2.2), 0)
  let hd := hd.lastSeg hd1 (fun g => { g with cont := cont, goesOn := goesOn, onT := onT, lag := lag, vm := vm })
  { hd with edges := hd.edges ++ d.edgesOf h hd r who s0 hd.p.ps o0 o1 prev.isNone (!goesOn) vm onT (lag + codes len vm),
            p := { hd.p with lens := if rest.isEmpty then [] else (len :: hd.p.lens).take 3 } }

/-! ### Joined jumps (R105) -/

/-- The MARKER records from `k` places after the next record on, and the first other record behind them. -/
def Head.pastMarkers (hd : Head) (k : Nat) : List VRec × Option VRec :=
  let l := (List.range 64).map (fun i => hd.rec? (k + i))
  let ms := l.takeWhile (fun o => o.any (fun r => r.typ == 0x10))
  (ms.filterMap id, (l.drop ms.length).head?.join)

/-- The distances of a joined run-out and run-in between the off coordinate and the on coordinate of two markings: their length, and what is run at
constant speed at its begin and end because align moves a coordinate there. -/
def Dev.joinDist (d : Dev) (h : Nat) (who m : Who) : Nat × Nat × Nat :=
  let al (w : Who) : Int := (d.dirVals h w.cw w.rev).2.2
  (xyLen (256 * who.vr.x) (256 * who.vr.y) m.x0 m.y0, 256 * (al who).toNat, 256 * (-(al m)).toNat)

/-- The values an item is planned with: those its vector keeps, or those in force now (R98). -/
def Dev.itemCw (d : Dev) (it : Item) : List Nat := if it.cw = [] then d.ctxWords it.vr.ctx else it.cw

/-- A vector as it enters the plan: with the values in force in that frame, or those its item keeps (R98). -/
def Dev.whoNow (d : Dev) (w : Who) : Who :=
  let c := match w.item with
    | some n => d.itemCw (Tab.at {} d.hand.items n)
    | none => d.ctxWords w.ctx
  { w with cw := c, rev := w.vr.rev && bit (cxw c 0) 5 }

/-- The run-out that the plan's end still owes is planned to rest (R105). -/
def Head.finishOut (hd : Head) : Head :=
  match hd.p.out with
  | none => hd
  | some w => ({ hd with p := { hd.p with out := none } }.runOut w w.dir).checkpoint

/-- The motion from the end of a marking at speed to the start of the next, without rest (R105): within the jump limits of the motion context, F moving
along the jump. `v`: the speed at which the next marking is entered. -/
def Dev.joinRun (d : Dev) (h : Nat) (who j m : Who) (v : Nat) (hd : Head) : Head :=
  let c := j.cw
  let (D, d1, d2) := d.joinDist h who m
  let at_ (k : Nat) : Int × Int := along hd.p.px hd.p.py m.x0 m.y0 D k
  let v1 := hd.p.pv
  let pa := at_ d1
  let pb := at_ (D - d2)
  let hd := hd.move pa.1 pa.2 hd.p.pf v1 v1 (cxw c 0x20) (cxw c 0x28) 0 who
  let fa := 256 * cxw who.cw 0x50 - d1
  let fb := min (D - d2) (D - 256 * cxw m.cw 0x4C) - d1
  let hd := hd.lastSeg (hd.move pb.1 pb.2 m.f0 v (cxw c 0x18) (cxw c 0x20) (cxw c 0x28) 0 j) (fun g => { g with fa := fa, fb := max 1 fb })
  hd.move m.x0 m.y0 m.f0 v v (cxw c 0x20) (cxw c 0x28) 0 m

/-- A joined start that was refused (05 R180): the run-out ends at rest and the jump at rest at the run-in's start. -/
def Dev.unjoin (d : Dev) (h : Nat) (hd : Head) : Head :=
  match hd.p.join, hd.p.start with
  | some (w, j), some (_, m, _) =>
    let c := j.cw
    let hd := hd.runOut w w.dir
    let st := d.runInStart h m.x0 m.y0 m.vr (hd.recsFrom 0)
    let hd := hd.move st.1 st.2 m.f0 0 (cxw c 0x18) (cxw c 0x20) (cxw c 0x28) 0 j
    ({ hd with p := { hd.p with join := none } }).checkpoint
  | _, _ => { hd with p := { hd.p with join := none } }

/-- A marking that ends at its marking speed before a run-out (R105), as the plan reaches its end: when run-out, jump and run-in lie on one straight line in one direction, their
records are in the buffer, no MARKER between would be the fifth record of its plan frame (R94) and the jump limits allow it (log 80): the records up to
the next marking are taken and its start is asked for at speed. -/
def Dev.joinNext (d : Dev) (h : Nat) (hd : Head) (who : Who) : Option (Head × List PEvt) :=
  let r := who.vr
  let (ms, jp?) := hd.pastMarkers 0
  let (ns, m?) := hd.pastMarkers (ms.length + 1)
  match jp?, m? with
  | some jp, some m =>
    let p := hd.p
    let k := ms.length + ns.length + 1
    let cj := d.ctxWords r.ctx
    let x := 256 * jp.x
    let y := 256 * jp.y
    let f := focus jp cj
    let mw := d.whoOf h (p.next + k) m m.ctx x y f
    let jw := d.whoOf h (p.next + ms.length) jp r.ctx (256 * r.x) (256 * r.y) p.pf
    let ux := 256 * r.x - who.x0
    let uy := 256 * r.y - who.y0
    let gx := x - 256 * r.x
    let gy := y - 256 * r.y
    let wx := 256 * m.x - x
    let wy := 256 * m.y - y
    let sky := 256 * (cxw who.cw 0x50 + cxw mw.cw 0x4C)
    let (D, d1, d2) := d.joinDist h who mw
    let ve := (d.markVs h mw.cw x y m (m.lenFrom x y) (2 ^ 32) (m.runsOut mw.cw) (d.contRun m (hd.recsFrom (k + 1))) []).2.2
    let vj := cxw cj 0x18
    let here := if p.recFrame = p.pt / frameT then p.recCnt else 0
    let ok := decide (jp.typ = 1 ∧ jp.ctx = 0) && m.marks && m.runsIn mw.cw && !m.cont
      && !(ms ++ [jp]).any (fun q => d.recBad q true true) && !(ns ++ [m]).any (fun q => d.recBad q false false)
      && decide (ux * gy = uy * gx ∧ ux * wy = uy * wx ∧ 0 < ux * gx + uy * gy ∧ 0 < ux * wx + uy * wy)
      && decide (sky ≤ D) && decide (f = p.pf ∨ sky < D ∧ d1 + 256 * cxw mw.cw 0x4C < D ∧ d2 + 256 * cxw who.cw 0x50 < D) && decide (here + ms.length ≤ 4 ∧ ns.length ≤ 3)
      && decide (d1 + d2 ≤ D ∧ 0 < p.pv ∧ p.pv ≤ vj ∧ ve ≤ vj ∧ 0 < ve) && decide (rampD p.pv ve (cxw cj 0x20) (cxw cj 0x28) ≤ D - d1 - d2)
    if !ok then none
    else
      let mark (i : Nat) (q : VRec) : PEvt := .marker (p.next + i) q.tag q.param
      some ({ hd with p := { p with next := p.next + k + 1, motion := m.ctx, prevMark := true, prevSkyOut := m.skyOut, broken := false, recCnt := p.recCnt + k + 1,
                                    rx := x, ry := y, rf := f, start := some (m, mw, 0, -1, true), join := some (who, jw) } },
        ms.zipIdx.map (fun e => mark e.2 e.1) ++ ns.zipIdx.map (fun e => mark (ms.length + 1 + e.2) e.1))
  | _, _ => none

/-! ### Starts -/

/-- The pulses of a planned POINTS edge (05 R171, 06 R215). -/
def PEdge.pulses (e : PEdge) : Nat := if e.pitch ≤ 0 ∨ e.last < e.c then 0 else ((e.last - e.c) / e.pitch + 1).toNat

/-- The reservation of the vector planned last, whose edges are `es` (05 R179, R182): a POINTS vector's by the pulses it has. -/
def Head.lastReserve (hd : Head) (r : VRec) (es : List PEdge) : Nat :=
  match (hd.segs.filter (fun g => decide (g.lit ≠ 0))).getLast? with
  | none => 0
  | some g => reserveNJ g.who.cw r.typ g.dur ((es.find? (fun e => e.kind == 2)).elim 0 PEdge.pulses) r.param

/-- The items that continue an item of a head with the laser on (R216, R219), at most `n` of them. -/
def Dev.itemNext (d : Dev) (h n : Nat) : Option Nat :=
  let it := Tab.at {} d.hand.items n
  if it.contNext then ((d.hand.items.filter (fun e => e.2.kind == it.kind && e.2.dst == some h && e.2.src == it.src && e.2.idx == it.idx + 1 && !e.2.running)).head?).map (·.1)
  else none
/-- Does an item run out at its marking speed (06 R219). -/
def Dev.itemOut (d : Dev) (h n : Nat) : Bool :=
  let it := Tab.at ({} : Item) d.hand.items n
  decide (it.sEnd ≠ 0xFFFFFFFF) || (d.itemNext h n).isNone && (it.cut || it.vr.runsOut (d.itemCw it))
/-- The chain of items behind an item, as far as a prefetch buffer reaches. -/
def Dev.itemLinks (d : Dev) (h : Nat) : Nat → Nat → Links
  | 0, _ => []
  | k + 1, n => match d.itemNext h n with
    | none => []
    | some q => ((Tab.at ({} : Item) d.hand.items q).vr, d.itemOut h q) :: d.itemLinks h k q

/-- A record is in the plan frame the plan has reached: it counts there (R94). -/
def Head.counted (hd : Head) : Head :=
  let k := hd.p.pt / frameT
  if hd.p.recFrame = k then hd else { hd with p := { hd.p with recFrame := k, recCnt := 1 } }

/-- Is the next record of the stream one with motion. -/
def Head.vectorNext (hd : Head) (k : Nat) : Bool := (hd.rec? k).any (fun r => decide (r.typ ≤ 3))

/-- A granted start (05 R179), or a vector that needs none, is planned: run-in and marking, and an item's run-out, or the dwell. An own marking's run-out
follows when the plan reaches its end, whether it joins a jump or not (R105). An item leaves untouched where the own stream stands. -/
def Dev.planStart (d : Dev) (h : Nat) (hd : Head) : Head × List PEvt :=
  match hd.p.start with
  | none => (hd, [])
  | some (r, who, o0, o1, runIn) =>
    let join := hd.p.join
    let who := d.whoNow who
    let own := who.item.isNone
    let hd := ({ hd with p := { hd.p with start := none, join := none } }).counted
    -- the start point of the next record of the own stream
    let at_ (hd : Head) (broken : Bool) : Head :=
      if own then { hd with p := { hd.p with rx := 256 * r.x, ry := 256 * r.y, rf := focus r who.cw, broken := broken } } else hd
    if r.typ = 3 then
      let (dOn, _, _) := d.dirVals h who.cw who.rev
      let e : PEdge := { kind := 3, c := hd.p.ps, delay := dOn, t := hd.p.pt, width := r.param, who := who }
      let hd := hd.stay (max 1 (r.param * frameT / 5000)) 3 who
      ((at_ { hd with edges := hd.edges ++ [e] } hd.p.broken).checkpoint, [])
    else
      let rest := match who.item with
        | none => if o1 < 0 then d.contRun r (hd.recsFrom 0) else []
        | some n => d.itemLinks h 64 n
      let out := match who.item with | none => r.runsOut who.cw | some n => d.itemOut h n
      let cont := r.cont && (!own || hd.p.prevMark && !hd.p.broken)
      -- a chain counts its plan frame's records before it (R94)
      let hd := if cont then hd else { hd with p := { hd.p with lens := if rest.isEmpty then [] else List.replicate (min 3 (hd.p.recCnt - 1)) 0 } }
      let hd := match join with
        | none => hd
        | some (w, j) => d.joinRun h w j who (d.markVs h who.cw who.x0 who.y0 r (r.lenFrom who.x0 who.y0) (2 ^ 32) out rest hd.p.lens).2.2 hd
      let go (cap : Nat) : Head :=
        let hd := d.planMark h r who o0 o1 (runIn && join.isNone) out cont rest hd cap
        if out then hd.runOut who who.dir else hd
      let cap := hd.paced (decide (4 ≤ hd.p.recCnt) && own && rest.isEmpty && hd.vectorNext 0 && join.isNone && !cont) (cxw who.cw 0x14) (fun v => (go v).p.pt)
      let hd1 := at_ (d.planMark h r who o0 o1 (runIn && join.isNone) out cont rest hd cap) (decide (r.lenFrom who.x0 who.y0 = 0) || rest.isEmpty)
      let ev := if cont then [PEvt.chain (hd1.lastReserve r (hd1.edges.drop hd.edges.length)) who.key] else []
      if own && out then ({ hd1 with p := { hd1.p with out := some who } }, ev)
      else
        let hd2 := if out then hd1.runOut who who.dir else hd1
        (if rest.isEmpty then hd2.checkpoint else hd2, ev)

/-- The plan has reached the end of an own marking that runs out: the jump behind it joins it, or it runs out to rest (R105). Where it joins, the boundary
at its end is kept: a hold there lets it run out (06 R204). -/
def Dev.planOut (d : Dev) (h : Nat) (hd : Head) (who : Who) : Head × List PEvt :=
  match d.joinNext h { hd with p := { hd.p with out := none } } who with
  | some (hd', ms) => ({ hd' with cps := hd'.cps ++ [hd.p] }, ms)
  | none => (hd.finishOut, [])

/-! ### Taking records and items -/

/-- Take the next record of the own stream (R90 to R94). Any record with a CTX, a DWELL too, sets the motion context of the CTX 0 records behind it
(log 81). -/
def Dev.planRecord (d : Dev) (h : Nat) (hd : Head) (r : VRec) : Head × List PEvt :=
  let p := hd.p
  let idx := p.next
  let adv (p : PState) : PState :=
    { p with next := idx + 1, prevMark := r.marks, prevSkyOut := r.skyOut, recCnt := p.recCnt + 1,
             motion := if r.ctx ≠ 0 then r.ctx else p.motion }
  if r.typ = 0x1F then ({ hd with p := { adv p with done := true } }, [])
  else if r.typ = 0x10 then ({ hd with p := adv p }, [.marker idx r.tag r.param])
  else
    let ctx := if r.ctx = 0 then p.motion else r.ctx
    let c := d.ctxWords ctx
    let who := d.whoOf h idx r ctx p.rx p.ry p.rf
    let x1 := 256 * r.x
    let y1 := 256 * r.y
    let jump (hd : Head) (x y f : Int) (v : Nat) : Head := hd.move x y f 0 v (cxw c 0x20) (cxw c 0x28) 0 who
    -- the fourth record of a plan frame with a vector behind it
    let crowded := decide (3 ≤ p.recCnt ∧ p.pv = 0) && hd.vectorNext 1
    if r.marks then
      if r.lenFrom p.rx p.ry = 0 then
        -- nothing is exposed: F moves alone (R91)
        let go (v : Nat) : Head := jump hd p.px p.py (focus r c) v
        let hd := go (hd.paced crowded (cxw c 0x18) (fun v => (go v).p.pt))
        (({ hd with p := { adv hd.p with rf := focus r c, broken := true } }).checkpoint, [])
      else if r.cont && !p.broken && p.prevMark then
        let r := d.planStart h { hd with p := { adv p with start := some (r, who, 0, -1, false), prevMark := true } }
        ({ r.1 with p := { r.1.p with prevMark := true } }, r.2)
      else
        let st := d.runInStart h p.rx p.ry r (hd.recsFrom 1)
        -- to the run-in's start, or to the start point, unless the jump before ended there
        let hd := if p.px ≠ st.1 ∨ p.py ≠ st.2 then jump hd st.1 st.2 p.rf (cxw c 0x18) else hd
        (({ hd with p := { adv hd.p with start := some (r, who, 0, -1, r.runsIn c) } }).checkpoint, [])
    else if r.typ = 3 then
      let hd := jump hd x1 y1 (focus r c) (cxw c 0x18)
      (({ hd with p := { adv hd.p with start := some (r, who, 0, -1, false) } }).checkpoint, [])
    else
      -- a jump, which ends at the run-in's start when a run-in follows, MARKER records between or not
      let (ms, next?) := hd.pastMarkers 1
      let (tx, ty) := match next? with
        | some m => if m.marks && !m.cont then d.runInStart h x1 y1 m (hd.recsFrom (ms.length + 2)) else (x1, y1)
        | none => (x1, y1)
      let f1 := focus r c
      -- the rests of SC-12 microcode, in µs: before the motion and after it (18 R498)
      let wait (hd : Head) (us : Nat) : Head := if us ≠ 0 then hd.restUntil (hd.p.pt + us * 2 * frameT / 5) else hd
      let go (v : Nat) : Head := wait (jump (wait hd (r.param / 65536)) tx ty f1 v) (r.param % 65536)
      let hd := go (hd.paced crowded (cxw c 0x18) (fun v => (go v).p.pt))
      (({ hd with p := { adv hd.p with rx := x1, ry := y1, rf := f1 } }).checkpoint, [])

/-- Insertion by a key, before the first entry with a greater one. -/
def insertBy {α : Type} (key : α → Nat) (x : α) : List α → List α
  | [] => [x]
  | y :: l => if key x ≤ key y then x :: y :: l else y :: insertBy key x l

/-- The items that name a head and are not being executed, in the order it takes them (06 R216, R219): its remainders, then the others, each in the
order in which they were made. With TAKE = 1 every other item, and with any setting a repair it logged for itself, waits for the END of its own stream. -/
def Dev.itemsFor (d : Dev) (h : Nat) (streamDone : Bool) : List Nat :=
  let ok (e : Nat × Item) : Bool := decide (e.2.kind ≠ 0) && decide (e.2.dst = some h) && !e.2.running
  let mine := (d.hand.items.filter ok).foldr (insertBy (·.2.order)) []
  let now_ (e : Nat × Item) : Bool := if e.2.kind = 2 ∧ e.2.loggedBy = h ∨ d.v F.ibex_HO_CTRL_TAKE = 1 then streamDone else true
  (mine.filter (fun e => e.2.kind == 3)).map (·.1) ++ (mine.filter (fun e => e.2.kind != 3 && now_ e)).map (·.1)

/-- An item is under way. -/
def Dev.itemTaken (d : Dev) (n : Nat) : Dev := { d with hand := { d.hand with items := Tab.upd {} d.hand.items n (fun it => { it with running := true }) } }

/-- What a piece of an item belongs to. -/
def Dev.itemWho (d : Dev) (n : Nat) : Who :=
  let it := Tab.at ({} : Item) d.hand.items n
  let c := d.itemCw it
  { src := it.src, idx := it.idx, tag := it.tag, ctx := it.vr.ctx, cw := c, rev := it.vr.rev && bit (cxw c 0) 5, nom := 256 * it.sStart,
    item := some n, attempt := it.attempt, vr := it.vr, x0 := it.x0, y0 := it.y0, f0 := it.f0 }

/-- An item is taken next: what its start asks for. `cont`: it continues the item before with the laser on. Where the own stream stands stays as it was. -/
def Dev.takeItem (d : Dev) (h n : Nat) (cont runIn : Bool) (hd : Head) : Head :=
  let it := Tab.at ({} : Item) d.hand.items n
  { hd with p := { hd.p with start := some ({ it.vr with cont := cont }, d.itemWho n, 256 * it.sStart, if it.sEnd = 0xFFFFFFFF then -1 else 256 * it.sEnd, runIn),
                             chain := d.itemNext h n, recCnt := hd.p.recCnt + 1 } }

/-- Plan the jump to an item and ask for its start (06 R219): every item that does not begin at its record's start gets a run-in. -/
def Dev.planItem (d : Dev) (h : Nat) (hd : Head) (n : Nat) : Head × List PEvt :=
  let it := Tab.at ({} : Item) d.hand.items n
  let r := it.vr
  let who := d.itemWho n
  let c := who.cw
  let o0 : Int := 256 * it.sStart
  let L := r.lenFrom it.x0 it.y0
  let len := ((if it.sEnd = 0xFFFFFFFF then (L : Int) else 256 * it.sEnd) - o0).toNat
  let runIn := decide (it.sStart ≠ 0) || r.cont || it.cut || r.runsIn c
  let at_ (k : Int) : Int × Int := along it.x0 it.y0 (256 * r.x) (256 * r.y) L k
  let st := if r.typ = 3 then (256 * r.x, 256 * r.y)
    else if runIn then at_ (o0 - (skyLen c 0x4C (d.markVs h c it.x0 it.y0 r len (2 ^ 32) (d.itemOut h n) (d.itemLinks h 64 n) []).2.2).1) else at_ o0
  let fA := if r.typ = 3 then focus r c else lerp it.f0 (focus r c) (256 * it.sStart) L
  let hd := hd.move st.1 st.2 fA 0 (cxw c 0x18) (cxw c 0x20) (cxw c 0x28) 0 who
  ((d.takeItem h n false runIn hd).checkpoint, [.item n])

/-- One step of planning for head `h` in frame `f`, while the plan ends before boundary `f + 17` (R101). With `assume`, starts are
taken as granted (06 R206). None: nothing can be added now. -/
def Dev.planOne (d : Dev) (h f : Nat) (assume : Bool) (hd : Head) : Option (Head × List PEvt) :=
  let p := hd.p
  if !hd.placed || decide ((f + 17) * frameT ≤ p.pt) then none
  else if p.start.isSome then (if assume then some (d.planStart h hd) else none)
  else match p.out with
  | some who => some (d.planOut h hd who)
  | none =>
    let k := p.pt / frameT
    let hd := if p.recFrame = k then hd else { hd with p := { p with recFrame := k, recCnt := 0 } }
    if p.chain.isSome ∧ (p.pv ≠ 0 ∨ (hd.segs.getLast?.map (fun g => decide (g.lit ≠ 0))).getD false) then
      -- an item's CONT chain goes on with the laser on
      let n := p.chain.getD 0
      let r := d.planStart h (d.takeItem h n true false hd)
      some (r.1, r.2 ++ [.item n])
    -- at most 4 records in one plan frame (R94)
    else if 4 ≤ hd.p.recCnt ∧ hd.p.pv = 0 then some (hd.restUntil ((k + 1) * frameT), [])
    else
      -- a span that finds no entry in the store keeps its head to its items (06 R217)
      let own := hd.active && !hd.p.done && !hd.bad && !d.hand.spans.any (fun e => e.1 == h)
      -- its remainders come first, those that wait for an entry too (06 R219)
      let rests := d.hand.waiting.any (fun it => it.dst == some h)
      let items := if hd.p.pv = 0 ∧ !(match hd.rec? 0 with | some r => r.cont && r.marks && hd.p.prevMark | none => false)
        then (d.itemsFor h (!hd.active || hd.p.done)).filter (fun n => !rests || (Tab.at ({} : Item) d.hand.items n).kind == 3) else []
      match items with
      | n :: _ => some (d.planItem h hd n)
      | [] =>
        if !own || rests then none
        else if hd.count ≤ hd.p.next then some ({ hd with p := { hd.p with done := true } }, [])
        else match hd.rec? 0 with
          | none => if hd.under then none else some ({ hd with under := true }, [.under])
          | some r =>
            -- a head that underran goes on with STREAM_RESUME (01 R23)
            if hd.under then none
            else if d.recBad r hd.p.prevMark hd.p.prevSkyOut then some ({ hd with bad := true }, [.bad hd.p.next])
            else some (d.planRecord h hd r)

/-- Planning until nothing more can be added; `n` bounds the steps. What it takes from the store is under way for the steps after. -/
def Dev.planRun (d : Dev) (h f : Nat) (assume : Bool) : Nat → Head × List PEvt → Head × List PEvt
  | 0, r => r
  | n + 1, r =>
    match d.planOne h f assume r.1 with
    | none => r
    | some (hd, ev) =>
      let d := ev.foldl (fun d e => match e with | .item k => d.itemTaken k | _ => d) d
      d.planRun h f assume n (hd, r.2 ++ ev)

/-- CAP of a head's duty bucket in nJ (05 R181): of the class of the vector executed last, before the first one of class `c` (log 87). -/
def Dev.dutyCap (d : Dev) (h c : Nat) : Nat := d.v (F.fire_DCLASSc_CAP ((d.hd h).dutyClass.getD c)) * 1000000
/-- CAP of a power group's bucket in nJ. -/
def Dev.groupCap (d : Dev) (g : Nat) : Nat := d.v (F.fire_PGg_CAP g) * 1000000
/-- Both buckets of a head are debited by a reservation (05 R179, R182); a bucket with CAP = 0 is not. -/
def Dev.debit (d : Dev) (h key n : Nat) : Dev :=
  let g := d.v (F.hd_FIRE_CTRL_PGROUP h)
  let a := if d.dutyCap h 0 = 0 then 0 else n
  let b := if d.groupCap g = 0 then 0 else n
  let d := d.hdUpd h (fun hd => { hd with duty := hd.duty - a, reserved := hd.reserved ++ [(key, a, g, b)] })
  { d with hand := { d.hand with groups := d.hand.groups.set g (nthI d.hand.groups g - b) } }
/-- A reservation is given back or settled: both buckets take `n − e` of it, where they were debited by `n` (05 R181, Collisions). -/
def Dev.undebit (d : Dev) (h key e : Nat) : Dev :=
  match (d.hd h).reserved.find? (fun r => r.1 == key) with
  | none => d
  | some (_, a, g, b) =>
    let back (cap n : Nat) : Int := if cap = 0 then 0 else n - (e : Int)
    let x := back (d.dutyCap h 0) a
    let y := back (d.groupCap g) b
    let d := d.hdUpd h (fun hd => { hd with duty := hd.duty + x, reserved := hd.reserved.eraseP (fun r => r.1 == key) })
    { d with hand := { d.hand with groups := d.hand.groups.set g (nthI d.hand.groups g + y) } }

/-- What planning reported takes effect: events, each MARKER's once, counters, items under way. -/
def Dev.planReport (d : Dev) (h : Nat) (ev : List PEvt) : Dev :=
  ev.foldl (fun d e => match e with
    | .marker i t p => when (decide ((d.hd h).markDone ≤ i)) (fun d => (d.hdUpd h (fun hd => { hd with markDone := i + 1 })).raise 0x8000 9 [t, p, 0]) d
    | .under => (d.p (F.hd_PLAN_STAT_STATE h) 3).raise 0x8000 3 [h]
    | .bad i =>
      let a := (d.hd h).addr + 32 * i
      ((d.p (F.hd_PLAN_STAT_STATE h) 4).p (F.hd_REC_INDEX h) i).raise 0x8000 4 [h, d.g F.seq_LAYER_NUM, a % 2 ^ 32, a / 2 ^ 32]
    | .chain nJ key =>
      let d := d.debit h key nJ
      when (decide ((d.hd h).duty < 0 ∨ nthI d.hand.groups (d.v (F.hd_FIRE_CTRL_PGROUP h)) < 0))
        (fun d => (d.flag (F.hd_FIRE_FLAGS_DUTY_OVERRUN h)).raise 0x70000 5) d
    | .item n => d.itemTaken n) d

/-- The stretches whose run-in or run-out begins in frame `f` (R106): each counts once, as it is executed. -/
def Dev.stretchStep (d : Dev) (h f : Nat) : Dev :=
  ((d.hd h).segs.filter (fun g => g.str && decide (g.t0 / frameT = f))).foldl (fun d _ =>
    ({ d with seq := { d.seq with stretches := d.seq.stretches + 1 } }).bump (F.hd_STRETCH_COUNT h)) d

/-- Cut the plan at a remembered boundary (06 R204, R102): the pieces and edges after it are dropped, and their items wait again. -/
def Dev.cutPlan (d : Dev) (h : Nat) (cp : PState) : Dev :=
  let hd := d.hd h
  let segs := hd.segs.filter (fun g => decide (g.t1 ≤ cp.pt))
  let edges := hd.edges.filter (fun e => decide (e.t < cp.pt) || segs.any (fun g => decide (g.lit ≠ 0 ∧ g.who = e.who)))
  let kept (n : Nat) : Bool := segs.any (fun g => g.who.item == some n) || cp.start.any (fun s => s.2.1.item == some n)
  let gone := hd.segs.filterMap (fun g => match g.who.item with | some n => if kept n then none else some n | none => none)
  let d := d.hdUpd h (fun hd => { hd with segs := segs, edges := edges, p := cp, cps := hd.cps.filter (fun c => decide (c.pt < cp.pt)), under := false }.finishOut)
  { d with hand := { d.hand with items := gone.eraseDups.foldl (fun t n => Tab.upd {} t n (fun it => { it with running := false })) d.hand.items } }

/-- Drop what lies more than 8 frames behind and behind every plan time in `keep`, and the records no remembered boundary needs. -/
def Head.prune (hd : Head) (f : Nat) (keep : List Nat) : Head :=
  let open_ := (hd.clip.map (·.t0)).toList ++ (hd.darkAt.map (·.t0)).toList ++ keep
  let old := open_.foldl min ((f - 8) * frameT)
  let cps := hd.cps.filter (fun c => decide (f * frameT ≤ c.pt))
  let base := cps.foldl (fun b c => min b c.next) hd.p.next
  { hd with segs := hd.segs.filter (fun g => decide (old ≤ g.t1)), cps := cps, buf := hd.buf.drop (base - hd.base), base := max base hd.base }

/-- The next burst is requested whenever 32 or fewer unplanned records remain (R93); a burst that was absent is requested again. -/
def Dev.fetchRequest (d : Dev) (h : Nat) : Dev :=
  let hd := d.hd h
  if hd.active ∧ hd.fetched < hd.count ∧ hd.fetched - hd.p.next ≤ 32 then d.hdUpd h (fun hd => { hd with req := true }) else d

/-- PLAN_STAT, REC_INDEX and REC_AVAIL (R112) at frame `f`. PLAN_STAT.CTX shows the motion context of a jump (log 82). -/
def Dev.planStat (d : Dev) (h f : Nat) : Dev :=
  let hd := d.hd h
  let st := if d.reportsParked h then 6
    else if !hd.active then 0 else if hd.bad then 4 else if d.on (F.hd_IBEX_STAT_HELD h) then 2 else if hd.under then 3
    else if hd.p.done then 5 else 1
  let d := (d.p (F.hd_PLAN_STAT_STATE h) st).p (F.hd_REC_AVAIL h) (min 64 (hd.fetched - hd.p.next))
  match hd.segAt f with
  | some g => when (!hd.bad) (fun d => d.p (F.hd_REC_INDEX h) g.who.idx) (d.p (F.hd_PLAN_STAT_CTX h) g.who.ctx)
  | none => d.p (F.hd_PLAN_STAT_CTX h) 0

/-- The start position of a head without a plan position (R539): the inverse of the linear part at its present limited set-points. A part
whose inverse does not exist is taken as 0 (log 83). -/
def Dev.startPos (d : Dev) (h : Nat) : Int × Int × Int :=
  let m00 := d.gi (F.hd_FC_M00 h)
  let m01 := d.gi (F.hd_FC_M01 h)
  let m10 := d.gi (F.hd_FC_M10 h)
  let m11 := d.gi (F.hd_FC_M11 h)
  let kf := d.gi (F.hd_FC_KF h)
  let sp (a : Nat) : Int := (d.slot (d.axisSlot h a)).sp2
  let det := m00 * m11 - m01 * m10
  let q (n : Int) : Int := if det = 0 then 0 else if 0 < det then rdiv (n * 2 ^ 28) det else rdiv (-n * 2 ^ 28) (-det)
  let fz : Int := if kf = 0 then 0 else if 0 < kf then rdiv (sp 2 * 2 ^ 28) kf else rdiv (-(sp 2) * 2 ^ 28) (-kf)
  (coord (256 * (q (m11 * sp 0 - m01 * sp 1) + d.gi (F.hd_FC_CX h))), coord (256 * (q (m00 * sp 1 - m10 * sp 0) + d.gi (F.hd_FC_CY h))), coord (256 * fz))

/-- A head gets a plan position at rest (R539): its last one, or the one computed from its set-points; motion from boundary `t` on. -/
def Dev.placeHead (d : Dev) (h t : Nat) : Dev :=
  let hd := d.hd h
  let (x, y, f) := if hd.placed then (hd.p.px, hd.p.py, hd.p.pf) else d.startPos h
  d.hdUpd h (fun hd => { hd with placed := true, segs := if hd.placed then hd.segs else [],
                                             p := { hd.p with pt := max t (if hd.placed then hd.p.pt else 0), px := x, py := y, pf := f, pv := 0, rx := x, ry := y, rf := f } })

/-! ### Meanings -/

/-- Is a fetch of own records under way (R93). -/
def Head.wants (hd : Head) : Bool := hd.req && decide (hd.fetched < hd.count)
/-- The range that it reads: the rest of a burst, within the stream. -/
def Head.burst (hd : Head) : Nat × Nat :=
  let a := hd.addr + 32 * hd.fetched
  (a, 32 * min (hd.count - hd.fetched) (if a % 64 = 0 then 2 else 1))

/-- RECORD_FETCH_DONE (R93): the requested 64-byte burst brings its records, or is absent on an uncorrectable error (01 R24). -/
def execRecordFetchDone (head : Fin 48) (s : State) : Host.Outcome State Fault Refusal :=
  onRead (fun d => if (d.hd head.val).wants then [(d.hd head.val).burst] else []) (fun m d =>
    let h := head.val
    let hd := d.hd h
    when hd.wants (fun d =>
      let a := hd.burst.1
      let n := hd.burst.2 / 32
      let (bad, d) := d.dramRead 0 a (32 * n)
      if bad then d.hdUpd h (fun hd => { hd with req := false, absent := true })
      else
        let d := d.hdUpd h (fun hd => { hd with buf := hd.buf ++ (List.range n).map (fun i => recAt m (a + 32 * i)), fetched := hd.fetched + n,
                                                req := false, absent := false, arrived := d.time.frame })
        (d.fetchRequest h).p (F.hd_REC_AVAIL h) (min 64 ((d.hd h).fetched - hd.p.next))) d) s

/-- STREAM_RESUME (01 R23): at the first frame boundary after the missing record arrived the head goes on. -/
def execStreamResume (head : Fin 48) (s : State) : Host.Outcome State Fault Refusal :=
  onDev (fun d =>
    let h := head.val
    let hd := d.hd h
    when (hd.under && (hd.rec? 0).isSome && decide (d.time.cycle = 0 ∧ hd.arrived < d.time.frame)) (fun d =>
      (d.hdUpd h (fun hd => let hd := hd.restUntil ((d.time.frame + 3) * frameT); { hd with under := false })).p (F.hd_PLAN_STAT_STATE h) 1) d) s

/-- A write of STREAM_RETRY (R92): the engine fetches the failed record again. -/
def Dev.streamRetry (d : Dev) (h : Nat) : Dev :=
  let hd := d.hd h
  if !(hd.active && (hd.bad || hd.under)) then d
  else d.hdUpd h (fun hd =>
    let hd := hd.restUntil ((d.time.frame + 3) * frameT)
    { hd with bad := false, under := true, req := true, absent := false, fetched := hd.p.next, buf := hd.buf.take (hd.p.next - hd.base) })
/-- STREAM_RETRY (R92). -/
def execStreamRetry (head : Fin 48) (_val : Word) (s : State) : Host.Outcome State Fault Refusal :=
  hosted (F.hd_STREAM_RETRY head.val).addr (onDev (fun d => d.streamRetry head.val)) s

end Sys2Proof.Machine
end

