-- ==== Sys2Proof/Machine/Firing.lean ====
section
/-!
DEFINITION. Spans and their records, and the placing of edges: clipping, the high-water mark, position-synchronous and fixed-clock
firing, points, dwells, the mark clock (05 R157 to R177; 03 R108, R109; 15 R444; 18 R500, R501).
-/
namespace Sys2Proof.Machine

/-! ### Spans -/

/-- The FIRE page. -/
def firePage : Nat := 0x70000

/-- The nominal offset (06 R215) of a path coordinate on the record of a piece: the logging head's align removed, in 1/256 nm. -/
def Dev.nominal (d : Dev) (h : Nat) (g : Seg) (s : Int) : Int :=
  let (_, _, al) := d.dirVals h g.who.cw g.who.rev
  max 0 (g.who.nom + (s - g.s0) - 256 * al)

/-- Nanometres from 1/256 nm. -/
def nm (x : Int) : Int := rdiv x 256

/-- The plan times between which a lit piece has its light: those of its coordinates moved by align (03 R100). -/
def Dev.lightOf (d : Dev) (h : Nat) (g : Seg) : Nat × Nat :=
  let al := 256 * (d.dirVals h g.who.cw g.who.rev).2.2
  if g.lit = 3 ∨ al = 0 then (g.t0, g.t1) else ((d.hd h).timeAt (g.s0 + al), (d.hd h).timeAt (g.s1 + al))

/-- The pieces of a head with light between two plan times. -/
def Dev.litBetween (d : Dev) (h : Nat) (t0 t1 : Nat) : List Seg :=
  (d.hd h).segs.filter (fun g => g.lit != 0 && let l := d.lightOf h g; decide (l.1 < t1 ∧ t0 < l.2))

/-- A span from plan time `t0` to `t1` with a cause: its vector is the first lit one in it, its coordinates are the plan's (03 R109). -/
def Dev.mkSpan (d : Dev) (h cause t0 t1 : Nat) : Span :=
  let hd := d.hd h
  let a := hd.point t0
  let b := hd.point t1
  let g? := match d.litBetween h t0 t1 with | g :: _ => some g | [] => (hd.segs.find? (fun g => decide (g.t0 ≤ t0 ∧ t0 < g.t1)))
  match g? with
  | some g => { cause := cause, who := g.who, s0 := nm (d.nominal h g a.s), s1 := nm (d.nominal h g b.s), x0 := nm a.x, y0 := nm a.y,
                x1 := nm b.x, y1 := nm b.y, t0 := t0, t1 := t1 }
  | none => { cause := cause, who := {}, s0 := 0, s1 := 0, x0 := nm a.x, y0 := nm a.y, x1 := nm b.x, y1 := nm b.y, t0 := t0, t1 := t1 }

/-- The span payload of R444. -/
def Dev.spanWords (d : Dev) (h dst : Nat) (sp : Span) : List Nat :=
  let kind := match sp.who.item with | some n => (Tab.at ({} : Item) d.hand.items n).kind | none => 0
  [sp.cause * 2 ^ 24 + h * 65536 + dst * 256 + b2n (decide (kind ≠ 0 ∧ sp.who.src ≠ h)) + 2 * b2n (kind == 2), d.g F.seq_LAYER_NUM, sp.who.idx, sp.who.tag,
   ux 32 sp.s0, ux 32 sp.s1, ux 32 sp.x0, ux 32 sp.y0, ux 32 sp.x1, ux 32 sp.y1, sp.aux % 2 ^ 32, sp.aux / 2 ^ 32 % 2 ^ 32]

/-- A span is queued for repair (06 R223). -/
def Dev.queueSpan (d : Dev) (h : Nat) (sp : Span) : Dev := { d with hand := { d.hand with spans := d.hand.spans ++ [(h, sp)] } }

/-! ### Clipping (03 R108, R109) -/

/-- Does a cause apply to a span. -/
def Span.has (sp : Span) (c : Nat) : Bool := sp.cause == c || sp.causes.contains c

/-- What a clip record carries behind the span payload where several causes applied or FC_ECC did: a word with one bit for each cause, counted from code 0x20
(04 R148), then the addresses of the nodes (04 R122), as many as fit a record (log 86). -/
def Span.clipMore (sp : Span) : List Nat :=
  if sp.causes.length ≤ 1 ∧ sp.nodes = [] then [] else sp.causes.foldl (fun m c => m + 2 ^ (c - 0x20)) 0 :: sp.nodes.take 43

/-- The clipped span in progress is logged, up to plan time `t` (R109), and queued for repair where it touches a lit piece (log 18). -/
def Dev.endClip (d : Dev) (h t : Nat) : Dev :=
  let hd := d.hd h
  match hd.clip with
  | none => d
  | some sp =>
    let d := d.hdUpd h (fun hd => { hd with clip := none, clipRun := 0 })
    let s := { d.mkSpan h sp.cause sp.t0 (max sp.t0 t) with causes := sp.causes, nodes := sp.nodes }
    let d := { d with seq := { d.seq with clips := d.seq.clips + 1 } }
    when (decide (d.litBetween h sp.t0 t ≠ [])) (fun d => d.queueSpan h s) ((d.bump (F.hd_CLIP_COUNT h)).raise 0x8000 7 (d.spanWords h 0xFF s ++ s.clipMore))

/-- A clipped span ends at plan time `t`: when a laser-on interval was cut or left out, the ground up to where marking can resume, the
next off coordinate of a LINE, belongs to it (log 18). -/
def Dev.closeClip (d : Dev) (h t : Nat) : Dev :=
  let t := match (d.hd h).edges.head? with
    | some e => if e.kind = 1 ∨ e.kind = 5 then max t e.t else t
    | none => t
  d.endClip h t

/-- Is frame `f + 2` or the span in progress clipped: no on edge and no pulse is placed in it (R108, 05 R165). A span's second unclipped frame still is;
marking resumes behind it. -/
def Head.clipped (hd : Head) : Bool := hd.clip.isSome || !hd.clipNow.isEmpty

/-- The clipped or unclipped frame `f + 2` in the account of the span in progress, before its edges are placed. -/
def Dev.clipStep (d : Dev) (h f : Nat) : Dev :=
  let hd := d.hd h
  match hd.clipNow with
  | [] => d.hdUpd h (fun hd => { hd with clipRun := hd.clipRun + b2n hd.clip.isSome })
  | c :: _ =>
    let sp := hd.clip.getD (d.mkSpan h c ((f + 2) * frameT) ((f + 2) * frameT))
    d.hdUpd h (fun hd => { hd with clip := some { sp with causes := (sp.causes ++ hd.clipNow).eraseDups, nodes := (sp.nodes ++ hd.badNode.toList).eraseDups }, clipRun := 0 })

/-- After the edges of frame `f + 2` are placed: the span ends with the second unclipped frame. One still open when the head's last planned lit piece ends
is closed there, as 06 R223 says of a dropout span, so that its repair is not lost (log 18). -/
def Dev.clipEnds (d : Dev) (h f : Nat) : Dev :=
  let hd := d.hd h
  let litEnd := hd.segs.foldl (fun t g => if g.lit = 0 then t else max t g.t1) 0
  match hd.clip with
  | none => d
  | some sp =>
    if 2 ≤ hd.clipRun then d.closeClip h ((f + 3) * frameT)
    else if hd.p.done && hd.p.start.isNone && decide (sp.t0 < litEnd ∧ litEnd ≤ (f + 3) * frameT) then d.endClip h litEnd
    else d

/-- FE_FAULT (R142, R143): FE_COUNT exceeds FE_TIME. The laser is off from F+2, the head fails at the next boundary with the work
left from the boundary of the first frame over the limit. The record has the span payload in nominal offsets (06 R215), and behind it the slot, the head, fe
and the frame of the fault (log 84): the command follows the boundary of the frame in which the fault is detected. -/
def execFeFault (slot : Fin 160) (s : State) : Host.Outcome State Fault Refusal :=
  onDev (fun d =>
    let n := slot.val
    match d.servesAxis n with
    | none => d
    | some (h, _) =>
      when (decide (d.mode n = 1 ∨ d.mode n = 2) && decide (d.v (sf F.slot_FE_TIME n) < d.g (sf F.slot_SLOT_STAT_FE_COUNT n))) (fun d =>
        let t0 := (d.slot n).feStart * frameT
        let sp := d.mkSpan h 0x26 t0 ((d.time.frame + 1) * frameT)
        let f := d.time.frame - 1
        let d := ((d.setMode n 7).flag (sf F.slot_SLOT_FLAGS_FE_FAULT n)).raise (loopPage n) 0
          (d.spanWords h 0xFF sp ++ [n, h, d.g (sf F.slot_FE_NOW n), f % 2 ^ 32, f / 2 ^ 32])
        let d := d.slotUpd n (fun sl => { sl with faulted := true, restarted := false })
        let d := (forN 16 (fun b d => d.traceLate (n / 16 * 16 + b) 5) (d.traceLate n 3)).loopSum (n / 16) |>.traceMend n
        (d.blankNext h).hdUpd h (fun hd =>
          { hd with failPend := some 1, failFrame := d.time.frame - 1, failT := t0, restart := false })) d) s

/-! ### Prediction (R161, R166 to R170) -/

/-- Unit direction of the planned path at boundary `f`, as a vector and its length. -/
def Head.dirAt (hd : Head) (f : Nat) : Int × Int × Nat :=
  match hd.segAt f with
  | some g => (g.x1 - g.x0, g.y1 - g.y0, g.len)
  | none => (0, 0, 0)

/-- The measured path coordinate `sm` at boundary `f`; a missing position counts as the set-point (log 19). -/
def Dev.smOf (d : Dev) (h f : Nat) : Int :=
  let hd := d.hd h
  let e (a : Nat) : Int := match d.posWord h a with | some z => z - (d.slot (d.axisSlot h a)).sp0 | none => 0
  let m00 := d.gi (F.hd_FC_M00 h)
  let m01 := d.gi (F.hd_FC_M01 h)
  let m10 := d.gi (F.hd_FC_M10 h)
  let m11 := d.gi (F.hd_FC_M11 h)
  let det := m00 * m11 - m01 * m10
  let q (n : Int) : Int := if det = 0 then 0 else if 0 < det then rdiv (n * 2 ^ 28) det else rdiv (-n * 2 ^ 28) (-det)
  let ex := q (m11 * e 0 - m01 * e 1)
  let ey := q (m00 * e 1 - m10 * e 0)
  let (dx, dy, len) := hd.dirAt f
  hd.sPlan f + (if len = 0 then 0 else 256 * rdiv (ex * dx + ey * dy) len)

/-- The jitter window in 1/256 nm (R166). -/
def Dev.jitter (d : Dev) (h : Nat) : Int :=
  let m := max (d.gi (F.hd_FC_M00 h)).natAbs (d.gi (F.hd_FC_M11 h)).natAbs
  if m = 0 then 0 else 256 * ((d.v (F.hd_FIRE_CTRL_JITTER_WIN h) * 2 ^ 28 / m : Nat) : Int)

/-- pred(k) for k = −8 to 16 (R161; the entries below 2 place a crossing that is already past, log 20). -/
def Head.preds (hd : Head) (f : Nat) : List Int :=
  let s0 := hd.sPlan f
  (List.range 25).map (fun i => if f + i < 8 then hd.hwm else hd.hwm + hd.sPlan (f + i - 8) - s0)

/-- The time at which pred crosses `c`, in codes from boundary `f + 2`, interpolated between boundaries. An on edge waits until the
prediction leaves its coordinate, an off edge falls when it is reached (log 20). -/
def crossT (c : Int) (strict : Bool) : List Int → Int → Int → Option Int
  | [], _, _ => none
  | p :: ps, k, prev =>
    if (if strict then decide (c < p) else decide (c ≤ p)) then
      some (if k = -8 then 5000 * (-10) else 5000 * (k - 3) + rdiv (5000 * (c - prev)) (max 1 (p - prev)))
    else crossT c strict ps (k + 1) p

/-- Fixed-clock firing (R176), by the head's setting. -/
def Dev.fixedClock (d : Dev) (h : Nat) : Bool := d.v (F.hd_FIRE_CTRL_MODE h) == 1

/-- The free error of a planned time, or of the crossing of `c`, in codes: −2 to 2 (03 R538; log 13). -/
def codeTol (h t : Nat) (c : Int) : Int :=
  let r := Config.codeError h t c % 5
  if r ≤ 2 then r else (r : Int) - 5

/-- Plan time of head `h` in codes from boundary `f + 2`, within 03 R538's bound. -/
def planCode (h t f : Nat) : Int := rdiv ((t : Int) * 5000) frameT + codeTol h t 0 - 5000 * ((f : Int) + 2)

/-- The edge time `te` of a planned edge in codes from boundary `f + 2` (R161, R172, R176; 18 R500). -/
def Dev.teOf (d : Dev) (h f : Nat) (preds : List Int) (e : PEdge) : Option Int :=
  let hd := d.hd h
  let base : Int := 5000 * ((f : Int) + 2)
  -- the first clock edge at or after a time of the mark clock
  let p : Int := (Tab.at (0, 0) d.scClk e.who.ctx).1
  let org : Int := 5000 * ((f : Int) - (d.g F.seq_LAYER_FRAMES : Int))
  let up (x : Int) : Int := if p = 0 then x else org + (x - org + p - 1) / p * p
  if e.kind = 3 then some (planCode h e.t f + e.delay)
  else if e.kind = 4 then some (up (planCode h e.t f + e.delay + base) - base)
  else if e.kind = 5 then some (up (planCode h e.t f + e.delay + base) - p - base + e.width)
  else if e.kind = 6 then some (up (match hd.clkNext with | some x => x | none => planCode h e.t f + e.delay + base) - base)
  else if d.fixedClock h then
    if e.kind = 1 then some (planCode h e.onT f + e.lag + e.delay)
    else some (planCode h e.t f + (if e.kind = 2 ∧ e.v ≠ 0 then rdiv ((e.c - e.c0) * 5000) e.v else 0) + e.delay)
  else (crossT e.c (e.kind != 1) preds (-8) 0).map (· + codeTol h e.t e.c + e.delay)

/-! ### Placing edges (R162 to R165, R171, R172, R175) -/

/-- What the placing of a head's edges for one frame answers. -/
structure Place where
  hd : Head
  /-- Entries placed, latest first, and what the on edges among them are for, in order. -/
  ents : List (Nat × Bool) := []
  whos : List (Who × Nat) := []
  late : Bool := false
  order : Bool := false
  dropped : Nat := 0
  /-- Closed under-dense spans: whose, first and last position, number. -/
  dense : List (Who × Int × Int × Nat) := []
  /-- Dwells not fired. -/
  missed : List PEdge := []
  merged : Nat := 0

/-- Place one edge of the frame from absolute code `base` at code `te`: at once, late, or after the edge before it. None: it no longer
falls in this frame. Codes strictly increase (R158), so an edge whose time equals that of the edge before it moves too and sets ORDER; one before the frame
sets EDGE_LATE, and ORDER only where code 0 is not free either (log 110). -/
def Place.edge (p : Place) (base te : Int) (on : Bool) (who : Who) (kind : Nat) : Option Place :=
  let want := base + max te 0
  let at_ := if want ≤ p.hd.lastEdge then p.hd.lastEdge + 1 else want
  if base + 5000 ≤ at_ then none
  else
    let hd := { p.hd with lastEdge := at_, level := on }
    let hd := if on then { hd with onSince := at_, onWho := some (who, kind), onNum := hd.onNum + 1 } else hd
    some { p with hd := hd, ents := ((at_ - base).toNat, on) :: p.ents, whos := if on then p.whos ++ [(who, kind)] else p.whos, late := p.late || decide (te < 0),
                  order := p.order || decide (want < at_) }

/-- The off edge of a pulse or dwell that is due in this frame. None: it falls later, and what follows waits. -/
def Place.owed (p : Place) (base : Int) : Option Place :=
  match p.hd.owedOff with
  | none => some p
  | some t => if base + 5000 ≤ t then none else ({ p with hd := { p.hd with owedOff := none } }).edge base (t - base) false {} 0

/-- A pulse is dropped (R175); the span of another vector ends with it. -/
def Place.drop (p : Place) (who : Who) (c : Int) : Place :=
  let q := { p with dropped := p.dropped + 1 }
  match p.hd.dense with
  | some (w, a, b, n) =>
    if w = who then { q with hd := { p.hd with dense := some (w, a, c, n + 1) } }
    else { q with hd := { p.hd with dense := some (who, c, c, 1) }, dense := p.dense ++ [(w, a, b, n)] }
  | none => { q with hd := { p.hd with dense := some (who, c, c, 1) } }

/-- The under-dense span in progress ends. -/
def Place.closeDense (p : Place) : Place :=
  match p.hd.dense with
  | some x => { p with hd := { p.hd with dense := none }, dense := p.dense ++ [x] }
  | none => p

/-- The LINE and DWELL entries that fall due in the frame behind the first edge (R164). -/
def Dev.dueLines (d : Dev) (h f : Nat) (preds : List Int) (es : List PEdge) : Nat :=
  es.foldl (fun n e => if e.kind ≠ 2 ∧ e.kind ≠ 6 ∧ (d.teOf h f preds e).any (fun t => decide (t < 5000)) then n + (if e.kind = 3 then 2 else 1) else n) 0

/-- Handle the next planned edge, if it falls due in frame `f + 2`. `blocked`: the frame, or the span in progress, is clipped. -/
def Dev.placeOne (d : Dev) (h f : Nat) (preds : List Int) (blocked : Bool) (p : Place) : Option Place :=
  let base : Int := 5000 * ((f : Int) + 2)
  match p.owed base with
  | none => none
  | some p =>
    match p.hd.edges with
    | [] => none
    | e :: rest =>
      match ({ d with heads := Tab.set {} d.heads h p.hd }).teOf h f preds e with
      | none => none
      | some te =>
        if 5000 ≤ te then none
        else
          let skip : Place := { p with hd := { p.hd with edges := rest } }
          let tm := d.tmin h e.who.cw
          match e.kind with
          | 0 =>
            if blocked then some skip
            else skip.edge base te true e.who 1
          | 1 | 5 => if p.hd.level then skip.edge base te false e.who 1 else some skip
          | 2 =>
            -- a pulse, and the next one of the lattice
            let next : Place := if e.c + e.pitch ≤ e.last then { p with hd := { p.hd with edges := { e with c := e.c + e.pitch } :: rest } } else skip
            if blocked then some (if next.hd.edges.length = rest.length then next.closeDense else next)
            else
              let at_ := max (base + max te 0) (p.hd.lastEdge + 1)
              let need := if at_ + e.width < base + 5000 then 2 else 1
              let full := decide (16 < p.ents.length + need + d.dueLines h f preds rest)
              if base + 5000 ≤ at_ then none
              else if full || decide (at_ < p.hd.lastPulse + tm) then some (let q := next.drop e.who e.c; if next.hd.edges.length = rest.length then q.closeDense else q)
              else (next.closeDense.edge base te true e.who 2).map (fun p =>
                { p with hd := { p.hd with lastPulse := p.hd.lastEdge, owedOff := some (p.hd.lastEdge + e.width) } })
          | 3 =>
            if blocked then some skip
            else
              -- the predicted position at the on edge (R172)
              let k := (te / 5000).toNat
              let a := preds.getD (k + 10) e.c
              let b := preds.getD (k + 11) a
              let pr := a + rdiv ((b - a) * (te % 5000)) 5000
              if !d.fixedClock h && decide (d.g F.sys_SYS_STATE_MODE ≠ 2) && decide (((256 * d.v (F.hd_DWELL_TOL h) : Nat) : Int) < absI (pr - e.c)) then
                some { skip with missed := skip.missed ++ [e] }
              else (skip.edge base te true e.who 3).map (fun p => { p with hd := { p.hd with owedOff := some (p.hd.lastEdge + e.width) } })
          | 4 =>
            -- a merged mark: no clock edge in its window, no light
            let empty := match rest with | o :: _ => o.kind = 5 && (({ d with heads := Tab.set {} d.heads h p.hd }).teOf h f preds o).any (fun t => decide (t - o.width < te)) | [] => false
            if blocked || empty then some skip
            else (skip.edge base te true e.who 4).map (fun p => { p with merged := p.merged + 1 })
          | _ =>
            -- single pulses of the mark clock inside the window
            let per : Int := max 1 (Tab.at (0, 0) d.scClk e.who.ctx).1
            let stop : Int := rdiv (e.pitch * 5000) frameT + codeTol h e.pitch.toNat 0 + e.last
            let cur := base + te
            if stop ≤ cur then some (let q := skip.closeDense; { q with hd := { q.hd with clkNext := none } })
            else
              let next : Place := { p with hd := { p.hd with clkNext := some (cur + per) } }
              if blocked then some next
              else
                let at_ := max (base + max te 0) (p.hd.lastEdge + 1)
                let need := if at_ + e.width < base + 5000 then 2 else 1
                if base + 5000 ≤ at_ then none
                else if decide (16 < p.ents.length + need + d.dueLines h f preds rest) || decide (at_ < p.hd.lastPulse + tm) then some (next.drop e.who e.c)
                else (next.closeDense.edge base te true e.who 2).map (fun p =>
                  { p with hd := { p.hd with lastPulse := p.hd.lastEdge, owedOff := some (p.hd.lastEdge + e.width) } })

/-- All edges of a frame; `n` bounds the steps. -/
def Dev.placeAll (d : Dev) (h f : Nat) (preds : List Int) (blocked : Bool) : Nat → Place → Place
  | 0, p => p
  | n + 1, p => match d.placeOne h f preds blocked p with | none => p | some p => d.placeAll h f preds blocked n p

/-! ### The exposure set (03 R110, 04 R116, 05 R160, 09 R308, R309, 14 R424, 16 R465, 17 R483) -/

/-- A bit of a 48-bit value held as a low and a high field. -/
def Dev.bit48 (d : Dev) (lo hi : Fld) (h : Nat) : Bool := bit (d.g2 lo hi) h

/-- Calibration of a head: types 1 to 4 valid and no mismatch of serials (16 R465). -/
def Dev.calFit (d : Dev) (h : Nat) : Bool :=
  decide (d.g (F.cal_CAL_STATh_VALID h) % 16 = 15) && !d.on (F.cal_CAL_STATh_SERIAL_MISMATCH h)

/-- The firing conditions (05 R160, R189). A write still outstanding within CAS_TIMEOUT does not count as unconfirmed, unless its lane was lost since
(09 R310; log 112). -/
def Dev.fireFit (d : Dev) (h : Nat) : Bool :=
  d.on (F.hd_PWR_GAIN h) && d.on (F.hd_FIRE_MAX_HZ h) && decide (d.g (F.hd_CAS_STAT_STATE h) = 2) && !(d.hd h).cas.failed

/-- Does a head meet every condition of the exposure set. -/
def Dev.inSet (d : Dev) (h : Nat) : Bool :=
  d.servoFit h && d.fireFit h && d.g (F.hd_LANE_STAT_STATE h) == 3 && !(d.lane h).changed && d.calFit h
    && !d.bit48 F.iso_LE_OVL_LO F.iso_LE_OVL_HI h && !d.bit48 F.iso_LE_STUCK_LO F.iso_LE_STUCK_HI h
    && !d.bit48 F.unit_HEAD_DOWN_LO F.unit_HEAD_DOWN_HI h && !d.bit48 F.unit_HEAD_LIMITED_LO F.unit_HEAD_LIMITED_HI h
    && !d.on (F.hd_FAIL_FAILED h)

/-- The heads of the exposure set. -/
def Dev.exposureSet (d : Dev) : List Nat := idxs 48 d.inSet

/-- Is a head in the exposure set: while a layer is open, in the set that its opening found (03 R82, 05 R188, 14 R424), else by the conditions as they stand.
DEDUCED (log 29). -/
def Dev.inExpo (d : Dev) (h : Nat) : Bool := if d.on F.seq_LAYER_STAT_OPEN then d.hand.expo.contains h else d.inSet h

/-- Is the head without laser in the frame (R159 rule 1): parked or failed, or under a controlled stop. -/
def Dev.fireDead (d : Dev) (h : Nat) : Bool :=
  d.ctl.stop.isSome || d.on (F.hd_FAIL_FAILED h) || (d.headSlots h).any (fun s => d.mode s == 4 || d.mode s == 5 || d.mode s == 6 || d.mode s == 7)

/-- GATE_EN for a frame computed now (09 R290). -/
def Dev.gateEn (d : Dev) (h : Nat) : Bool :=
  d.armedOrRunning && decide (d.g (F.hd_LANE_STAT_STATE h) = 3) && d.inExpo h && !d.fireDead h

/-- A span of pulses dropped is recorded (R175). -/
def Dev.logDense (d : Dev) (h : Nat) (x : Who × Int × Int × Nat) : Dev :=
  let hd := d.hd h
  let g? := hd.segs.find? (fun g => decide (g.lit ≠ 0 ∧ g.who.key = x.1.key ∧ g.who.item = x.1.item))
  let at_ (c : Int) : PPoint := hd.point (hd.timeAt c)
  let off (c : Int) : Int := match g? with | some g => nm (d.nominal h g c) | none => 0
  let sp : Span := { cause := 0x28, who := x.1, s0 := off x.2.1, s1 := off x.2.2.1, x0 := nm (at_ x.2.1).x, y0 := nm (at_ x.2.1).y,
                     x1 := nm (at_ x.2.2.1).x, y1 := nm (at_ x.2.2.1).y, aux := x.2.2.2 }
  d.raise firePage 3 (d.spanWords h 0xFF sp)
/-- An under-dense span in progress ends: its head fails or the layer closes (R175). -/
def Dev.flushDense (d : Dev) (h : Nat) : Dev :=
  match (d.hd h).dense with
  | some x => (d.hdUpd h (fun hd => { hd with dense := none })).logDense h x
  | none => d

/-- A dwell was not fired (R172): logged with cause DWELL_MISS and queued for repair. -/
def Dev.logMiss (d : Dev) (h : Nat) (e : PEdge) : Dev :=
  let sp := d.mkSpan h 0x25 e.t (e.t + 1)
  (((d.flag (F.hd_FIRE_FLAGS_DWELL_MISS h)).raise firePage 9 (d.spanWords h 0xFF sp)).queueSpan h sp)

/-- The reversal record is closed (R169). -/
def Dev.closeReversal (d : Dev) (h f : Nat) : Dev :=
  let hd := d.hd h
  match hd.susp with
  | none => d
  | some (who, top, low) =>
    let pt := hd.point (f * frameT)
    let g? := hd.segs.find? (fun g => decide (g.lit ≠ 0 ∧ g.who.key = who.key ∧ g.who.item = who.item))
    let off (c : Int) : Int := match g? with | some g => nm (d.nominal h g c) | none => 0
    let sp : Span := { cause := 0x27, who := who, s0 := off low, s1 := off top, x0 := nm pt.x, y0 := nm pt.y, x1 := nm pt.x, y1 := nm pt.y, aux := ux 64 (nm low) }
    ((d.hdUpd h (fun hd => { hd with susp := none })).bump (F.hd_REVERSAL_COUNT h)).raise firePage 2 (d.spanWords h 0xFF sp)

/-- The last piece of the LINE chain that a list of pieces begins with, if it is planned. -/
def chainEnd : List Seg → Option Seg
  | [] => none
  | g :: rest => if g.goesOn then chainEnd rest else some g

/-- The planned edges after a reversal (R169): where hwm lies inside a marking interval of LINEs, an on edge falls due at its crossing, in place of one
behind it that was not emitted, and the interval's off edge falls due again if it was. -/
def Dev.resumeEdges (d : Dev) (h : Nat) : List PEdge :=
  let hd := d.hd h
  let inside (g : Seg) : Bool :=
    let al := 256 * (d.dirVals h g.who.cw g.who.rev).2.2
    decide (g.lit = 1 ∧ g.s0 + al ≤ hd.hwm ∧ hd.hwm < g.s1 + al)
  match hd.segs.dropWhile (fun g => !inside g) with
  | [] => hd.edges
  | g :: rest =>
    let on : PEdge := { kind := 0, c := hd.hwm, delay := (d.dirVals h g.who.cw g.who.rev).1, t := hd.timeAt hd.hwm, width := 0, who := g.who }
    let es := hd.edges.filter (fun e => !decide (e.kind = 0 ∧ e.c ≤ hd.hwm))
    let off := match chainEnd (g :: rest) with
      | none => []
      | some l =>
        let (_, dOff, al) := d.dirVals h l.who.cw l.who.rev
        if es.any (fun e => decide (e.kind = 1 ∧ e.who.key = l.who.key ∧ e.who.item = l.who.item)) then []
        else [{ kind := 1, c := l.s1 + 256 * al, delay := dOff, t := hd.timeAt (l.s1 + 256 * al), width := 0, who := l.who }]
    on :: off ++ es

/-- The high-water mark in frame `f` (R161, R166 to R169). -/
def Dev.hwmStep (d : Dev) (h f : Nat) : Dev :=
  let hd := d.hd h
  let sm := d.smOf h f
  -- a failed head has no path
  if d.on (F.hd_FAIL_FAILED h) then d else
  -- a vector that continues no CONT chain begins in plan entry f + 2
  let starts := hd.segs.any (fun g => decide (g.lit ≠ 0 ∧ g.t0 / frameT = f + 2) && !g.cont)
  if starts || decide (hd.hwm ≤ sm) then (d.closeReversal h f).hdUpd h (fun hd => { hd with hwm := sm })
  else match hd.susp with
    | some (w, top, low) => d.hdUpd h (fun hd => { hd with susp := some (w, top, min low sm) })
    | none =>
      let onAt := hd.lists.any (fun l => decide (l.frame = f) && l.level)
      let cur := hd.segAt f
      let exposing := onAt || cur.any (fun g => hd.edges.any (fun e => e.who.key == g.who.key && e.who.item == g.who.item))
      if exposing && decide (sm < hd.hwm - d.jitter h) then
        let who := match cur, hd.onWho with | some g, _ => g.who | none, some w => w.1 | none, none => {}
        let d := d.flag (F.hd_FIRE_FLAGS_REVERSAL h)
        (d.setEvt firePage 2).hdUpd h (fun hd => { hd with susp := some (who, hd.hwm, sm), edges := d.resumeEdges h })
      else d

/-- The marking that is on at boundary `f + 2` (R159 rule 2), given what the laser was turned on for and the plan's lit piece there: of a CONT chain the
vector of the plan, as far as the plan is within the chain; the chain's first vector where the plan has not reached it, and its last one where the plan is
past the off coordinate that is still to be reached. -/
def Head.markOn (hd : Head) (f : Nat) (w : Who × Nat) (litAt : Option Seg) : Who :=
  let same (g : Seg) : Bool := g.who.key == w.1.key && g.who.item == w.1.item
  let before (g : Seg) : Bool := (hd.segs.find? same).any (fun a => decide (g.t0 < a.t0))
  if w.2 ≠ 1 then w.1
  else match litAt, hd.edges.find? (fun e => e.kind == 1) with
    | some g, some e => if before g then w.1 else if g.s0 < e.c then g.who else e.who
    | some g, none => if before g then w.1 else g.who
    | none, some e => if e.t ≤ (f + 2) * frameT then e.who else w.1
    | none, none => w.1

/-- The pieces of the LINE chain that a list of pieces begins with. -/
def chainOf : List Seg → List Seg
  | [] => []
  | g :: rest => if g.goesOn then g :: chainOf rest else [g]

/-- An interval on in frame `f + 2`, by vector (R181): of a CONT chain each vector has what lies before its planned end (log 113). -/
def Head.runParts (hd : Head) (f : Nat) (w : Who × Nat) (a b : Nat) : List (Nat × Nat) :=
  if w.2 ≠ 1 then [(w.1.key, b - a)]
  else
    let lit := hd.segs.filter (fun g => decide (g.lit ≠ 0))
    let from_ := lit.dropWhile (fun g => !(g.who.key == w.1.key && g.who.item == w.1.item))
    let cut (t : Nat) : Nat := (clampI a b (rdiv ((t : Int) * 5000) frameT - 5000 * ((f : Int) + 2))).toNat
    match (chainOf (if from_ = [] then lit else from_)).reverse with
    | [] => [(w.1.key, b - a)]
    | l :: init =>
      let (at_, ps) := init.reverse.foldl (fun (r : Nat × List (Nat × Nat)) g => (max r.1 (cut g.t1), r.2 ++ [(g.who.key, cut g.t1 - r.1)])) (a, [])
      (ps ++ [(l.who.key, b - at_)]).filter (fun e => e.2 != 0)

/-- The vectors that are on in frame `f + 2`, with their on-time, from what is on at its boundary and its entries. -/
def Head.onParts (hd : Head) (f : Nat) (on : Option (Who × Nat)) (ents : List (Nat × Bool)) (whos : List (Who × Nat)) : List (Nat × Nat) :=
  let r := ents.foldl (fun (r : Option ((Who × Nat) × Nat) × List (Who × Nat) × List (Nat × Nat)) e =>
    match r.1, e.2 with
    | none, true => ((r.2.1.head?).map (·, e.1), r.2.1.drop 1, r.2.2)
    | some x, true => (some x, r.2.1.drop 1, r.2.2)
    | some x, false => (none, r.2.1, r.2.2 ++ hd.runParts f x.1 x.2 e.1)
    | none, false => r) (on.map (·, 0), whos, [])
  match r.1 with
  | some x => r.2.2 ++ hd.runParts f x.1 x.2 5000
  | none => r.2.2

/-- The edge list of a head for frame `f + 2` (R157, R162 to R169), in the account of clipping. -/
def Dev.placeList (d : Dev) (h f : Nat) : Dev :=
  -- with the fixed or the mark clock there is no high-water mark, and a suspension ends (R177)
  let d := when (d.hd h).placed (fun d =>
    let d := d.clipStep h f
    if d.fixedClock h || decide (d.g F.sys_SYS_STATE_MODE = 2) then d.closeReversal h f else d.hwmStep h f) d
  let hd := d.hd h
  let base : Int := 5000 * ((f : Int) + 2)
  let blocked := hd.clipped
  let susp := hd.susp.isSome
  let l0 : FList := { frame := f + 2, level := hd.level, since := hd.onSince, num := hd.onNum, clipped := !hd.clipNow.isEmpty }
  if d.fireDead h || !d.armedOrRunning then
    let d := d.hdUpd h (fun hd => { hd with level := false, owedOff := none, onWho := none })
    d.hdUpd h (fun hd => { hd with lists := (hd.lists ++ [{ l0 with level := false }]).filter (fun l => decide (f ≤ l.frame + 8)) })
  else
    -- a clip or a reversal ends the light at code 0
    let p0 : Place := { hd := hd }
    let p := if (blocked || susp) && hd.level then ((({ p0 with hd := { hd with owedOff := none } }).edge base 0 false {} 0).getD p0) else p0
    let preds := hd.preds f
    let p := if susp then (p.owed base).getD p else d.placeAll h f preds blocked 80 p
    let p := (p.owed base).getD p
    let d := { d with heads := Tab.set {} d.heads h p.hd }
    let d := when p.late (fun d => (d.flag (F.hd_FIRE_FLAGS_EDGE_LATE h)).raise firePage 8) d
    let d := when p.order (fun d => (d.flag (F.hd_FIRE_FLAGS_ORDER h)).raise firePage 7) d
    let d := when (decide (p.dropped ≠ 0)) (fun d => (d.flag (F.hd_FIRE_FLAGS_UNDER_DENSE h)).bump (F.hd_UNDER_DENSE_COUNT h) p.dropped) d
    let d := p.dense.foldl (fun d x => d.logDense h x) d
    let d := p.missed.foldl (fun d e => d.logMiss h e) d
    let d := when (decide (p.merged ≠ 0)) (fun d => d.bumpW F.sc_X_MERGED p.merged) d
    let ents := p.ents.reverse
    -- the marking that sets the power (R159 rules 2 and 3)
    let hd2 := d.hd h
    let litAt := hd2.segs.find? (fun g => decide (g.lit ≠ 0 ∧ g.t0 ≤ (f + 2) * frameT ∧ (f + 2) * frameT < g.t1))
    let next := (hd2.edges.find? (fun e => e.kind != 1 && e.kind != 5)).filter (fun e => (d.teOf h f preds e).any (fun t => decide (t < 10000)))
    let kindOf (e : PEdge) : Nat := if e.kind = 0 then 1 else if e.kind = 6 then 2 else e.kind
    let l := if hd.level then
        let w := hd.onWho.getD ({}, 0)
        { l0 with typ := w.2, who := hd.markOn f w litAt, curNum := hd.onNum }
      else if ents.any (·.2) then
        -- the first on edge of the list
        let firstOn := hd.edges.find? (fun e => e.kind != 1 && e.kind != 5)
        match firstOn, hd2.onWho with
        | some e, _ => { l0 with typ := kindOf e, who := e.who, curNum := hd.onNum + 1 }
        | none, some w => { l0 with typ := w.2, who := w.1, curNum := hd.onNum + 1 }
        | none, none => l0
      else match next with
        | some e => { l0 with typ := kindOf e, who := e.who, curNum := hd2.onNum + 1 }
        | none => l0
    d.hdUpd h (fun hd => { hd with lists := (hd.lists ++ [{ l with edges := ents, gateEn := d.gateEn h, parts := hd2.onParts f (if hd.level then hd.onWho else none) ents p.whos }]).filter (fun l => decide (f ≤ l.frame + 8)) })

/-- The edges of frame `f + 2`, and the clipped span that ends with it. -/
def Dev.placeEdges (d : Dev) (h f : Nat) : Dev := (d.placeList h f).clipEnds h f

/-- The list of a head for a frame. -/
def Head.list (hd : Head) (f : Nat) : FList := (hd.lists.find? (fun l => decide (l.frame = f))).getD { frame := f }

/-- Commanded on-time of a list in codes (R181, R189). -/
def FList.onCodes (l : FList) : Nat :=
  let (n, lvl, at_) := l.edges.foldl (fun (r : Nat × Bool × Nat) e => (if r.2.1 then r.1 + (e.1 - r.2.2) else r.1, e.2, e.1)) (0, l.level, 0)
  if lvl then n + (5000 - at_) else n

end Sys2Proof.Machine
end

