-- ==== Sys2Proof/Machine/PLoop.lean ====
section
/-!
DEFINITION. Melt-pool sensing and the power loops, the power of a marking and its code, duty budgets (07 R232 to R255; 05 R159, R178 to
R182).
-/
namespace Sys2Proof.Machine

/-- A field of a power-loop slot's block by slot number (07 R254). -/
def pf (f : Nat → Nat → Fld) (s : Nat) : Fld := f (s / 14) (s % 14)
/-- An array field of a power-loop slot's block. -/
def pfi (f : Nat → Nat → Nat → Fld) (s i : Nat) : Fld := f (s / 14) (s % 14) i
/-- The PLOOP page of a slot. -/
def plPage (s : Nat) : Nat := 0x50000 + 0x1000 * (s / 14)
/-- A power-loop slot's hidden state. -/
def Dev.pls (d : Dev) (s : Nat) : PSlot := Tab.at {} d.pslots s
/-- Change a power-loop slot's hidden state. -/
def Dev.plUpd (d : Dev) (s : Nat) (f : PSlot → PSlot) : Dev := { d with pslots := Tab.upd {} d.pslots s f }
/-- The power-loop slot of a head. -/
def Dev.plOf (d : Dev) (h : Nat) : Nat := d.g (F.hd_PL_SLOT h)
/-- A slot meets a flag's condition: flag and page event (R254). -/
def Dev.plFlag (d : Dev) (s : Nat) (fld : Fld) (b : Nat) : Dev := (d.flag fld).raise (plPage s) b

/-! ### The measurement (R232 to R235, R237) -/

/-- One channel reduced to signal LSB (R233): sum and value. -/
def reduce (samples : List Nat) (dark gain : Nat) : Nat × Nat :=
  let sum := (samples.take 10).foldl (· + ·) 0
  (sum, min ((rdiv (((sum - 10 * dark) * gain : Nat) : Int) (2 ^ 24)).toNat) (2 ^ 32 - 1))

/-- The melt-pool signal of the values of the channels (R234), none for a ratio with B below SIG_BMIN. -/
def signal (sel a b bmin : Nat) : Option Nat :=
  match sel with
  | 0 => some a
  | 1 => some b
  | 2 => if b < bmin ∨ b = 0 then none else some (min (rdiv ((a * 65536 : Nat) : Int) b).toNat (2 ^ 32 - 1))
  | _ => some (min (a + b) (2 ^ 32 - 1))

/-- The on edge whose interval keeps the laser commanded on for the whole frame (R237): one open at the boundary, or one opened on it (05 R157). -/
def FList.fullOn (l : FList) : Option Nat :=
  if l.level && l.edges.isEmpty then some l.num else if !l.level && l.edges == [(0, true)] then some (l.num + 1) else none

/-- What a slot learns from the upstream frame about the measurement frame before: the signal, when the photodiode words are usable. -/
def Dev.plMeasure (d : Dev) (s h : Nat) : Dev × Option Nat :=
  let l := d.lane h
  if !(l.got && l.pdOk) then (d, none)
  else
    let sel := d.v (pf F.pl_PL_CTRL_SIG_SEL s)
    let (sa, a) := reduce l.pdA (d.g (F.hd_PD_DARK_A h)) (d.g (F.hd_PD_GAIN_A h))
    let (sb, b) := reduce l.pdB (d.g (F.hd_PD_DARK_B h)) (d.g (F.hd_PD_GAIN_B h))
    let satA := l.pdA.any (· == 0xFFFF)
    let satB := l.pdB.any (· == 0xFFFF)
    let sat := (sel != 1 && satA) || (sel != 0 && satB)
    let d := (d.p (F.hd_PD_SUM_A_NOW h) sa).p (F.hd_PD_SUM_B_NOW h) sb
    let d := when (satA || satB) (fun d => d.bump (F.hd_PD_STAT_SAT_COUNT h)) d
    let d := when (satA || satB) (fun d => d.plFlag s (pf F.pl_PL_FLAGS_SIG_SAT s) 1) d
    let m := signal sel a b (d.v (pf F.pl_SIG_BMIN s))
    let d := when m.isNone (fun d => d.plFlag s (pf F.pl_PL_FLAGS_RATIO_LOW s) 2) d
    let d := match m with | some v => d.p (pf F.pl_SIG_NOW s) v | none => d
    (d, if sat then none else m)

/-! ### The law and the envelope (R238 to R247) -/

/-- The law of R240 before the envelope: error, output y, correction dp, states after initialisation, and what saturated. -/
structure PLaw where
  e : Int
  y : Int
  dp : Int
  s1 : Int
  s2 : Int
  errSat : Bool
  stSat : Bool

/-- The coefficient set in force (R239): SET_OVR where it is enabled, else PL_SET of the context of the current interval. -/
def Dev.plSet (d : Dev) (s : Nat) (c : List Nat) : Nat :=
  if d.v (pf F.pl_PL_CTRL_SET_OVR_EN s) = 1 then d.v (pf F.pl_PL_CTRL_SET_OVR s) else cxw c 0 % 4

/-- The current interval's power for frame `f + 2` (R238 to R247). A CONT record whose context values differ comes with a context change, also where a
commit changed the values of the same context (log 88). -/
def Dev.plRun (d : Dev) (s h f : Nat) (m : Option Nat) : Dev :=
  let hd := d.hd h
  let l := hd.list (f + 2)
  let c := l.who.cw
  let ps : PSlot := d.pls s
  let plEn := bit (cxw c 0) 8
  let power : Int := cxw c 0x04
  let pmin : Int := cxw c 0x08
  let pmax : Int := cxw c 0x0C
  let pslew : Int := cxw c 0x10
  -- a new interval, or the loop's part of one after a context with PL_EN = 0
  let same := ps.cur && decide (l.curNum = ps.num) && (decide (l.curNum ≤ hd.onNum) || decide (l.who.idx = ps.idx))
  let fresh := !same || (plEn && !ps.loop)
  let carry := !same && d.v (pf F.pl_PL_CTRL_CARRY s) == 1 && decide (ps.carryCtx = l.who.ctx ∧ ps.carryCtx ≠ 0)
    && decide (f + 2 ≤ ps.carryFrame + d.v (pf F.pl_CARRY_GAP s))
  let ps : PSlot := if fresh then { ps with cur := true, num := l.curNum, idx := l.who.idx, first := f + 2, fully := 0, powered := 0, pinLogged := false, pinAt := none,
                                            dp0 := if carry then ps.carryDp else 0, mode := 3, reinit := true } else ps
  let ps : PSlot := { ps with loop := plEn }
  -- measurement frame f − 1 of this interval
  let g := hd.list (f - 1)
  let fullG := g.fullOn == some ps.num && decide (ps.first ≤ f - 1)
  let before := ps.fully
  let ps : PSlot := { ps with fully := if fullG then ps.fully + 1 else ps.fully }
  let blank := d.v (pf F.pl_START_BLANK s)
  let lane := d.lane h
  let valid := fullG && decide (blank ≤ before) && lane.got && decide (lane.gate = 15) && m.isSome && !g.clipped
  let line := l.typ == 1 || l.typ == 4
  let mode :=
    if d.v (pf F.pl_PL_CTRL_EN s) = 0 then 0
    else if !plEn then 1
    else if !d.on (F.hd_PD_STAT_VALID h) || !line then 2
    else if ps.fully < blank then 3
    else if d.v (pf F.pl_PL_CTRL_FREEZE s) = 1 ∨ !valid then 4
    else 5
  let k := d.plSet s c
  let d := (d.p (pf F.pl_PL_STAT_MODE s) mode).p (pf F.pl_PL_STAT_SET s) k
  -- the context's POWER with no correction is the frame's power, and the interval's for R242, R245 and R247
  if mode ≤ 1 then (d.p (pf F.pl_PL_STAT_PIN_COUNT s) 0).plUpd s (fun _ =>
    { ps with mode := mode, ctx := l.who.ctx, cw := c, pc := power, dpc := 0, powered := ps.powered + 1, carryDp := 0, carryCtx := l.who.ctx, carryFrame := f + 2,
              pinAt := none, pinLogged := false })
  else
    let d := when (decide (mode = 2) && !d.on (F.hd_PD_STAT_VALID h) && !ps.openLogged)
      (fun d => (d.flag (pf F.pl_PL_FLAGS_PL_OPEN s)).raise (plPage s) 4) d
    let ps : PSlot := { ps with openLogged := ps.openLogged || (mode == 2 && !d.on (F.hd_PD_STAT_VALID h)) }
    let co (fl : Nat → Nat → Nat → Fld) : Int := d.vi (pfi fl s k)
    let osh := d.v (pfi F.pl_SETk_OSHIFT s k)
    let init := ps.mode != 5 || ps.reinit || k != ps.set
    let law : PLaw :=
      if mode = 5 then
        let e0 : Int := (d.v (pfi F.pl_SETk_TARGET s k) : Int) - m.getD 0
        let e := satS 24 e0
        let ycp := (if ps.powered = 0 then ps.dp0 else ps.dpc) * 2 ^ (30 - osh)
        let i1 := ycp - co F.pl_SETk_B0 * e
        let s1 := if init then satS 48 i1 else ps.s1
        let s2 := if init then 0 else ps.s2
        let y0 := co F.pl_SETk_B0 * e + s1
        let y := satS 48 y0
        { e := e, y := y, dp := rdiv (y * 2 ^ osh) (2 ^ 30), s1 := s1, s2 := s2, errSat := decide (e ≠ e0), stSat := decide (y ≠ y0) || init && decide (satS 48 i1 ≠ i1) }
      else { e := 0, y := 0, dp := if mode = 2 then 0 else if mode = 3 then ps.dp0 else ps.dp, s1 := ps.s1, s2 := ps.s2, errSat := false, stSat := false }
    let ff := ps.ff
    let p := power + ff + law.dp
    let slewed := decide (ps.powered ≠ 0 ∧ ps.ctx = l.who.ctx ∧ ps.cw = c ∧ pslew ≠ 0)
    let lo := if slewed then max pmin (ps.pc - pslew) else pmin
    let hi := if slewed then min pmax (ps.pc + pslew) else pmax
    let pc := clampI lo hi p
    let dpc := pc - power - ff
    let yc := if pc = p then law.y else dpc * 2 ^ (30 - osh)
    let n1 := co F.pl_SETk_B1 * law.e - rdiv (co F.pl_SETk_A1 * yc) (2 ^ 30) + law.s2
    let n2 := co F.pl_SETk_B2 * law.e - rdiv (co F.pl_SETk_A2 * yc) (2 ^ 30)
    let act := mode == 5
    let low := decide (pc = pmin ∧ p < pmin)
    let high := decide (pc = pmax ∧ pmax < p)
    let pinned := low || high
    let cnt := if fresh then 0 else d.g (pf F.pl_PL_STAT_PIN_COUNT s)
    let cnt' := if pinned then cnt + 1 else 0
    let d := d.p (pf F.pl_PL_STAT_PIN_COUNT s) (satU 16 cnt')
    let d := ((d.p (pf F.pl_PWR_NOW s) (pc.toNat)).pi (pf F.pl_DP_NOW s) dpc)
    let stSat := law.stSat || (act && decide (satS 48 n1 ≠ n1 ∨ satS 48 n2 ≠ n2))
    let d := when law.errSat (fun d => d.plFlag s (pf F.pl_PL_FLAGS_ERR_SAT s) 5) d
    let d := when stSat (fun d => d.plFlag s (pf F.pl_PL_FLAGS_STATE_SAT s) 5) d
    d.plUpd s (fun _ =>
      { ps with s1 := if act then satS 48 n1 else ps.s1, s2 := if act then satS 48 n2 else ps.s2, dp := law.dp, dpc := dpc, pc := pc, demand := p,
                ctx := l.who.ctx, cw := c, powered := ps.powered + 1, mode := mode, set := k, reinit := if act then false else ps.reinit,
                carryDp := dpc, carryCtx := l.who.ctx, carryFrame := f + 2,
                pinAt := if pinned then (if cnt = 0 then some (l.who, hd.sPlan (f + 2)) else ps.pinAt) else none,
                pinLogged := if pinned then ps.pinLogged else false, pinHi := if pinned then high else ps.pinHi })

/-- One slot in frame `f` (R238). A slot without an interval, or that serves no head, is IDLE or OFF; PL_STAT.SET then shows SET_OVR where it is enabled, and
else the set of the last interval. -/
def Dev.plSlot (d : Dev) (s f : Nat) : Dev :=
  let idle (d : Dev) : Dev :=
    let d := (d.p (pf F.pl_PL_STAT_MODE s) (if d.v (pf F.pl_PL_CTRL_EN s) = 0 then 0 else 1)).p (pf F.pl_PL_STAT_PIN_COUNT s) 0
    let d := when (decide (d.v (pf F.pl_PL_CTRL_SET_OVR_EN s) = 1)) (fun d => d.p (pf F.pl_PL_STAT_SET s) (d.v (pf F.pl_PL_CTRL_SET_OVR s))) d
    d.plUpd s (fun ps => { ps with cur := false, loop := false, powered := 0, mode := 1, pinAt := none, pinLogged := false })
  if !d.on (pf F.pl_PL_MAP_MAPPED s) then idle d
  else
    let h := d.g (pf F.pl_PL_MAP_HEAD s)
    let (d, m) := d.plMeasure s h
    if ((d.hd h).list (f + 2)).typ = 0 then idle d else d.plRun s h f m

/-- Feed-forward at the boundary that begins a frame (R248, R249); a record that had not crossed (01 R536) takes effect at the next. -/
def Dev.ffStep (d : Dev) (s : Nat) : Dev :=
  let ps := d.pls s
  let en := d.v (pf F.pl_FF_SRC_EN s) = 1
  let hold := d.v (pf F.pl_FF_AGE_HOLD s)
  let decay : Int := d.v (pf F.pl_FF_AGE_DECAY s)
  let ps := match ps.ffNew with
    | some v => { ps with ff := v, age := 0, stale := false }
    | none =>
      let age := satU 16 (ps.age + 1)
      let ff := if hold < age then (if decay = 0 then 0 else if 0 < ps.ff then max 0 (ps.ff - decay) else min 0 (ps.ff + decay)) else ps.ff
      { ps with age := age, ff := ff }
  let ps := { ps with ffNew := ps.ffLate, ffLate := none }
  let ps := if en then ps else { ps with ff := 0 }
  ((d.plUpd s (fun _ => ps)).pi (pf F.pl_FF_NOW s) ps.ff).p (pf F.pl_FF_AGE_NOW s) ps.age

/-- Feed-forward of every slot, after the commits of the boundary (01 R38). -/
def Dev.ffAll (d : Dev) : Dev := forN 56 (fun s d => d.ffStep s) d

/-- The PLOOP pages' summaries (R254). -/
def Dev.plSums (d : Dev) : Dev :=
  forN 4 (fun n d =>
    let m (p : Nat → Bool) : Nat := (List.range 14).foldl (fun w b => if p (14 * n + b) then w ||| 2 ^ b else w) 0
    let d := d.p (F.ploop_SUM_ACTIVE n) (m (fun s => d.g (pf F.pl_PL_STAT_MODE s) == 5))
    let d := d.p (F.ploop_SUM_PIN n) (m (fun s => d.on (pf F.pl_PL_STAT_PIN_COUNT s)))
    d.p (F.ploop_SUM_FLAG n) (m (fun s => (d.reg (pf F.pl_PL_FLAGS_PIN_HI s).addr) != 0))) d

/-! ### Power set-points (R159) and budgets (R181) -/

/-- The power of a list's marking in mW: the loop's output when the context has PL_EN = 1 and the slot computes power, else POWER; a
merged SC-12 mark is scaled by W / P (18 R501). -/
def Dev.powerOf (d : Dev) (h : Nat) (l : FList) : Nat :=
  if l.typ = 0 then 0
  else
    let c := l.who.cw
    let s := d.plOf h
    let pc := if bit (cxw c 0) 8 && decide (2 ≤ d.g (pf F.pl_PL_STAT_MODE s)) then (d.pls s).pc.toNat else cxw c 0x04
    if l.typ = 4 then
      let clk := Tab.at (0, 0) d.scClk l.who.ctx
      if clk.1 = 0 then pc else (rdiv ((pc * min clk.2 (clk.1 - d.g (F.hd_MIN_OFF h)) : Nat) : Int) clk.1).toNat
    else pc

/-- The set-point code of a power (R159). -/
def Dev.pwrCode (d : Dev) (h p : Nat) : Nat :=
  (clampI 0 65535 (rdiv ((d.g (F.hd_PWR_GAIN h) * p : Nat) : Int) (2 ^ 24) + d.gi (F.hd_PWR_OFS h))).toNat

/-- A bucket that imposes no limit, or that no vector has given parameters since START, is full at any CAP, in nJ (R181; log 87). -/
def dutyFull : Int := 2 ^ 24 * 1000000

/-- A bucket's level as its register of `n` bits shows it, in mJ, saturating (00 R16). -/
def shownLevel (n : Nat) (cap lvl : Int) : Int := if cap = 0 then 0 else satS n (min lvl cap / 1000000)

/-- Vectors that have ended, those that are neither being emitted nor in the plan behind frame `f + 2`, are settled with the energy they were given (R181). -/
def Dev.dutySweep (d : Dev) (h f : Nat) : Dev :=
  let hd := d.hd h
  let live (k : Nat) : Bool := hd.edges.any (fun e => e.who.key == k)
    || ((hd.level || hd.owedOff.isSome) && hd.onWho.any (fun w => w.2 != 1 && w.1.key == k))
    || hd.segs.any (fun g => decide (g.lit ≠ 0 ∧ g.who.key = k ∧ (f + 2) * frameT < g.t1))
  let ended := (hd.reserved.map (·.1)).filter (fun k => !live k)
  let d := ended.foldl (fun d k => d.undebit h k (Tab.at 0 hd.spent k / 2000)) d
  d.hdUpd h (fun hd => { hd with spent := hd.spent.filter (fun e => live e.1) })

/-- The set-point of a head for frame `f + 2` (R157, R159), the energy it commands, by vector, and the settling of vectors that have ended. -/
def Dev.firePower (d : Dev) (h f : Nat) : Dev :=
  let hd := d.hd h
  let l := hd.list (f + 2)
  let dead := d.fireDead h
  let p := if dead then 0 else d.powerOf h l
  let code := if dead ∨ l.typ = 0 then 0 else d.pwrCode h p
  let e := p * l.onCodes
  let d := d.p (F.hd_PWR_CODE_NOW h) code
  let parts := l.parts.map (fun x => (x.1, p * x.2))
  let d := d.hdUpd h (fun hd => { hd with lists := hd.lists.map (fun q => if q.frame = f + 2 then { q with code := code, energy := e, parts := parts } else q),
                                          spent := parts.foldl (fun t x => Tab.upd 0 t x.1 (· + x.2)) hd.spent,
                                          cas := { hd.cas with energy := hd.cas.energy + e } })
  d.dutySweep h f

/-- The head's bucket in a frame (R181): a vector in execution, the first lit one of plan frame `f + 2` (log 111), sets its class, and a change of class
clamps the level to the new CAP. -/
def Dev.dutyStep (d : Dev) (h f : Nat) : Dev :=
  let hd := d.hd h
  let cls := match (hd.segsIn (f + 2)).find? (fun g => decide (g.lit ≠ 0)) with
    | some g => some (cxw g.who.cw 0x58 % 8)
    | none => hd.dutyClass
  let d := d.hdUpd h (fun hd => { hd with dutyClass := cls })
  let cap : Int := d.dutyCap h 0
  let lvl := if cls.isNone ∨ cap = 0 then dutyFull else min (hd.duty + (d.v (F.fire_DCLASSc_RATE (cls.getD 0)) * 5 / 2 : Nat)) cap
  (d.hdUpd h (fun hd => { hd with duty := lvl })).pi (F.hd_DUTY_LEVEL h) (shownLevel 32 cap lvl)

/-- The groups' buckets in a frame (R181). -/
def Dev.groupStep (d : Dev) : Dev :=
  forN 8 (fun g d =>
    let cap : Int := d.groupCap g
    let lvl := if cap = 0 then dutyFull else min (nthI d.hand.groups g + (d.v (F.fire_PGg_AVG g) * 5 / 2 : Nat)) cap
    { d with hand := { d.hand with groups := d.hand.groups.set g lvl } }.pi (F.fire_PGg_LEVEL g) (shownLevel 24 cap lvl)) d

/-- All buckets are full at START (R181). -/
def Dev.dutyFill (d : Dev) : Dev :=
  let d := { d with hand := { d.hand with groups := (List.range 8).map (fun _ => dutyFull), slots := [] } }
  forN 48 (fun h d => d.hdUpd h (fun hd => { hd with duty := dutyFull, dutyClass := none, reserved := [], spent := [] })) d

/-! ### Starts (R178 to R182) -/

/-- The start slot of a planned on coordinate: the 10 µs slot of layer frames that contains its frame (R178). -/
def Dev.slotOfTime (d : Dev) (f t : Nat) : Nat := (t / frameT + d.g F.seq_LAYER_FRAMES - f) / 4

/-- What a start asks for: the plan as granted, its events, the reservation and the slot. -/
def Dev.startAsk (d : Dev) (h f : Nat) : Head × List PEvt × Nat × Nat :=
  let hd := d.hd h
  let r := d.planStart h hd
  let on := (r.1.edges.drop hd.edges.length).find? (fun e => decide (e.kind ≠ 1 ∧ e.kind ≠ 5))
  let t := match on with | some e => e.t | none => hd.p.pt
  let n := match hd.p.start with | some (v, _, _, _, _) => if v.typ = 3 then reserveNJ (match on with | some e => e.who.cw | none => []) 3 0 0 v.param else r.1.lastReserve v (r.1.edges.drop hd.edges.length) | none => 0
  (r.1, r.2, n, d.slotOfTime f t)

/-- One request is granted or refused (R179, R182): its reservation is compared with each bucket under the CAP in force, and one beyond CAP is granted
when the bucket is full. -/
def Dev.startServe (d : Dev) (h f : Nat) : Dev × Bool :=
  let (hd', ev, n, k) := d.startAsk h f
  let hd := d.hd h
  let g := d.v (F.hd_FIRE_CTRL_PGROUP h)
  let (cls, key) := match hd.p.start with | some (_, w, _, _, _) => (cxw (d.whoNow w).cw 0x58 % 8, w.key) | none => (0, 0)
  let hcap := d.dutyCap h cls
  let gcap := d.groupCap g
  let ok (cap : Nat) (l : Int) : Bool := cap == 0 || decide ((n : Int) ≤ min l cap) || decide (cap < n ∧ (cap : Int) ≤ l)
  let lim := d.v (F.fire_PGg_K g)
  let used := match d.hand.slots.find? (fun e => e.1 == g && e.2.1 == k) with | some e => e.2.2 | none => 0
  if ok hcap hd.duty && ok gcap (nthI d.hand.groups g) && (lim == 0 || decide (used < lim)) then
    let past := (hcap != 0 && decide (hcap < n)) || (gcap != 0 && decide (gcap < n))
    let hd2 : Head := { hd' with released := false, dutyClass := some (hd.dutyClass.getD cls), duty := if hcap = 0 then hd.duty else min hd.duty hcap,
                                 grants := hd'.grants ++ [(g, k, hd.p.pt, key)] }
    let slots := d.hand.slots.filter (fun e => !(e.1 == g && e.2.1 == k) && decide (d.g F.seq_LAYER_FRAMES / 4 ≤ e.2.1)) ++ [(g, k, used + 1)]
    let groups := d.hand.groups.set g (if gcap = 0 then nthI d.hand.groups g else min (nthI d.hand.groups g) gcap)
    let d := ({ d with heads := Tab.set {} d.heads h hd2, hand := { d.hand with groups := groups, slots := slots } }).debit h key n
    let d := d.p (F.fire_PGg_ROT g) h
    let d := when past (fun d => (d.flag (F.hd_FIRE_FLAGS_DUTY_OVERSIZE h)).raise firePage 6) d
    (d.planReport h ev, true)
  else
    let d := d.hdUpd h (fun hd => (d.unjoin h hd).restUntil ((f + 17) * frameT))
    ((d.bump (F.hd_START_WAITS h)).raise firePage 4, false)

/-- The heads of a power group in rotating order, from the head after its last granted one (R180). -/
def Dev.rotation (d : Dev) (g : Nat) : List Nat :=
  let r := d.g (F.fire_PGg_ROT g)
  ((List.range 48).map (fun i => (r + 1 + i) % 48)).filter (fun h => d.v (F.hd_FIRE_CTRL_PGROUP h) == g)

/-- Does a head request its start in frame `f`: its work waits, and its run-in start or start point has entered plan frame `f + 16`. -/
def Dev.asks (d : Dev) (h f : Nat) : Bool :=
  let hd := d.hd h
  hd.placed && hd.p.start.isSome && decide (hd.p.pt < (f + 17) * frameT) && !d.on (F.hd_IBEX_STAT_HELD h)

/-- The start requests of a frame, group by group in rotating order (R178 to R180). -/
def Dev.serveStarts (d : Dev) (f : Nat) : Dev :=
  forN 8 (fun g d => (d.rotation g).foldl (fun d h => if d.asks h f then (d.startServe h f).1 else d) d) d

/-! ### Meanings -/

/-- PIN (R244): PIN_COUNT exceeds PIN_TIME; one record for the run. -/
def Dev.plPin (d : Dev) (s : Nat) : Dev :=
  let ps := d.pls s
  if d.v (pf F.pl_PIN_TIME s) < d.g (pf F.pl_PL_STAT_PIN_COUNT s) ∧ !ps.pinLogged ∧ d.on (pf F.pl_PL_MAP_MAPPED s) then
    match ps.pinAt with
    | none => d
    | some (who, c) =>
      let h := d.g (pf F.pl_PL_MAP_HEAD s)
      let d := d.plUpd s (fun ps => { ps with pinLogged := true })
      let dem := satS 32 ps.demand
      let d := (d.flag (if ps.pinHi then pf F.pl_PL_FLAGS_PIN_HI s else pf F.pl_PL_FLAGS_PIN_LO s)).pi (pf F.pl_PIN_DEMAND s) dem
      let pt := (d.hd h).point ((d.hd h).timeAt c)
      let off : Int := match (d.hd h).segs.find? (fun g => decide (g.lit ≠ 0 ∧ g.who.key = who.key)) with | some g => nm (d.nominal h g c) | none => 0
      let sp : Span := { cause := if ps.pinHi then 0x2A else 0x29, who := who, s0 := off, s1 := off, x0 := nm pt.x, y0 := nm pt.y, x1 := nm pt.x, y1 := nm pt.y,
                         aux := ux 32 dem }
      d.raise (plPage s) 0 (d.spanWords h 0xFF sp)
  else d

/-- PIN (R244). -/
def execPin (slot : Fin 56) (s : State) : Host.Outcome State Fault Refusal := onDev (fun d => (d.plPin slot.val).plSums) s

/-- FF_STALE (R249): the term has aged past FF_AGE.HOLD; recorded once per ageing run. -/
def execFfStale (slot : Fin 56) (s : State) : Host.Outcome State Fault Refusal :=
  onDev (fun d =>
    let n := slot.val
    when (decide (d.v (pf F.pl_FF_SRC_EN n) = 1 ∧ d.v (pf F.pl_FF_AGE_HOLD n) < (d.pls n).age) && !(d.pls n).stale) (fun d =>
      (((d.plUpd n (fun ps => { ps with stale := true })).flag (pf F.pl_PL_FLAGS_FF_STALE n)).raise (plPage n) 3).plSums) d) s

end Sys2Proof.Machine
end

