-- ==== Sys2Proof/Machine/Ibex.lean ====
section
/-!
DEFINITION. Ibex: the separation rules, the check of all pairs over the plan, hold points, holds and releases (06 R197 to R206), and the
handoff store: items, destinations, repair (06 R207 to R225).
-/
namespace Sys2Proof.Machine

/-- The IBEX page. -/
def ibexPage : Nat := 0x60000

/-! ### The separation rules (R197 to R199) -/

/-- The distance rule and the wedge rule for two lit positions in 1/256 nm, with exact products (R198, R199): is one broken. -/
def Dev.sepBroken (d : Dev) (a b : Int × Int) : Bool :=
  let sep : Int := 256 * d.v F.ibex_SEP_MIN
  let fx := d.vi F.ibex_FLOW_X
  let fy := d.vi F.ibex_FLOW_Y
  let plume : Int := d.v F.ibex_PLUME_LEN
  let w0 : Int := d.v F.ibex_WEDGE_W0
  let tn : Int := d.v F.ibex_WEDGE_TAN
  let dx := b.1 - a.1
  let dy := b.2 - a.2
  let inPlume (dx dy : Int) : Bool :=
    let al := dx * fx + dy * fy
    let la := absI (dx * fy - dy * fx)
    decide (0 < al ∧ al ≤ plume * 256 * 2 ^ 30 ∧ la * 2 ^ 14 ≤ w0 * 256 * 2 ^ 44 + al * tn)
  decide (dx * dx + dy * dy < sep * sep) || (decide (plume ≠ 0) && (inPlume dx dy || inPlume (-dx) (-dy)))

/-- A head's position in plan frame `k`, if it is lit there (R197). -/
def Head.litPos (hd : Head) (k : Nat) : Option (Int × Int) :=
  if hd.placed && hd.litIn k then let p := hd.point (k * frameT); some (p.x, p.y) else none

/-- The lit positions of a plan in plan frames `f + 1` to `f + 16`, in order. -/
def Head.litRow (hd : Head) (f : Nat) : List (Option (Int × Int)) := (List.range 16).map (fun i => hd.litPos (f + 1 + i))

/-! ### Hold points (R204) -/

/-- How a hold cuts a plan: a pause, or a split of a vector at a plan time, which lies in the piece `g`. -/
inductive Cut where
  | pause (cp : PState)
  | split (g : Seg) (w : Who) (t : Nat)
  | none_

/-- The hold point of a plan whose first conflict lies at plan frame `k`, decided in frame `f` (R204). A vector whose light begins inside frame `k` has
nothing exposed at boundary `k`: its head pauses where it comes to rest before the light, or the whole vector is split off on its run-in (log 114). -/
def Head.holdPoint (hd : Head) (f k : Nat) : Cut :=
  let t3 := (f + 3) * frameT
  let tk := k * frameT
  let restAt (cp : PState) : Bool := decide (t3 ≤ cp.pt) || hd.segs.all (fun g => decide (g.t1 ≤ cp.pt ∨ t3 ≤ g.t0))
  match (hd.cps.filter (fun cp => decide (cp.pt ≤ tk) && restAt cp)).getLast? with
  | some cp => .pause cp
  | none =>
    match hd.segs.find? (fun g => decide (g.lit ≠ 0 ∧ tk < g.t1)) with
    | some m =>
      if m.t0 ≤ tk ∧ m.lit ≠ 3 then .split m m.who tk
      else match hd.cps.find? (fun cp => if m.t0 ≤ tk then decide (m.t1 ≤ cp.pt) else decide (tk ≤ cp.pt ∧ cp.pt ≤ m.t0)) with
        | some cp => .pause cp
        | none =>
          match hd.segs.find? (fun g => decide (g.lit = 0 ∧ g.t0 ≤ tk ∧ tk < g.t1)) with
          | some g => .split g m.who tk
          | none => .none_
    -- a head that waits at rest for its start
    | none => if hd.p.start.isSome then .pause hd.p else .none_

/-- The plan of a head cut by a split of the vector `w` at plan time `t`, in the piece `g` (R204): the off edge at the planned coordinate of that time, a
run-out to rest, and nothing after. -/
def Dev.splitHead (d : Dev) (h : Nat) (hd : Head) (g : Seg) (w : Who) (t : Nat) : Head :=
  let c := w.cw
  let pt := g.point t
  let stop := t - g.t0
  let v := g.vel t
  let (_, dOff, _) := d.dirVals h c w.rev
  let mine (v : Who) : Bool := v.key == w.key && v.item == w.item
  let segs := (hd.segs.filter (fun q => decide (q.t1 ≤ g.t0))) ++ (if stop = 0 then [] else [{ g with stop := stop, goesOn := false }])
  -- edges before the coordinate stay; the marking that was on ends there
  let lit := g.lit ≠ 0
  let cut (e : PEdge) : Option PEdge :=
    if e.kind = 1 ∨ e.kind = 5 then (if e.t < t then some e else none)
    else if e.kind = 2 then (if e.c < pt.s then some { e with last := min e.last (pt.s - 1) } else none)
    else if e.kind = 6 then (if e.t < t then some { e with pitch := min e.pitch t } else none)
    else if e.t < t then some e else none
  let edges := (hd.edges.filter (fun e => lit || !mine e.who)).filterMap cut
  let opened := hd.level && hd.onWho.any (fun v => (v.2 == 1 || v.2 == 4) && (lit || mine v.1)) || lit && edges.any (fun e => e.kind = 0 ∨ e.kind = 4)
  let merged := edges.any (fun e => e.kind = 4 ∧ e.who.key = w.key) || hd.onWho.any (fun v => v.2 = 4)
  let off : PEdge := { kind := if merged then 5 else 1, c := pt.s, delay := dOff, t := t, width := (hd.edges.find? (fun e => e.kind == 5)).elim 0 (·.width),
                       who := w, v := g.vm, onT := g.onT, lag := g.lag + rdiv ((pt.s - g.s0) * 5000) (max 1 g.vm) }
  let edges := if g.lit ≤ 1 ∧ opened then edges ++ [off] else edges
  let hd := { hd with segs := segs, edges := edges, under := false,
                      p := { hd.p with pt := t, px := pt.x, py := pt.y, pf := pt.f, ps := pt.s, pv := v, start := none, join := none, out := none, lens := [], chain := none } }
  -- the run-out of the context's SKY_OUT, stretched, along the piece
  hd.runOut w (g.x1 - g.x0, g.y1 - g.y0)

/-- The plan that results from a cut, for the check. -/
def Dev.cutHead (d : Dev) (h : Nat) (hd : Head) (c : Cut) : Head :=
  match c with
  | .pause cp => { hd with segs := hd.segs.filter (fun g => decide (g.t1 ≤ cp.pt)), p := cp }.finishOut
  | .split g w t => d.splitHead h hd g w t
  | .none_ => hd

/-! ### The check (R201 to R203, R206) -/

/-- The plan of a head at rest goes on at plan time `t`, or where its last piece ends. -/
def Head.restFrom (hd : Head) (t : Nat) : Head := { hd with p := { hd.p with pt := hd.segs.foldl (fun (m : Nat) (g : Seg) => max m g.t1) t, pv := 0 } }.checkpoint

/-- The tentative plan of a held head (R206): at rest through `f + 3`, then its next work, every start granted. -/
def Dev.tentative (d : Dev) (h f : Nat) : Head :=
  (d.planRun h f true 60 ((d.hd h).restFrom ((f + 3) * frameT), [])).1

/-- Does a released head wait at rest for a start that was refused (R206). -/
def Head.waits (hd : Head) : Bool := hd.released && hd.p.start.isSome

/-- The standing of a plan in frame `f` (R202): the YIELD_RANK of its first vector lit in `f + 3` to `f + 16`. -/
def Head.standing (hd : Head) (f : Nat) : Option Nat :=
  if !hd.placed then none
  else (hd.segs.find? (fun g => decide (g.lit ≠ 0 ∧ g.t0 < (f + 17) * frameT ∧ (f + 3) * frameT < g.t1))).map (fun g => bits (cxw g.who.cw 0x58) 15 8)

/-- Heads with their standing in the order of R203: greater rank first, then lower index. -/
def rankSort (l : List (Nat × Nat)) : List Nat :=
  ((List.range 256).reverse.flatMap (fun r => l.filter (fun e => e.2 == r))).map (·.1)

/-- One head in the pass of R202: the first plan frame at which its candidate breaks a rule against an earlier resulting plan, and the head
of that conflict. -/
def Dev.conflict (d : Dev) (f : Nat) (row : List (Option (Int × Int))) (earlier : List (Nat × List (Option (Int × Int)))) : Option (Nat × Nat) :=
  (List.range 14).findSome? (fun i =>
    match row.getD (i + 2) none with
    | none => none
    | some a => (earlier.find? (fun e => match e.2.getD (i + 2) none with | some b => d.sepBroken b a | none => false)).map (fun e => (f + 3 + i, e.1)))

/-- The pass of R202: for every head with standing, what is decided. A released head whose start was refused is checked anew with its tentative plan
(R206). -/
def Dev.ibexPass (d : Dev) (f : Nat) : List (Nat × Option HoldAct) :=
  let held (h : Nat) : Bool := d.on (F.hd_IBEX_STAT_HELD h)
  let cands := (List.range 48).map (fun h => (h, if held h || (d.hd h).waits then d.tentative h f else d.hd h))
  let ranked := cands.filterMap (fun e => (e.2.standing f).map (fun r => (e.1, r)))
  let go (r : List (Nat × List (Option (Int × Int))) × List (Nat × Option HoldAct)) (h : Nat) :=
    let hd := match cands.find? (fun e => e.1 == h) with | some e => e.2 | none => d.hd h
    match d.conflict f (hd.litRow f) r.1 with
    | none => (r.1 ++ [(h, hd.litRow f)], r.2 ++ [(h, if held h then some HoldAct.release else none)])
    | some (k, by_) =>
      let res := d.cutHead h hd (hd.holdPoint f k)
      (r.1 ++ [(h, res.litRow f)], r.2 ++ [(h, some (.hold by_ k))])
  ((rankSort ranked).foldl go ([], [])).2

/-- Breaches (R201): pairs that break a rule in `f + 1` or `f + 2`, recorded once per unbroken run. -/
def Dev.breaches (d : Dev) (f : Nat) : Dev :=
  let rows := (List.range 48).map (fun h => (h, (d.hd h).litPos (f + 1), (d.hd h).litPos (f + 2)))
  let both (x y : Option (Int × Int)) : Bool := match x, y with | some a, some b => d.sepBroken a b | _, _ => false
  let pairs := rows.flatMap (fun a => (rows.filter (fun b => decide (a.1 < b.1) && (both a.2.1 b.2.1 || both a.2.2 b.2.2))).map (fun b => (a, b)))
  let new := pairs.filter (fun p => !d.hand.breach.contains (p.1.1, p.2.1))
  let d := { d with hand := { d.hand with breach := pairs.map (fun p => (p.1.1, p.2.1)) } }
  new.foldl (fun (d : Dev) p =>
    let one : Bool := both p.1.2.1 p.2.2.1
    let a := (bif one then p.1.2.1 else p.1.2.2).getD (0, 0)
    let b := (bif one then p.2.2.1 else p.2.2.2).getD (0, 0)
    (d.bump F.ibex_BREACH_COUNT).raise ibexPage 3
      [p.1.1, p.2.1, (bif one then f + 1 else f + 2) % 2 ^ 32, ux 32 (nm a.1), ux 32 (nm a.2), ux 32 (nm b.1), ux 32 (nm b.2)]) d

/-- Ibex in frame `f` (R201, R202): breaches, and the holds and releases for boundary `f + 1`. -/
def Dev.ibexStep (d : Dev) (f : Nat) : Dev :=
  let d := d.breaches f
  if !d.on (F.hdr_PAGE_CTRL_ENABLE ibexPage) then
    -- no hold is placed (R230); held heads are released
    forN 48 (fun h d => when (d.on (F.hd_IBEX_STAT_HELD h)) (fun d => d.hdUpd h (fun hd => { hd with holdNext := some .release })) d) d
  else (d.ibexPass f).foldl (fun d e => d.hdUpd e.1 (fun hd => { hd with holdNext := e.2 })) d

/-! ### Items -/

/-- The entry of the store in KIND, as the window shows it: words 0 to 5 (R214). -/
def Item.words (it : Item) : List Nat :=
  if it.kind = 0 then [0, 0, 0, 0, 0, 0, 0, 0]
  else [it.kind * 2 ^ 30 + it.dst.getD 0 * 2 ^ 24 + b2n it.dst.isSome * 2 ^ 23 + b2n it.contNext * 2 ^ 22 + it.src * 65536 + it.cause * 256 + min 15 it.attempt * 16,
        it.idx, it.sStart, it.sEnd, it.tried, it.tag, 0, 0]

/-- An item of the store. -/
def Dev.item (d : Dev) (n : Nat) : Item := Tab.at {} d.hand.items n
/-- Change an item. -/
def Dev.itemUpd (d : Dev) (n : Nat) (f : Item → Item) : Dev := { d with hand := { d.hand with items := Tab.upd {} d.hand.items n f } }
/-- The lowest free entry (R214, R217). -/
def Dev.freeItem (d : Dev) : Option Nat := (List.range 8192).find? (fun n => (d.item n).kind == 0)
/-- An item with its place in the order in which items are made (R216), which moves on. -/
def Dev.stamp (d : Dev) (it : Item) : Item × Dev := ({ it with order := d.hand.made }, { d with hand := { d.hand with made := d.hand.made + 1 } })
/-- An item is made in a free entry. -/
def Dev.newItem (d : Dev) (n : Nat) (it : Item) : Dev := let (it, d) := d.stamp it; d.itemUpd n (fun _ => it)
/-- Entries that hold handoff and remainder items (R217). -/
def Dev.hoCount (d : Dev) : Nat := d.hand.items.countP (fun e => e.2.kind == 1 || e.2.kind == 3)
/-- The remainder items that wait take entries while the limit of R217 leaves room. -/
def Dev.storeWaiting (d : Dev) : Dev :=
  d.hand.waiting.foldl (fun d it =>
    match (if d.hoCount < 7168 then d.freeItem else none) with
    | some n => let d := d.itemUpd n (fun _ => it); { d with hand := { d.hand with waiting := d.hand.waiting.drop 1 } }
    | none => d) d
/-- A remainder item is made (R204). -/
def Dev.makeRest (d : Dev) (it : Item) : Dev :=
  let (it, d) := d.stamp it
  { d with hand := { d.hand with waiting := d.hand.waiting ++ [it] } }
/-- The marking length of an item in nm. -/
def Item.len (it : Item) : Nat :=
  if it.vr.typ = 3 then 0
  else (if it.sEnd = 0xFFFFFFFF then xyLen it.x0 it.y0 (256 * it.vr.x) (256 * it.vr.y) / 256 else it.sEnd) - it.sStart

/-- HO_QUEUED, HO_ITEMS and HO_STAT (R221, R222, R230, R231). -/
def Dev.hoStat (d : Dev) : Dev :=
  let d := (d.p F.ibex_HO_STAT_ITEMS d.hand.items.length).p F.ibex_HO_STAT_ORPHANS (d.hand.items.countP (fun e => e.2.orphan))
  forN 48 (fun h d =>
    let mine := d.hand.items.filter (fun e => e.2.dst == some h)
    (d.p (F.hd_HO_QUEUED h) (satU 32 (mine.foldl (fun n e => n + e.2.len) 0))).p (F.hd_HO_ITEMS h) mine.length) d

/-- A point of an item's record at a nominal offset in nm, in 1/256 nm. -/
def Item.pointAt (it : Item) (s : Nat) : Int × Int :=
  if it.vr.typ = 3 then (256 * it.vr.x, 256 * it.vr.y)
  else along it.x0 it.y0 (256 * it.vr.x) (256 * it.vr.y) (xyLen it.x0 it.y0 (256 * it.vr.x) (256 * it.vr.y)) (256 * s)

/-! ### The tile map (R207, R208) -/

/-- The entry of the tile that holds a point in 1/256 nm. -/
def Dev.tileOf (d : Dev) (x y : Int) : Option Nat :=
  let size : Int := d.g F.ibex_TILE_SIZE
  let nx := d.g F.ibex_TILE_DIM_NX
  let ny := d.g F.ibex_TILE_DIM_NY
  if size = 0 then none
  else
    let tx := (x - 256 * d.gi F.ibex_TILE_X0) / (256 * size)
    let ty := (y - 256 * d.gi F.ibex_TILE_Y0) / (256 * size)
    if 0 ≤ tx ∧ tx < nx ∧ 0 ≤ ty ∧ ty < ny then some (ty.toNat * nx + tx.toNat) else none

/-- The heads of a tile entry: OWNER, ALT0 to ALT3, each when EN is set. -/
def Dev.tileHeads (d : Dev) (n : Nat) : List (Option Nat) :=
  let w := (Tab.at 0 d.tiles n).toNat
  (List.range 5).map (fun i => let b := bits w (8 * i + 7) (8 * i); if bit b 7 then some (b % 64) else none)

/-- The position of a head in the entry of the tile that holds an item's first point, as a TRIED bit (R214). -/
def Dev.entryPos (d : Dev) (it : Item) (h : Nat) : Nat :=
  let a := it.pointAt it.sStart
  match d.tileOf a.1 a.2 with
  | some n => (d.tileHeads n).zipIdx.foldl (fun m e => if e.1 = some h then m ||| 2 ^ e.2 else m) 0
  | none => 0

/-! ### Destinations (R218, R222) -/

/-- The bit of a head in HEAD_LIMITED (14 R424, R428). -/
def limitedFld (h : Nat) : Fld := if h < 32 then ⟨0x30A8, h, h⟩ else ⟨0x30AC, h - 32, h - 32⟩

/-- The heads eligible for an item (R218; 14 R424). -/
def Dev.eligible (d : Dev) (it : Item) : List Nat :=
  let a := it.pointAt it.sStart
  let b := if it.sEnd = 0xFFFFFFFF then (256 * it.vr.x, 256 * it.vr.y) else it.pointAt it.sEnd
  match d.tileOf a.1 a.2 with
  | none => []
  | some n =>
    ((d.tileHeads n).zipIdx.filterMap (fun e => match e.1 with | some h => if bit it.tried e.2 then none else some h | none => none)).filter (fun h =>
      h != it.loggedBy && !it.lostBy.contains h && d.hand.expo.contains h && !d.on (F.hd_FAIL_FAILED h) && !d.on (limitedFld h) && d.inField h a.1 a.2 && d.inField h b.1 b.2)

/-- Among heads, the one with the least queued work, then greater yield rank, then lower index (R218, R203). -/
def Dev.leastQueued (d : Dev) (hs : List Nat) : Option Nat :=
  let key (h : Nat) : Nat := d.g (F.hd_HO_QUEUED h) * 2 ^ 16 + (255 - ((d.hd h).standing d.time.frame).getD 0) * 64 + h
  hs.foldl (fun best h => match best with | none => some h | some b => if key h < key b then some h else some b) none

/-- The span payload of a HANDOFF record (R221; 15 R444). -/
def Dev.itemWords (d : Dev) (it : Item) (dst : Nat) : List Nat :=
  let a := it.pointAt it.sStart
  let b := if it.sEnd = 0xFFFFFFFF then (256 * it.vr.x, 256 * it.vr.y) else it.pointAt it.sEnd
  [it.cause * 2 ^ 24 + it.src * 65536 + dst * 256 + b2n (decide (it.src ≠ dst)) + 2 * b2n (it.kind == 2), d.g F.seq_LAYER_NUM, it.idx, it.tag, it.sStart, it.sEnd,
   ux 32 (nm a.1), ux 32 (nm a.2), ux 32 (nm b.1), ux 32 (nm b.2), 0, 0]

/-- An item goes to a head: HANDOFF is recorded and counted (R221). -/
def Dev.assignItem (d : Dev) (n h : Nat) : Dev :=
  let it := d.item n
  let d := d.itemUpd n (fun it => { it with dst := some h, orphan := false })
  let d := (d.bump F.ibex_HO_COUNT_HANDOFFS).raise ibexPage 5 (d.itemWords it h)
  (d.p (F.hd_HO_QUEUED h) (satU 32 (d.g (F.hd_HO_QUEUED h) + it.len))).p (F.hd_HO_ITEMS h) (satU 16 (d.g (F.hd_HO_ITEMS h) + 1))

/-- The entries of the chain that begins at an item: each linked by CONT_NEXT to the record after it (R216). `n` bounds the length. -/
def Dev.chainOf (d : Dev) : Nat → Nat → List Nat
  | 0, e => [e]
  | n + 1, e =>
    let it := d.item e
    if !it.contNext then [e]
    else match d.hand.items.find? (fun q => q.2.src == it.src && q.2.idx == it.idx + 1 && q.2.kind == it.kind && q.2.dst.isNone) with
      | some q => e :: d.chainOf n q.1
      | none => [e]

/-- The entries of the chain of an item that a head executes, from that item on (R216, R219). -/
def Dev.itemChain (d : Dev) (h : Nat) : Nat → Nat → List Nat
  | 0, e => [e]
  | n + 1, e =>
    let it := d.item e
    if !it.contNext then [e]
    else match d.hand.items.find? (fun q => q.2.kind == it.kind && q.2.dst == some h && q.2.src == it.src && q.2.idx == it.idx + 1) with
      | some q => e :: d.itemChain h n q.1
      | none => [e]

/-- Choose the destination of an item's chain (R218): one head for all of it; else the chain is cut and each item goes its own way, and one
without an eligible head is an orphan (R222). -/
def Dev.chooseFor (d : Dev) (e : Nat) : Dev :=
  let ch := d.chainOf 8192 e
  let both := ch.foldl (fun hs n => hs.filter (fun h => (d.eligible (d.item n)).contains h)) (d.eligible (d.item e))
  match d.leastQueued both with
  | some h => ch.foldl (fun d n => d.assignItem n h) d
  | none => ch.foldl (fun d n =>
      let d := d.itemUpd n (fun it => { it with contNext := false, cut := it.cut || decide (1 < ch.length) })
      match d.leastQueued (d.eligible (d.item n)) with
      | some h => d.assignItem n h
      | none => if (d.item n).orphan then d else (d.itemUpd n (fun it => { it with orphan := true })).raise ibexPage 7) d

/-- Items that wait for a destination, in the order in which they were made, chains from their first item on; `all` takes the orphans again (R222). -/
def Dev.chooseAll (d : Dev) (all : Bool) : Dev :=
  let waiting := ((d.hand.items.filter (fun e => e.2.kind != 0 && e.2.dst.isNone && (all || !e.2.orphan))).foldr (insertBy (·.2.order)) []).map (·.1)
  waiting.foldl (fun d n =>
    let it := d.item n
    -- a later item of a chain is handled with its first one; a chain still being read waits
    let follows := d.hand.items.any (fun q => q.2.contNext && q.2.dst.isNone && q.2.src == it.src && q.2.idx + 1 == it.idx && q.2.kind == it.kind)
    let last := d.item ((d.chainOf 8192 n).getLastD n)
    let reading := last.contNext && d.hand.readers.any (fun r => r.head == it.src)
    if it.dst.isSome || follows || reading then d else d.chooseFor n) d

/-! ### Repair (R223, R224) -/

/-- One repair item for a piece of a span (R223, R224). A span that covers the light of the piece from its start or to its end reaches to the start or end of
its ground, whatever align moved its edges by. The head that logged the first span of this ground has REPAIR_MAX attempts; each later one is another
head's, which is marked TRIED when it fails. -/
def Dev.repairItem (d : Dev) (h : Nat) (sp : Span) (g : Seg) (n : Nat) : Dev :=
  let l := d.lightOf h g
  let at_ (t : Nat) : Int := max g.who.nom (d.nominal h g ((d.hd h).point t).s)
  let a := (nm (if sp.t0 ≤ l.1 then g.who.nom else at_ sp.t0)).toNat
  let b := (nm (at_ sp.t1)).toNat
  let whole := decide (l.2 ≤ sp.t1)
  let old : Option Item := g.who.item.map d.item
  let attempt := (old.elim 0 (·.attempt)) + 1
  let logger := match old with | some o => if o.attempt = 0 then h else o.loggedBy | none => h
  let sEnd := if g.lit = 3 then 0xFFFFFFFF else if whole then old.elim 0xFFFFFFFF (·.sEnd) else b
  let own := logger == h && !sp.has 0x21 && !sp.has 0x22 && !d.on (F.hd_FAIL_FAILED h) && decide (attempt ≤ d.v F.ibex_HO_CTRL_REPAIR_MAX)
  -- an item that begins or ends at a junction stands alone: it has a run-in or a run-out there (R219)
  let it : Item := { kind := 2, dst := if own then some h else none, contNext := false, src := g.who.src, cause := sp.cause, attempt := attempt, idx := g.who.idx,
                     sStart := if g.lit = 3 then 0 else a, sEnd := sEnd, tried := old.elim 0 (·.tried), tag := g.who.tag,
                     vr := { g.who.vr with cont := g.cont || g.who.item.isSome && g.who.vr.cont }, cut := g.goesOn || old.elim false (·.cut),
                     x0 := g.who.x0, y0 := g.who.y0, f0 := g.who.f0, loggedBy := logger, lostBy := old.elim [] (·.lostBy) }
  let it := if logger = h then it else { it with tried := it.tried ||| d.entryPos it h, lostBy := it.lostBy ++ [h] }
  ((d.newItem n it).bump F.ibex_HO_COUNT_REPAIRS).raise ibexPage 6

/-- The queued spans become items while entries are free; those that find none wait (R217, R223). -/
def Dev.spanStep (d : Dev) : Dev :=
  let (keep, d) := d.hand.spans.foldl (fun (r : List (Nat × Span) × Dev) e =>
    let d := r.2
    let pieces := d.litBetween e.1 e.2.t0 e.2.t1
    if 8192 < d.hand.items.length + pieces.length then (r.1 ++ [e], d)
    else (r.1, pieces.foldl (fun d g => match d.freeItem with | some n => d.repairItem e.1 e.2 g n | none => d) d)) ([], d)
  { d with hand := { d.hand with spans := keep } }

/-- Items whose exposure has ended without a new span are freed (R217): the light of their last piece went off two frames ago. -/
def Dev.freeDone (d : Dev) (f : Nat) : Dev :=
  d.hand.items.foldl (fun d e =>
    let it := e.2
    match it.dst with
    | none => d
    | some h =>
      let hd := d.hd h
      let busy := hd.segs.any (fun g => g.who.item == some e.1 && decide ((f - 3) * frameT < g.t1)) || hd.edges.any (fun q => q.who.item == some e.1)
        || hd.p.start.any (fun s => s.2.1.item == some e.1) || hd.clip.isSome || hd.darkAt.isSome
      if it.running && !busy then d.itemUpd e.1 (fun _ => {}) else d) d

/-! ### Reading failed heads' streams (R216, R217) -/

/-- Where the remainder items of a head hold the ground of a record from (R226), in nm. -/
def Reader.skipAt (r : Reader) (idx : Nat) : Option Nat := (r.skip.find? (fun e => e.1 == idx)).map (·.2)

/-- One record read by the handoff engine; one whose burst is bad is absent and is asked for again (01 R24, 12 R363),
and one on a subchannel that a repair occupies waits (12 R377). -/
def Dev.readOne (d : Dev) (m : List Host.Cell) (r : Reader) : Dev × Option Reader :=
  let hd := d.hd r.head
  let a := hd.addr + 32 * r.next
  let v := recAt m a
  let wait := d.repairing (burstSc (a / 64))
  let (bad, d) := d.dramRead 0 a (if r.next < hd.count ∧ !wait then 32 else 0)
  if bad ∨ wait then (d, some r)
  else if hd.count ≤ r.next ∨ v.typ = 0x1F then (d, none)
  else
    let go (d : Dev) : Dev × Option Reader :=
      let c := if v.ctx = 0 then r.motion else v.ctx
      (d, some { r with next := r.next + 1, s := 0, first := false, broken := v.marks && xyLen r.x r.y (256 * v.x) (256 * v.y) == 0, x := if v.typ = 0x10 then r.x else 256 * v.x, y := if v.typ = 0x10 then r.y else 256 * v.y,
                        f := if v.typ = 0x10 then r.f else focus v (d.ctxWords c), motion := c })
    if v.typ = 0x10 then go (d.raise 0x8000 9 [v.tag, v.param, 1])
    else if v.marks ∨ v.typ = 3 then
      let L := xyLen r.x r.y (256 * v.x) (256 * v.y)
      let s := if v.typ = 3 then 0 else (nm r.s).toNat
      -- a remainder item of the head holds the ground from there on (R226)
      let skip := r.skipAt r.next
      if v.typ ≠ 3 ∧ L = 0 ∨ skip.any (fun e => decide (e ≤ s)) then go d
      else match d.freeItem with
        | none => (d, some r)
        | some n =>
          -- the record behind it may lie in the next burst
          let more := decide (v.typ ≠ 3 ∧ r.next + 1 < hd.count)
          let (bad, d) := if more && decide (a % 64 = 32) then d.dramRead 0 (a + 32) 32 else (false, d)
          let nxt := recAt m (a + 32)
          let cont := more && nxt.marks && nxt.cont && skip.isNone && r.skipAt (r.next + 1) != some 0
          let it : Item := { kind := 1, dst := none, contNext := cont, src := r.head, cause := r.cause, attempt := 0, idx := r.next,
                             sStart := s, sEnd := skip.getD 0xFFFFFFFF, tag := v.tag, vr := { v with cont := v.cont && !r.broken },
                             x0 := r.x, y0 := r.y, f0 := r.f, loggedBy := r.head }
          if bad then (d, some r) else go (d.newItem n it)
    else go d

/-- The handoff engine in a frame: up to HO_CTRL.RATE records, the earliest failed head first; at 7,168 entries it stops (R216, R217). -/
def Dev.readStep (m : List Host.Cell) : Nat → Dev → Dev
  | 0, d => d
  | k + 1, d =>
    match d.hand.readers with
    | [] => d
    | r :: rs =>
      if d.hand.storeFull then d
      else if 7168 ≤ d.hoCount then ({ d with hand := { d.hand with storeFull := true } }).raise ibexPage 9
      else
        let (d, r') := d.readOne m r
        let d := { d with hand := { d.hand with readers := match r' with | some r => r :: rs | none => rs } }
        Dev.readStep m k d

/-- The handoff engine in frame `f`: spans, reading, destinations, freeing (R216 to R224). -/
def Dev.handStep (d : Dev) (m : List Host.Cell) (f : Nat) : Dev :=
  let d := (d.spanStep.freeDone f).storeWaiting
  let d := Dev.readStep m (d.v F.ibex_HO_CTRL_RATE) d
  (d.chooseAll false).hoStat

/-! ### Holds and releases at a boundary (R204, R205) -/

/-- The vectors of the own stream that continue the one of a piece with the laser on: those already planned, with the values they keep (R98), then the
records behind the plan. -/
def Dev.chainBehind (d : Dev) (h : Nat) (g : Seg) : List Who × List Who :=
  let hd := d.hd h
  let planned := ((hd.segs.filter (fun q => decide (g.t0 < q.t0) && q.cont && q.who.item.isNone)).map (·.who)).zipIdx
  let planned := (planned.takeWhile (fun e => e.1.idx == g.who.idx + 1 + e.2)).map (·.1)
  let last := planned.getLastD g.who
  let more := if last.idx + 1 = hd.p.next then d.contRun last.vr (hd.recsFrom 0) else []
  let step (r : List Who × Who) (l : VRec × Bool) : List Who × Who :=
    let w := r.2
    let n : Who := { src := w.src, idx := w.idx + 1, tag := l.1.tag, ctx := l.1.ctx, vr := l.1, x0 := 256 * w.vr.x, y0 := 256 * w.vr.y, f0 := focus w.vr w.cw }
    (r.1 ++ [n], { n with cw := d.ctxWords l.1.ctx })
  (planned, (more.foldl step ([], last)).1)

/-- What remains of a vector `w` split in the piece `g`, and of its CONT chain, becomes remainder items of the same head (R204, R214): of an item's chain
its items, of the own stream one per record. A vector split before its light remains whole. -/
def Dev.remainder (d : Dev) (h : Nat) (g : Seg) (w : Who) (t : Nat) : Dev :=
  let s := (nm (if g.lit = 0 then w.nom else d.nominal h g (g.point t).s)).toNat
  let g := { g with who := w }
  match w.item with
  | some n =>
    let rest (m : Nat) (it : Item) : Item :=
      let cw := ((d.hd h).segs.find? (fun q => decide (g.t0 < q.t0) && q.who.item == some m)).elim it.cw (·.who.cw)
      { it with kind := 3, cause := 0x30, running := false, dst := some h, cw := if m = n then g.who.cw else cw, sStart := if m = n then s else it.sStart }
    (d.itemChain h 8192 n).foldl (fun d m => d.itemUpd m (rest m)) d
  | none =>
    let (planned, more) := d.chainBehind h g
    let all := g.who :: planned ++ more
    let item (e : Who × Nat) : Item :=
      { kind := 3, dst := some h, src := h, cause := 0x30, loggedBy := h, idx := e.1.idx, tag := e.1.tag, vr := e.1.vr, x0 := e.1.x0, y0 := e.1.y0, f0 := e.1.f0,
        cw := e.1.cw, contNext := decide (e.2 + 1 < all.length), sStart := if e.2 = 0 then s else 0, sEnd := 0xFFFFFFFF }
    let d := (all.zipIdx.foldl (fun d e => d.makeRest (item e)) d).storeWaiting
    -- the stream goes on behind the chain
    let last := all.getLastD g.who
    d.hdUpd h (fun hd => { hd with p := { hd.p with next := last.idx + 1, rx := 256 * last.vr.x, ry := 256 * last.vr.y, rf := focus last.vr (d.ctxWords last.ctx),
                                                    prevMark := true, broken := true, motion := last.ctx } })

/-- The grants and reservations of vectors beyond a plan time are returned (05, Collisions; R205). -/
def Dev.returnGrants (d : Dev) (h t : Nat) : Dev :=
  let hd := d.hd h
  let back := hd.grants.filter (fun g => decide (t ≤ g.2.2.1))
  let d := d.hdUpd h (fun hd => { hd with grants := hd.grants.filter (fun g => decide (g.2.2.1 < t)) })
  back.foldl (fun d g =>
    let slots := d.hand.slots.map (fun s => if s.1 = g.1 ∧ s.2.1 = g.2.1 then (s.1, s.2.1, s.2.2 - 1) else s)
    ({ d with hand := { d.hand with slots := slots } }).undebit h g.2.2.2 0) d

/-- HELD_LO or HELD_HI bit of a head. -/
def heldFld (h : Nat) : Fld := if h < 32 then ⟨0x60080, h, h⟩ else ⟨0x60084, h - 32, h - 32⟩
/-- FAILED_LO or FAILED_HI bit of a head. -/
def failedFld (h : Nat) : Fld := if h < 32 then ⟨0x60088, h, h⟩ else ⟨0x6008C, h - 32, h - 32⟩

/-- A hold decided in frame `f` takes effect at boundary `f + 1` (R202, R204, R205); the plan is cut in the frame that begins there. -/
def Dev.applyHold (d : Dev) (h f by_ k : Nat) : Dev :=
  if d.on (F.hd_IBEX_STAT_HELD h) then d.p (F.hd_IBEX_STAT_HOLD_BY h) by_
  else
    let hd := d.hd h
    let cut := hd.holdPoint f k
    let mark (d : Dev) (split : Bool) : Dev :=
      let d := (((d.p (F.hd_IBEX_STAT_HELD h) 1).p (F.hd_IBEX_STAT_SPLIT h) (b2n split)).p (F.hd_IBEX_STAT_HOLD_BY h) by_).p (F.hd_IBEX_STAT_HOLD_FRAMES h) 0
      let d := ((d.p (heldFld h) 1).hdUpd h (fun hd => { hd with holdLong := false, released := false, cut := some (f, k) })).bump (F.hd_HOLD_COUNT h)
      d.raise ibexPage 0
    match cut with
    | .none_ => d
    | .pause cp => mark (d.returnGrants h cp.pt) false
    | .split _ _ t => ((mark (d.returnGrants h t) true).bump (F.hd_SPLIT_COUNT h)).raise ibexPage 2

/-- In the frame in which a hold takes effect the plan is cut at its hold point (R202, R204). -/
def Dev.holdCut (d : Dev) (h : Nat) : Dev :=
  match (d.hd h).cut with
  | none => d
  | some (f, k) =>
    let d := d.hdUpd h (fun hd => { hd with cut := none })
    match (d.hd h).holdPoint f k with
    | .none_ => d
    | .pause cp => d.cutPlan h cp
    | .split g w t =>
      let d := d.remainder h g w t
      d.hdUpd h (fun hd => { d.splitHead h hd g w t with cps := hd.cps.filter (fun c => decide (c.pt ≤ g.t0)) })

/-- A head is not held (R202): what IBEX_STAT says of a present hold is 0 (R231). -/
def Dev.unhold (d : Dev) (h : Nat) : Dev :=
  (((d.p (F.hd_IBEX_STAT_HELD h) 0).p (F.hd_IBEX_STAT_SPLIT h) 0).p (F.hd_IBEX_STAT_HOLD_FRAMES h) 0).p (heldFld h) 0

/-- A release decided in frame `f` takes effect (R202, R206). -/
def Dev.applyRelease (d : Dev) (h f : Nat) : Dev :=
  if !d.on (F.hd_IBEX_STAT_HELD h) then d
  else
    let d := (d.unhold h).hdUpd h (fun hd => { hd.restFrom ((f + 3) * frameT) with released := true })
    d.raise ibexPage 1

/-- The holds and releases of frame `f` at boundary `f + 1` (01 R38 step 6), and the frames of holds that go on. One that meets a failure of its head at this
boundary is recorded too, and ends with the failure (04 R145): the failure takes the plan as it stands before the hold cuts it. -/
def Dev.holdStep (d : Dev) (f : Nat) : Dev :=
  forN 48 (fun h d =>
    let act := (d.hd h).holdNext
    let d := d.hdUpd h (fun hd => { hd with holdNext := none })
    let d := when (d.on (F.hd_IBEX_STAT_HELD h)) (fun d => d.bump (F.hd_IBEX_STAT_HOLD_FRAMES h)) d
    match act with
    | none => d
    | some .release => d.applyRelease h f
    | some (.hold b k) => d.applyHold h f b k) d

/-! ### Head failure (R210 to R213) -/

/-- The remaining own stream of a head from a plan time on (R212): the next record, the coordinate it starts at and its start point. -/
def Dev.remaining (d : Dev) (h t : Nat) : Nat × Int × Int × Int × Int × Nat :=
  let hd := d.hd h
  match hd.segs.find? (fun g => decide (g.lit ≠ 0 ∧ t < g.t1) && g.who.item.isNone) with
  | some g => (g.who.idx, (if t ≤ g.t0 then g.who.nom else d.nominal h g (g.point t).s), g.who.x0, g.who.y0, g.who.f0, g.who.ctx)
  | none =>
    match hd.p.start with
    | some (_, w, _, _, _) => if w.item.isNone then (w.idx, 0, w.x0, w.y0, w.f0, w.ctx) else (hd.p.next, 0, hd.p.rx, hd.p.ry, hd.p.rf, hd.p.motion)
    | none => (hd.p.next, 0, hd.p.rx, hd.p.ry, hd.p.rf, hd.p.motion)

/-- The items a failed head held move with its stream (R216, R220), those that wait for an entry too. -/
def Dev.dropItems (d : Dev) (h t : Nat) : Dev :=
  let lost (it : Item) : List Nat := if it.loggedBy = h then it.lostBy else it.lostBy ++ [h]
  let rest (it : Item) : Item := if it.dst = some h then { it with dst := none, lostBy := lost it, tried := it.tried ||| d.entryPos it h } else it
  let d := { d with hand := { d.hand with waiting := d.hand.waiting.map rest } }
  d.hand.items.foldl (fun d e =>
    if e.2.dst ≠ some h then d
    else
      let hd := d.hd h
      let segs := hd.segs.filter (fun g => g.who.item == some e.1 && decide (g.lit ≠ 0))
      let pend := hd.p.start.any (fun s => s.2.1.item == some e.1)
      let moved (it : Item) : Item := { it with dst := none, running := false, lostBy := lost it, orphan := false, tried := it.tried ||| d.entryPos it h }
      match segs.find? (fun g => decide (t < g.t1)) with
      | some g => d.itemUpd e.1 (fun it => { moved it with sStart := if g.t0 < t then (nm (d.nominal h g (g.point t).s)).toNat else it.sStart })
      | none => if e.2.running && !pend && !segs.isEmpty then d else d.itemUpd e.1 moved) d

/-- The plan time at which a head failed at boundary `b` has its laser off (R211, 04 R143, 05 R185, R190). -/
def offTime (cause b : Nat) : Nat := (b + (if cause = 4 ∨ cause = 7 ∨ cause = 8 then 2 else if cause = 6 ∨ cause = 9 then 0 else 1)) * frameT

/-- Are the positions of a head's slots valid (04 R137): none is in COAST or CURRENT_PARK. -/
def Dev.posValid (d : Dev) (h : Nat) : Bool := (d.headSlots h).all (fun s => d.mode s != 3 && d.mode s != 6)

/-- The record of a failure (R210, R212): the head, the cause, the layer, the record and the point at which the remaining work begins, and the point at which
the laser is off, in nm (log 92). -/
def Dev.failRecord (d : Dev) (h cause : Nat) (idx : Nat) (a b : PPoint) : Dev :=
  d.raise ibexPage 4 [h, cause, d.g F.seq_LAYER_NUM, idx, ux 32 (nm a.x), ux 32 (nm a.y), ux 32 (nm b.x), ux 32 (nm b.y)]

/-- A head is declared failed at the present boundary with a cause (R210 to R212): laser off, slots park, its work is handed off. `t`: plan time of the
first point of the remaining work. One that is failed keeps its first cause; a following-error fault parks its slots. -/
def Dev.headFail (d : Dev) (h cause t : Nat) : Dev :=
  let park (d : Dev) : Dev := when (cause = 1 || d.posValid h) (fun d => d.enterParking h) d
  if d.on (F.hd_FAIL_FAILED h) then when (decide (cause = 1)) (fun d => d.enterParking h) (d.hdUpd h (fun hd => { hd with failPend := none }))
  else
    let now_ := d.time.frame
    let rem := d.remaining h t
    let hd := d.hd h
    let streaming := hd.active
    let (a, b) := (hd.point t, hd.point (offTime cause now_))
    let skip := ((d.hand.items.map (·.2) ++ d.hand.waiting).filter (fun it => it.kind == 3 && it.src == h && decide (rem.1 ≤ it.idx) && it.sEnd == 0xFFFFFFFF)).map
      (fun it => (it.idx, it.sStart))
    let d := ((d.p (F.hd_FAIL_FAILED h) 1).p (F.hd_FAIL_CAUSE h) cause).p (failedFld h) 1
    -- the spans in progress are closed, and the queued ones are repaired like any other (03 R109, 05 R169, R175)
    let d := (((d.closeReversal h now_).endClip h ((now_ + 2) * frameT)).flushDense h).spanStep
    let left := d.hand.spans.filter (fun e => e.1 == h)
    let d := d.dropItems h t
    let d := d.unhold h
    let d := d.hdUpd h (fun hd =>
      { hd with failPend := none, failB := now_, active := false, edges := [], susp := none, holdNext := none, cut := none, released := false, cps := [], req := false, under := false,
                bad := false, dropFail := none,
                segs := hd.segs.filter (fun g => decide (g.t1 ≤ now_ * frameT) || left.any (fun e => decide (g.t0 < e.2.t1))
                  -- the gate bits of what is still sent can go on with a dropout span (05 R184)
                  || (hd.darkAt.isSome && decide (g.t0 < offTime cause now_))),
                p := { hd.p with start := none, join := none, out := none, chain := none, done := true, pv := 0 } })
    let r : Reader := { head := h, cause := cause, next := rem.1, s := rem.2.1, first := true, x := rem.2.2.1, y := rem.2.2.2.1, f := rem.2.2.2.2.1,
                        motion := rem.2.2.2.2.2, skip := skip, frame := now_ }
    let before (q : Reader) : Bool := decide (q.frame < r.frame ∨ (q.frame = r.frame ∧ q.head < r.head))
    let readers := d.hand.readers.filter before ++ [r] ++ d.hand.readers.filter (fun q => !before q)
    let d := { d with hand := { d.hand with readers := if streaming then readers else d.hand.readers, expo := d.hand.expo.filter (· != h) } }
    (park d).failRecord h cause rem.1 a b

/-! ### Layer exposure (R225) -/

/-- Layer L is fully exposed (R225) and no head is exposing (01 R39). -/
def Dev.layerExposed (d : Dev) : Bool :=
  let f := d.time.frame
  (List.range 48).all (fun h =>
    let hd := d.hd h
    (!hd.active || (hd.p.done && hd.segs.all (fun g => decide (g.t1 ≤ f * frameT)) && hd.p.start.isNone)) && !d.on (F.hd_IBEX_STAT_HELD h) && !hd.dropOpen && !hd.litIn f && hd.failPend.isNone)
    && d.hand.items.isEmpty && d.hand.waiting.isEmpty && d.hand.readers.isEmpty && d.hand.spans.isEmpty && decide (d.hand.lastLit + 2 ≤ f)

/-! ### Tile edits (R209, R222, R229) -/

/-- Does a tile entry set EN with a head index of 48 or more (R209). -/
def tileBad (w : Nat) : Bool := (List.range 5).any (fun i => let b := bits w (8 * i + 7) (8 * i); bit b 7 && decide (48 ≤ b % 64))

/-- A write at `ofs` of the tile map window that makes its entry `w'` (R209). One at or above NX × NY is held, and reads 0 until the map reaches it (R208). -/
def Dev.tileEntry (d : Dev) (ofs w' : Nat) : Dev :=
  let n := ofs / 8
  if !d.isSt .idle then d.err ibexPage 0x82 (ofs % 65536) (0x1020000 + ofs)
  else if tileBad w' then d.err ibexPage 0x83 (ofs % 65536) (0x1020000 + ofs)
  else { d with tiles := Tab.set 0 d.tiles n (BitVec.ofNat 64 (w' &&& 0xBFBFBFBFBF)) }
/-- A 32-bit write of the tile map window (R209). -/
def Dev.tileWrite (d : Dev) (ofs : Nat) (v : Word) : Dev := d.tileEntry ofs (putHalf (Tab.at 0 d.tiles (ofs / 8)) ofs v)

/-- A tile edit is staged (R209): a second one replaces the first. An entry that names a head of 48 or more is refused (R55). -/
def Dev.tileEdit (d : Dev) (v : Word) : Dev :=
  let w := d.g F.ibex_TILE_EDIT_LO + d.g F.ibex_TILE_EDIT_HI * 2 ^ 32
  if Word.f v 31 16 ≠ 0x5445 then d
  else if tileBad w then d.errAt 0x83 F.ibex_TILE_EDIT_CMD_KEY.addr
  else
    ({ d with hand := { d.hand with edit := some (d.g F.ibex_TILE_EDIT_IDX, w, d.isLate) } }).p F.ibex_TILE_STAT_EDIT_PENDING 1

/-- The staged edit at a boundary (R209), orphans assessed again (R222). A late one counts here or at the next (01 R536). -/
def Dev.tileCommit (d : Dev) : Dev :=
  match d.hand.edit with
  | none => d
  | some (n, w, late) =>
    let (r, d) := if late then d.draw else (0, d)
    if late && decide (r % 2 = 1) then { d with hand := { d.hand with edit := some (n, w, false) } }
    else
      let d := { d with hand := { d.hand with edit := none }, tiles := Tab.set 0 d.tiles n (BitVec.ofNat 64 (w &&& 0xBFBFBFBFBF)) }
      ((d.p F.ibex_TILE_STAT_EDIT_PENDING 0).raise ibexPage 10).chooseAll true

/-- A commit of FLOW_X and FLOW_Y is refused when their squares do not sum to 1 within 2^−10 (R200): the previous values stay. -/
def Dev.flowCheck (d old : Dev) : Dev :=
  let x := d.vi F.ibex_FLOW_X
  let y := d.vi F.ibex_FLOW_Y
  let q := x * x + y * y
  if d.v F.ibex_FLOW_X = old.v F.ibex_FLOW_X ∧ d.v F.ibex_FLOW_Y = old.v F.ibex_FLOW_Y then d
  else if 2 ^ 60 - 2 ^ 50 ≤ q ∧ q ≤ 2 ^ 60 + 2 ^ 50 then d
  else ((d.setLive F.ibex_FLOW_X.addr (old.liveReg F.ibex_FLOW_X.addr)).setLive F.ibex_FLOW_Y.addr (old.liveReg F.ibex_FLOW_Y.addr)).raise ibexPage 11

/-! ### Meanings -/

/-- HOLD_LONG (R205): recorded once per hold, with the head and HOLD_BY. -/
def execHoldLong (head : Fin 48) (s : State) : Host.Outcome State Fault Refusal :=
  onDev (fun d =>
    let h := head.val
    when (d.on (F.hd_IBEX_STAT_HELD h) && !(d.hd h).holdLong && decide (d.v F.ibex_HOLD_MAX ≤ d.g (F.hd_IBEX_STAT_HOLD_FRAMES h)))
      (fun d => (d.hdUpd h (fun hd => { hd with holdLong := true })).raise ibexPage 8 [h, d.g (F.hd_IBEX_STAT_HOLD_BY h)]) d) s

/-- TILE_MAP_WRITE (R209). -/
def execTileMapWrite (ofs : BitVec 18) (val : Word) (s : State) : Host.Outcome State Fault Refusal :=
  hosted (0x1020000 + ofs.toNat) (onDev (fun d => d.tileWrite ofs.toNat val)) s
/-- TILE_EDIT_CMD (R209). -/
def execTileEditCmd (val : Word) (s : State) : Host.Outcome State Fault Refusal :=
  hosted F.ibex_TILE_EDIT_CMD_KEY.addr (onDev (fun d => d.tileEdit val)) s

/-- HEAD_FAIL (R210): a failure that was decided takes effect at the boundary after. -/
def execHeadFail (head : Fin 48) (s : State) : Host.Outcome State Fault Refusal :=
  onDev (fun d =>
    let h := head.val
    match (d.hd h).failPend with
    | none => d
    | some c => when (d.failsNow h)
        (fun d => d.headFail h c (if c = 7 ∨ c = 8 then d.time.frame * frameT else (d.hd h).failT)) d) s

/-- FAIL_REQ (R210): with the key, the head fails at the next boundary. -/
def Dev.failReq (d : Dev) (v : Word) : Dev :=
  if Word.f v 31 16 = 0x4644 ∧ Word.f v 5 0 < 48 then d.failAsk (Word.f v 5 0) 7 d.time.frame 0 else d
/-- FAIL_REQ (R210). -/
def execFailReq (val : Word) (s : State) : Host.Outcome State Fault Refusal :=
  hosted F.ibex_FAIL_REQ_KEY.addr (onDev (fun d => d.failReq val)) s

/-- A write of HDn.REJOIN (R213). -/
def Dev.rejoin (d : Dev) (h : Nat) (v : Word) : Dev :=
  if Word.f v 15 0 = 0x524A then d.hdUpd h (fun hd => { hd with rejoinReq := true }) else d
/-- REJOIN (R213): the head rejoins at the next layer boundary at which it meets the conditions. -/
def execRejoin (head : Fin 48) (val : Word) (s : State) : Host.Outcome State Fault Refusal :=
  hosted (F.hd_REJOIN head.val).addr (onDev (fun d => d.rejoin head.val val)) s

/-- STORE_RESUME (R217): entries have come free. -/
def execStoreResume (s : State) : Host.Outcome State Fault Refusal :=
  onDev (fun d => when (d.hand.storeFull && decide (d.hoCount < 7168)) (fun d => { d with hand := { d.hand with storeFull := false } }) d) s

end Sys2Proof.Machine
end

