-- ==== Sys2Proof/Machine/Line.lean ====
section
/-!
DEFINITION. The 8b/10b code of the head lanes and bridge ports (09 R282; 10 R315): code groups abcdei fghj as numbers with bit a, which is sent first, the most
significant. The spec names the code groups and running-disparity rules of IEEE 802.3 Clause 36; the tables are those. PRESUMED (log 94).
-/
namespace Sys2Proof.Machine

/-- The ones among the low `n` bits. -/
def ones (n w : Nat) : Nat := (List.range n).countP (fun i => bit w i)

/-- The 6-bit sub-blocks of x = 0 to 31 at negative running disparity. -/
def sub6 : List Nat :=
  [39, 29, 45, 49, 53, 41, 25, 56, 57, 37, 21, 52, 13, 44, 28, 23, 27, 35, 19, 50, 11, 42, 26, 58, 51, 38, 22, 54, 14, 46, 30, 43]
/-- The 4-bit sub-blocks of y = 0 to 7 at negative running disparity. -/
def sub4 : List Nat := [11, 9, 5, 12, 13, 10, 6, 14]
/-- What a 6-bit sub-block stands for; 32 for none, K28 being told apart. -/
def of6 : List Nat :=
  [32, 32, 32, 32, 32, 23, 8, 7, 32, 27, 4, 20, 24, 12, 28, 32, 32, 29, 2, 18, 31, 10, 26, 15, 0, 6, 22, 16, 14, 1, 30, 32]
    ++ [32, 30, 1, 17, 16, 9, 25, 0, 15, 5, 21, 31, 13, 2, 29, 32, 32, 3, 19, 24, 11, 4, 27, 32, 7, 8, 23, 32, 32, 32, 32, 32]

/-- The 6-bit sub-block of x; `rd`: the running disparity is positive. -/
def enc6 (rd : Bool) (x : Nat) : Nat := let c := nth sub6 x; if rd && (x == 7 || ones 6 c != 3) then 63 - c else c
/-- The 4-bit sub-block of y behind that of x, at the running disparity behind x; y = 7 has a second form where five equal bits would follow each other. -/
def enc4 (rd : Bool) (x y : Nat) : Nat :=
  if y = 7 ∧ ((rd = false ∧ x ∈ [17, 18, 20]) ∨ (rd = true ∧ x ∈ [11, 13, 14])) then (if rd then 8 else 7)
  else let c := nth sub4 y; if rd && (y == 3 || ones 4 c != 2) then 15 - c else c
/-- The running disparity behind a sub-block of `n` bits. -/
def rdAfter (n : Nat) (rd : Bool) (c : Nat) : Bool :=
  let k := ones n c
  if n < 2 * k then true else if 2 * k < n then false else if c = 2 ^ (n / 2) - 1 then true else if c = 2 ^ n - 2 ^ (n / 2) then false else rd
/-- The running disparity behind a code group. -/
def rdGroup (rd : Bool) (g : Nat) : Bool := rdAfter 4 (rdAfter 6 rd (g / 16)) (g % 16)

/-- The code group of a data byte. -/
def encD (rd : Bool) (b : Nat) : Nat :=
  let a := enc6 rd (b % 32)
  a * 16 + enc4 (rdAfter 6 rd a) (b % 32) (b / 32)
/-- The code group of a control byte: K28.y, and K23.7, K27.7, K29.7, K30.7. -/
def encK (rd : Bool) (b : Nat) : Nat :=
  if b % 32 = 28 then
    let c := 15 * 16 + nth [4, 9, 5, 3, 2, 10, 6, 8] (b / 32)
    if rd then 1023 - c else c
  else
    let a := enc6 rd (b % 32)
    a * 16 + (if rdAfter 6 rd a then 8 else 7)

/-- What a code group stands for at a running disparity: a byte, whether it is a control character, and whether it is a valid code group there. One of
the other disparity is a running-disparity error. -/
def decGroup (rd : Bool) (g : Nat) : Nat × Bool × Bool :=
  let x := nth of6 (g / 16)
  let k := decide (g / 16 = 15 ∨ g / 16 = 48 ∨ (x ∈ [23, 27, 29, 30] ∧ (g % 16 = 7 ∨ g % 16 = 8)))
  let x := if g / 16 = 15 ∨ g / 16 = 48 then 28 else x
  let ys := if k && x != 28 then [7] else List.range 8
  match ys.find? (fun y => if k then encK rd (y * 32 + x) == g else decide (x < 32) && encD rd (y * 32 + x) == g) with
  | some y => (y * 32 + x, k, true)
  | none => (0, k, false)

/-- A received frame: its characters, those with a code error, whether it begins with K28.5, and the running disparity behind it. -/
structure Rx where
  chars : List Nat := []
  bad : List Nat := []
  sof : Bool := false
  rd : Bool := false
  deriving DecidableEq, Repr

/-- The receiver of a line (R282): K28.5 in any position but 0, any other control character, an invalid code group and a running-disparity error are code
errors. -/
def rxFrame (rd : Bool) (gs : List (BitVec 10)) : Rx :=
  let r := gs.foldl (fun (r : List Nat × List Nat × Nat × Bool × Bool) g =>
    let c := decGroup r.2.2.2.1 g.toNat
    let sof := c.2.2 && c.2.1 && c.1 == 0xBC && r.2.2.1 == 0
    (c.1 :: r.1, (if c.2.2 && (!c.2.1 || sof) then r.2.1 else r.2.2.1 :: r.2.1), r.2.2.1 + 1, rdGroup r.2.2.2.1 g.toNat, r.2.2.2.2 || sof)) ([], [], 0, rd, false)
  { chars := r.1.reverse, bad := r.2.1.reverse, sof := r.2.2.2.2, rd := r.2.2.2.1 }

/-- The code groups of a frame of characters, the first K28.5, and the running disparity behind it. -/
def txFrame (rd : Bool) (chars : List Nat) : List Nat × Bool :=
  let r := chars.foldl (fun (r : List Nat × Bool × Bool) b =>
    let g := if r.2.2 then encK r.2.1 b else encD r.2.1 b
    (g :: r.1, rdGroup r.2.1 g, false)) ([], rd, true)
  (r.1.reverse, r.2.1)

/-- A frame filled up with D21.5 to `n` characters (R283). -/
def filled (n : Nat) (b : List Nat) : List Nat := b ++ List.replicate (n - b.length) 0xB5

end Sys2Proof.Machine
end

