-- ==== Sys2Proof/Machine/Lane.lean ====
section
/-!
DEFINITION. The Vufel Link lanes: upstream and downstream frames, management slots, lane states (09), emission verification
(05 R183 to R185) and protective-window cassettes (05 R186 to R190).
-/
namespace Sys2Proof.Machine

/-- The HD page of a head. -/
def hdPage (h : Nat) : Nat := 0x10000 + 0x1000 * h
/-- LANE_STAT.STATE (R305): 0 DISABLED, 1 TRAIN, 2 CAP, 3 UP, 4 LOST, 5 FAULT. -/
def Dev.laneSt (d : Dev) (h : Nat) : Nat := d.g (F.hd_LANE_STAT_STATE h)
/-- Normal frames run both ways (R305). -/
def Dev.laneOn (d : Dev) (h : Nat) : Bool := d.laneSt h == 2 || d.laneSt h == 3

/-! ### Messages (R296 to R302) -/

/-- The order in which waiting messages go (R301). -/
def Msg.rank (m : Msg) : Nat := if m.typ = 1 then 0 else if m.typ = 2 ∨ m.typ = 3 then 1 else 2

/-- A message is queued for a head. -/
def Dev.queueMsg (d : Dev) (h : Nat) (m : Msg) : Dev :=
  d.laneUpd h (fun l => { l with waiting := l.waiting.filter (fun q => decide (q.rank ≤ m.rank)) ++ [m] ++ l.waiting.filter (fun q => decide (m.rank < q.rank)) })

/-- The characters of a slot, none when one of them has a code error (R284). -/
def slotChars : List (Option Byte) → Option (List Nat)
  | [] => some []
  | none :: _ => none
  | some b :: l => (slotChars l).map (b.toNat :: ·)

/-- The fields of a management slot (R296), none when its CRC fails (R298). -/
def slotOf (b : List Nat) : Option (Nat × Nat × Msg) :=
  if b.length = 70 ∧ crc16 (b.take 68) = nth b 68 + 256 * nth b 69 then
    some (nth b 0 / 16, nth b 0 % 16, ⟨nth b 1, nth b 3, (b.drop 4).take (min 64 (nth b 2))⟩)
  else none

/-- A slot's message is accepted when its SEQ is the next one expected (R298): the message and the state after. -/
def Dev.acceptMsg (d : Dev) (h : Nat) (slot : List (Option Byte)) : Option (Msg × Dev) :=
  if !d.laneOn h then none
  else match (slotChars slot).bind slotOf with
    | none => none
    | some (seq, _, m) =>
      if m.typ = 0 ∨ seq ≠ ((d.lane h).rxAck + 1) % 16 then none
      else some (m, d.laneUpd h (fun l => { l with rxAck := seq }))

/-- The HOST message of a head is reported delivered or failed (R302). -/
def Dev.msgDone (d : Dev) (h code : Nat) : Dev :=
  if d.g (F.hd_MSG_TX_STAT h) = 1 then (d.p (F.hd_MSG_TX_STAT h) code).raise (hdPage h) 8 else d

/-! ### Lane states (R305 to R309) -/

/-- The lane enters TRAIN. -/
def Dev.laneTrain (d : Dev) (h : Nat) : Dev :=
  (d.p (F.hd_LANE_STAT_STATE h) 1).laneUpd h (fun l =>
    { l with trainRun := 0, rtdSum := 0, since := d.time.frame, timeoutSeen := false, missing := 0, out := [], waiting := [], again := [], txSeq := 0,
             rxAck := 15, cap0 := [], cap1 := [], got := false })

/-- The lane leaves UP or CAP for good: a HOST message that waits fails (R302). -/
def Dev.laneDown (d : Dev) (h : Nat) : Dev :=
  -- a cassette write not confirmed before stays unconfirmed (R310)
  let d := d.hdUpd h (fun hd => { hd with cas := { hd.cas with failed := hd.cas.failed || !hd.cas.sent.isEmpty } })
  (d.msgDone h 3).laneUpd h (fun l => { l with out := [], waiting := [], again := [], got := false, missing := 0, since := d.time.frame })

/-- The lane is lost (R307, R299, R305): its head fails at the next boundary with LINK_LOST, its remaining work from the first frame whose upstream frame was
not received (06 R212). -/
def Dev.laneLost (d : Dev) (h cause : Nat) : Dev :=
  let l := d.lane h
  let t := (if l.missing ≠ 0 then l.missFrame else d.time.frame + b2n l.got) * frameT
  let d := d.laneDown h
  let d := ((d.p (F.hd_LANE_STAT_STATE h) 4).p (F.hd_LANE_STAT_LOSS_CAUSE h) cause).bump (F.hd_CNT_LOSS h)
  (d.raise (hdPage h) 1).failAsk h 4 d.time.frame t

/-- The lane enters FAULT (R305). -/
def Dev.laneFault (d : Dev) (h code : Nat) : Dev :=
  (((d.laneDown h).p (F.hd_LANE_STAT_STATE h) 5).p (F.hd_LANE_STAT_FAULT_CODE h) code).raise (hdPage h) 2

/-- A write of LANE_CTRL (R305, R311). -/
def Dev.laneCtrlWrite (d : Dev) (h : Nat) (v : Word) : Dev :=
  let a := hdPage h + 0x380
  let was := d.on (F.hd_LANE_CTRL_EN h)
  -- a refused write is discarded whole (02 R53)
  d.guarded a v (rowsAt .hd 0x380) fun d =>
  let d := d.plainWrite a v
  let en := d.on (F.hd_LANE_CTRL_EN h)
  let st := d.laneSt h
  let d :=
    if !en then (if st = 0 then d else (d.laneDown h).p (F.hd_LANE_STAT_STATE h) 0)
    else if st = 0 || (st == 5 && !was) then d.laneTrain h
    else d
  if Word.f v 1 1 = 1 && en then
    let st := d.laneSt h
    if st = 5 then d.laneTrain h
    else if was && (st == 1 || st == 2 || st == 3) then d.laneLost h 3
    else d
  else d

/-! ### Upstream frames (R292 to R295) -/

/-- A block of characters is valid (R284): its CRC matches and none of its characters has a code error. -/
def blockOk (chars : List Nat) (bad : List Nat) (a n : Nat) : Bool :=
  let b := (chars.drop a).take n
  decide (b.length = n ∧ crc16 b = nth chars (a + n) + 256 * nth chars (a + n + 1)) && !bad.any (fun i => decide ((if a = 1 then 0 else a) ≤ i ∧ i < a + n + 2))

/-- A little-endian number at a character. -/
def leAt (b : List Nat) (a n : Nat) : Nat := ofLE ((b.drop a).take n)

/-- The critical block of a valid upstream frame is taken over (R292). -/
def Dev.usTake (d : Dev) (h : Nat) (c : List Nat) : Dev :=
  let v := nth c 3
  let fl := nth c 4
  let d := d.laneUpd h (fun l =>
    { l with got := true, posOk := [bit v 0, bit v 1, bit v 2], curOk := [bit v 3, bit v 4, bit v 5], pdOk := bit v 6, gate := fl % 16,
             pos := [sx 32 (leAt c 5 4), sx 32 (leAt c 9 4), sx 32 (leAt c 13 4)], cur := [sx 16 (leAt c 17 2), sx 16 (leAt c 19 2), sx 16 (leAt c 21 2)],
             pdA := (List.range 10).map (fun i => leAt c (23 + 2 * i) 2), pdB := (List.range 10).map (fun i => leAt c (43 + 2 * i) 2) })
  let d := when (bit fl 4) (fun d => (d.bump (F.hd_CNT_DS_ERR h)).raise (hdPage h) 4) d
  let d := when (bit fl 5 && !d.on (F.hd_HEAD_STAT_HEAD_FAULT h)) (fun d => d.raise (hdPage h) 5) d
  d.p (F.hd_HEAD_STAT_HEAD_FAULT h) (b2n (bit fl 5))

/-- Is a received frame a valid upstream training frame with the right FRAME_NUM (R306). -/
def Dev.isTraining (d : Dev) (r : Rx) : Bool :=
  r.sof && blockOk r.chars r.bad 1 44 && decide ((nth r.chars 3 = 0x80 ∨ nth r.chars 3 = 0x81) ∧ leAt r.chars 1 2 = d.time.frame % 65536)

/-- An upstream frame in TRAIN (R306): a valid aligned training frame counts towards the 16, once in a frame. -/
def Dev.usTrain (d : Dev) (h rtd : Nat) (r : Rx) : Dev :=
  let ok := d.isTraining r && decide (nth r.chars 3 = 0x81)
  d.laneUpd h (fun l =>
    if !ok then { l with trainRun := 0, rtdSum := 0 }
    else if l.trained ∨ 16 ≤ l.trainRun then { l with trained := true }
    else { l with trained := true, trainRun := l.trainRun + 1, rtdSum := l.rtdSum + rtd })

/-- An upstream frame of this link frame (R292, R293, R295), with the round-trip delay measured on its start of frame. In the first 2 frames of CAP a training
frame is not counted as missing (R306). -/
def Dev.usFrame (d : Dev) (h : Nat) (r : Rx) (rtd : Nat) : Dev :=
  let c := r.chars
  let bad := r.bad
  let st := d.laneSt h
  let d := d.laneUpd h (fun l => { l with rdRx := r.rd })
  if st = 1 then (d.usTrain h rtd r).bump (F.hd_CNT_CODE_ERR h) bad.length
  else if st = 2 ∨ st = 3 then
    let d := d.bump (F.hd_CNT_CODE_ERR h) bad.length
    let d := when (decide (st = 2 ∧ d.time.frame < (d.lane h).since + 2) && d.isTraining r) (fun d => d.laneUpd h (fun l => { l with missed := true })) d
    let crit := r.sof && blockOk c bad 1 62 && decide (leAt c 1 2 = d.time.frame % 65536) && decide (d.time.cycle ≤ 240) && !(d.lane h).missed && !bit (nth c 3) 7
    let d := when crit (fun d => d.usTake h c) d
    when (blockOk c bad 135 14) (fun d =>
      ((d.p (F.hd_HEAD_STAT_STATE h) (nth c 135 % 4)).p (F.hd_HEAD_STAT_FAULT_CODE h) (nth c 136)).p (F.hd_HEAD_STAT_TEMP h) (leAt c 137 2)) d
  else d

/-- An upstream frame is missing (R295): counted once. The training frame with which the lane has just come into CAP is none (R306). -/
def Dev.usMissing (d : Dev) (h : Nat) : Dev :=
  let l := d.lane h
  if !d.laneOn h || l.got || l.missed || l.trained then d
  else (d.bump (F.hd_CNT_US_MISSING h)).laneUpd h (fun l => { l with missed := true, missing := l.missing + 1,
                                                                     missFrame := if l.missing = 0 then d.time.frame else l.missFrame })

/-- The account of a frame's upstream frame at its end (R37, R307): a frame that did not come is missing; a valid one ends a run. In TRAIN a frame without a
valid training frame breaks the 16 in a row (R306). -/
def Dev.usClose (d : Dev) (h : Nat) : Dev :=
  let d := d.usMissing h
  let cut := d.laneSt h == 1 && !(d.lane h).trained && decide ((d.lane h).trainRun < 16)
  when ((d.lane h).got || cut) (fun d => d.laneUpd h (fun l => if l.got then { l with missing := 0 } else { l with trainRun := 0, rtdSum := 0 })) d

/-! ### Downstream frames (R288 to R290) -/

/-- The message that the next slot carries: one sent again, else a new one while fewer than 4 are outstanding, else EMPTY (R298, R301). -/
def Dev.dsMsgStep (d : Dev) (h : Nat) : Dev :=
  let l := d.lane h
  let now_ := d.time.frame
  match l.again, l.waiting with
  | s :: rest, _ =>
    let upd (q : Sent) : Sent := if q.seq = s.seq then { q with sends := q.sends + 1, frame := now_ } else q
    (d.laneUpd h (fun l => { l with again := rest, out := l.out.map upd, dsSeq := s.seq, dsAck := l.rxAck, dsMsg := s.msg })).bump (F.hd_CNT_RESEND h)
  | [], m :: rest =>
    if l.out.length < 4 then
      d.laneUpd h (fun l => { l with waiting := rest, out := l.out ++ [⟨l.txSeq, m, 1, now_⟩], txSeq := (l.txSeq + 1) % 16, dsSeq := l.txSeq, dsAck := l.rxAck, dsMsg := m })
    else d.laneUpd h (fun l => { l with dsSeq := 0, dsAck := l.rxAck, dsMsg := {} })
  | [], [] => d.laneUpd h (fun l => { l with dsSeq := 0, dsAck := l.rxAck, dsMsg := {} })

/-- The characters of a lane's downstream frame as they leave (R283, R288, R296, R306); none in electrical idle. -/
def Lane.dsChars (l : Lane) : List Nat :=
  let le (n v : Nat) : List Nat := (leBytes n v).map (·.toNat)
  match l.dsKind with
  | .idle => []
  | .training =>
    let b := le 2 l.dsNum ++ [l.dsFlags] ++ List.replicate 41 0x4A
    filled 625 ([0xBC] ++ b ++ le 2 (crc16 b))
  | .normal =>
    let edge (i : Nat) : List Nat := match l.dsEdges[i]? with | some e => le 2 (b2n e.2 * 32768 + e.1) | none => [0, 0]
    let crit := le 2 l.dsNum ++ [l.dsFlags] ++ l.dsCmd.flatMap (fun c => le 2 (ux 16 c)) ++ le 2 l.dsPwr ++ [l.dsEdges.length] ++ (List.range 16).flatMap edge
    let pay := l.dsMsg.payload ++ List.replicate (64 - l.dsMsg.payload.length) 0
    let slot := [l.dsSeq * 16 + l.dsAck, l.dsMsg.typ, l.dsMsg.payload.length, l.dsMsg.index] ++ pay
    filled 625 ([0xBC] ++ crit ++ le 2 (crc16 crit) ++ slot ++ le 2 (crc16 slot))

/-- The code groups of a lane's downstream frame (R282), and the running disparity behind it; after an idle it begins negative (log 94). -/
def Lane.dsGroups (l : Lane) : List Nat × Bool := if l.dsKind = .idle then ([], false) else txFrame l.rdTx l.dsChars

/-- The downstream frame of frame `f + 1`, by the lane's state (R305): a training frame, or a normal one with the content computed in frame `f` for `f + 2`
(R288 to R290), or electrical idle. -/
def Dev.dsFrame (d : Dev) (h f : Nat) : Dev :=
  let rd := (d.lane h).dsGroups.2
  if d.laneSt h = 1 then
    d.laneUpd h (fun q => { q with rdTx := rd, dsKind := .training, dsNum := (f + 1) % 65536, dsFlags := 0x80, dsCmd := [0, 0, 0], dsPwr := 0, dsEdges := [] })
  else if !d.laneOn h then
    when (decide ((d.lane h).dsKind ≠ .idle)) (fun d =>
      d.laneUpd h (fun q => { q with rdTx := false, dsKind := .idle, dsFlags := 0, dsCmd := [0, 0, 0], dsPwr := 0, dsEdges := [] })) d
  else
    let up := d.laneSt h == 3
    let l := (d.hd h).list (f + 2)
    let slots := d.headSlots h
    let servo := (List.range 3).foldl (fun n a => if up && d.mode (nth slots a) != 0 then n + 2 ^ a else n) 0
    let en := up && l.gateEn && d.gateEn h
    let unit := d.g F.unit_UNIT_STAT_ACTIVE
    let cmd (a : Nat) : Int := if bit servo a then (d.slot (nth slots a)).c3 else 0
    let d := d.laneUpd h (fun q =>
      { q with rdTx := rd, dsKind := .normal, dsNum := (f + 1) % 65536, dsFlags := unit * 32 + b2n (en && l.level) * 16 + b2n en * 8 + servo, dsCmd := [cmd 0, cmd 1, cmd 2],
               dsPwr := if en then l.code else 0, dsEdges := if en then l.edges else [] })
    d.dsMsgStep h

/-! ### Emission verification (05 R183 to R185) -/

/-- The intervals of a list in which the laser is commanded on: time of the opening on edge since POR, first and last code. -/
def FList.onRuns (l : FList) : List (Int × Nat × Nat) :=
  let (runs, cur) := l.edges.foldl (fun (r : List (Int × Nat × Nat) × Option (Int × Nat)) e =>
    if e.2 then (r.1, some (5000 * (l.frame : Int) + e.1, e.1)) else match r.2 with | some (t, a) => (r.1 ++ [(t, a, e.1)], none) | none => r)
    ([], if l.level then some (l.since, 0) else none)
  match cur with
  | some (t, a) => runs ++ [(t, a, 5000)]
  | none => runs

/-- Is quarter `q` of a list counted (R183). -/
def FList.counted (l : FList) (q rise : Nat) : Bool :=
  l.onRuns.any (fun r => decide (r.2.1 ≤ 1250 * q ∧ 1250 * (q + 1) ≤ r.2.2 ∧ r.1 + rise ≤ 5000 * (l.frame : Int) + 1250 * q))

/-- The dropout span in progress ends at plan time `t` (R184): logged with cause DROPOUT, and queued unless the head fails with it. -/
def Dev.closeDrop (d : Dev) (h t : Nat) (queue : Bool) : Dev :=
  let hd := d.hd h
  match hd.darkAt with
  | some sp =>
    let d' := d.hdUpd h (fun hd => { hd with dark := 0, darkAt := none, dropOpen := false, dropQ := 0 })
    if !hd.dropOpen then d'
    else
      let s := d.mkSpan h 0x24 sp.t0 t
      when queue (fun d => d.queueSpan h s) (d'.raise firePage 0 (d.spanWords h 0xFF s))
  | none => d

/-- Does the dropout span in progress fail its head (R185). -/
def Dev.dropFails (d : Dev) (h : Nat) : Bool :=
  let lim := d.v (F.hd_DROP_CTRL_LIMIT h)
  (d.hd h).dropOpen && (decide (lim ≠ 0 ∧ lim ≤ d.g (F.hd_DROP_COUNT h)) || decide (d.v (F.hd_DROP_CTRL_FAIL_Q h) ≤ (d.hd h).dropQ))

/-- One counted quarter (R184). A span that fails the head (R185) does so even when light ends it in the same frame. -/
def Dev.quarter (d : Dev) (h t : Nat) (light : Bool) : Dev :=
  if light then (d.closeDrop h t true).hdUpd h (fun hd => { hd with dark := 0, darkAt := none })
  else
    let hd := d.hd h
    let n := hd.dark + 1
    let d := d.hdUpd h (fun hd => { hd with dark := n, darkAt := if hd.dark = 0 then some (d.mkSpan h 0x24 t t) else hd.darkAt, dropQ := n })
    let d := when (decide (n = d.v (F.hd_GATE_CTRL_PERIOD h)))
      (fun d => ((d.hdUpd h (fun hd => { hd with dropOpen := true })).flag (F.hd_FIRE_FLAGS_DROPOUT h)).bump (F.hd_DROP_COUNT h)) d
    when (d.dropFails h) (fun d => d.hdUpd h (fun hd => { hd with dropFail := some (hd.dropFail.getD (hd.darkAt.elim t (·.t0))) })) d

/-- The gate bits received in frame `f`, of frame `f − 1` (R183, R184); a span still open when the head's work of the layer has ended is
closed (06 R223). -/
def Dev.gateEval (d : Dev) (h f : Nat) : Dev :=
  let lane := d.lane h
  let l := (d.hd h).list (f - 1)
  let rise := d.v (F.hd_GATE_CTRL_RISE h)
  let d := if lane.got then
      (List.range 4).foldl (fun d q => if l.counted q rise then d.quarter h ((f - 1) * frameT + q * (frameT / 4)) (bit lane.gate q) else d) d
    else d
  let hd := d.hd h
  let last := (hd.segs.filter (fun g => decide (g.lit ≠ 0))).getLast?
  -- a failed head is dark from the time its cause gives
  let off := if d.on (F.hd_FAIL_FAILED h) then offTime (d.g (F.hd_FAIL_CAUSE h)) hd.failB else 0
  let fin (t : Nat) : Nat := if d.on (F.hd_FAIL_FAILED h) then min t off else t
  if hd.dropOpen && hd.p.done && !hd.segs.any (fun g => decide (g.lit ≠ 0 ∧ (f - 1) * frameT < fin g.t1)) then
    match last with | some g => d.closeDrop h (fin g.t1) true | none => d.closeDrop h ((f - 1) * frameT) true
  else d

/-! ### Cassettes (05 R186 to R190) -/

/-- The cassette key's 32 bytes (R187). -/
def Dev.casKeyBytes (d : Dev) : List Nat := d.hand.casKey.flatMap (fun w => (leBytes 4 w).map (·.toNat))

/-- A write of a word of the cassette key: in IDLE only (R187). -/
def Dev.casKeyWrite (d : Dev) (k : Nat) (v : Word) : Dev :=
  if !d.isSt .idle then d.errAt 0x82 (firePage + 0x40 + 4 * k)
  else
    let d := { d with hand := { d.hand with casKey := d.hand.casKey.set k v.toNat, casLoaded := d.hand.casLoaded ||| 2 ^ k } }
    let kcv := hmac d.casKeyBytes (List.replicate 32 0)
    let full := decide (d.hand.casLoaded = 255)
    -- KCV shows the first two bytes as a little-endian number (00 R9; log 21)
    (d.p F.fire_CAS_KEY_STAT_LOADED (b2n full)).p F.fire_CAS_KEY_STAT_KCV (if full then nth kcv 0 + 256 * nth kcv 1 else 0)

/-- The device reads a head's cassette record (R188). -/
def Dev.casRead (d : Dev) (h : Nat) : Dev :=
  if d.laneSt h = 3 then (d.p (F.hd_CAS_STAT_STATE h) 1).queueMsg h ⟨2, 0, []⟩ else d

/-- CAS_USED and the rest as the registers show them (R196). -/
def Dev.casShow (d : Dev) (h : Nat) : Dev :=
  let c := (d.hd h).cas
  let d := d.p2 (F.hd_CAS_SERIAL_LO h) (F.hd_CAS_SERIAL_HI h) c.serial
  let d := d.p2 (F.hd_CAS_USED_LO h) (F.hd_CAS_USED_HI h) (c.used + c.energy / 2000000000)
  (d.p2 (F.hd_CAS_LIMIT_LO h) (F.hd_CAS_LIMIT_HI h) c.limit).p (F.hd_CAS_SEQ h) c.seq

/-- The first 32 bytes of a usage record (R186). -/
def casBody (seq serial limit used : Nat) : List Nat :=
  ([0x57, 0x43, 1, 0].map (BitVec.ofNat 8) ++ leBytes 4 seq ++ leBytes 8 serial ++ leBytes 8 limit ++ leBytes 8 used).map (·.toNat)

/-- The record is advanced and sent (R189). While the lane is not UP, a read is under way or the last write is outstanding, the advance waits. -/
def Dev.casWrite (d : Dev) (h : Nat) : Dev :=
  let c := (d.hd h).cas
  let st := d.g (F.hd_CAS_STAT_STATE h)
  if st ≠ 1 ∧ st ≠ 2 ∧ st ≠ 5 then d
  else if d.laneSt h ≠ 3 ∨ !c.sent.isEmpty ∨ st = 1 then d.hdUpd h (fun hd => { hd with cas := { hd.cas with due := true } })
  else
    let body := casBody ((c.seq + 1) % 2 ^ 32) c.serial c.limit (c.used + c.energy / 2000000000)
    let rec_ := body ++ hmac d.casKeyBytes body
    (d.hdUpd h (fun hd => { hd with cas := { hd.cas with sent := rec_, sentFrame := d.time.frame, due := false } })).queueMsg h ⟨3, 0, rec_⟩

/-- An advance that had to wait is sent. -/
def Dev.casDue (d : Dev) (h : Nat) : Dev := when (d.hd h).cas.due (fun d => d.casWrite h) d

/-- The last record accepted of a cassette since power-up, whichever head held it (R188). -/
def Dev.casKeep (d : Dev) (serial used seq : Nat) : Dev :=
  { d with hand := { d.hand with casHist := (serial, used, seq) :: d.hand.casHist.filter (fun e => e.1 != serial) } }

/-- A record read from the cassette (R188). -/
def Dev.casJudge (d : Dev) (h : Nat) (b : List Nat) : Dev :=
  let set (d : Dev) (n : Nat) : Dev := d.p (F.hd_CAS_STAT_STATE h) n
  if b = [] then set d 0
  else if d.hand.casLoaded ≠ 255 then set d 6
  else
    let serial := leAt b 8 8
    let used := leAt b 24 8
    let seq := leAt b 4 4
    let okTag := decide (b.length = 64 ∧ leAt b 0 2 = 0x4357 ∧ nth b 2 = 1) && (hmac d.casKeyBytes (b.take 32) == b.drop 32)
    let c := (d.hd h).cas
    let old := d.hand.casHist.find? (fun e => e.1 == serial)
    if !okTag then (set d 3).raise firePage 10
    else if old.any (fun e => decide (used < e.2.1 ∨ seq < e.2.2)) then (set d 4).raise firePage 10
    else
      let limit := leAt b 16 8
      -- energy that a write not confirmed has brought into the record is written (R189)
      let energy := if serial = c.serial then c.energy - (used - c.used) * 2000000000 else 0
      let d := (d.hdUpd h fun hd =>
        { hd with cas := { hd.cas with serial := serial, limit := limit, used := used, seq := seq, energy := energy, failed := if serial = c.serial then c.failed else false,
                                       exhausted := decide (limit ≤ used) } }).casKeep serial used seq
      ((set d (if used < limit then 2 else 5)).casShow h).casDue h

/-- A cassette record arrives (R188, R189): it confirms a write when it is identical to the record sent and comes in time, else it is judged as one read. -/
def Dev.casRecord (d : Dev) (h : Nat) (b : List Nat) : Dev :=
  let c := (d.hd h).cas
  if c.sent ≠ [] ∧ b = c.sent ∧ d.time.frame ≤ c.sentFrame + d.g F.fire_CAS_TIMEOUT then
    let used := leAt b 24 8
    let seq := leAt b 4 4
    let d := (d.hdUpd h fun hd =>
      { hd with cas := { hd.cas with sent := [], failed := false, seq := seq, used := used, energy := c.energy - (used - c.used) * 2000000000 } }).casKeep c.serial used seq
    ((d.p (F.hd_CAS_STAT_WRITE_PENDING h) 0).casShow h).casDue h
  else d.casJudge h b

/-! ### The capability block (R303, R304) -/

/-- Is a capability block acceptable (R304). -/
def capOk (b : List Nat) : Bool :=
  let feat := leAt b 0x24 2
  decide (b.length = 128 ∧ leAt b 0 2 = 0x4356 ∧ nth b 2 = 1 ∧ nth b 3 = 0x80 ∧ leAt b 0x7C 4 = crc32 (b.take 0x7C))
    && decide (leAt b 0x10 3 ≠ 0 ∧ nth b 0x13 = 0 ∧ 8 ≤ nth b 0x16 ∧ nth b 0x16 ≤ 40 ∧ nth b 0x17 ≤ 20)
    && decide (feat < 64 ∧ leAt b 0x26 2 = 0) && ((b.drop 0x2C).take 80).all (· == 0)
    && [0, 1, 2, 3, 5].all (fun i => bit feat i)

/-- SERIAL_MISMATCH of a head, at an acceptance of its capability block (16 R466). -/
def Dev.serialCheck (d : Dev) (h serial : Nat) : Dev :=
  let differs := [1, 2, 3, 4].any (fun t => let s := Tab.at 0 d.cal.serial (h * 8 + t); decide (s ≠ 0 ∧ s ≠ serial + 1))
  if differs ∧ Tab.at 0 d.cal.accepted h ≠ serial + 1 then (d.p (F.cal_CAL_STATh_SERIAL_MISMATCH h) 1).raise 0x7000 4
  else d.p (F.cal_CAL_STATh_SERIAL_MISMATCH h) 0

/-- A complete capability block is accepted or refused (R304, R305, R309; 05 R188). -/
def Dev.capTake (d : Dev) (h : Nat) (b : List Nat) : Dev :=
  if !capOk b then d.laneFault h 2
  else
    let serial := leAt b 8 8
    let d := (d.p (F.hd_FIRE_MAX_HZ h) (leAt b 0x10 3)).p (F.hd_MIN_OFF h) (leAt b 0x14 2)
    let d := (d.p (F.hd_CAP_ID_VENDOR h) (leAt b 4 2)).p (F.hd_CAP_ID_MODEL h) (leAt b 6 2)
    let d := d.p2 (F.hd_CAP_SERIAL_LO h) (F.hd_CAP_SERIAL_HI h) serial
    let d := ((d.p (F.hd_CAP_INFO_TURN h) (nth b 0x16)).p (F.hd_CAP_INFO_SAMPLE_OFS h) (nth b 0x17)).p (F.hd_CAP_INFO_FEATURES h) (leAt b 0x24 2)
    let new := (d.lane h).serial.any (fun s => decide (s ≠ serial))
    let d := (d.p (F.hd_LANE_STAT_STATE h) 3).laneUpd h (fun l => { l with serial := some serial, changed := l.changed || new, since := d.time.frame })
    let d := d.raise (hdPage h) 0
    let d := when new (fun d => d.raise (hdPage h) 6) d
    (d.serialCheck h serial).casRead h

/-! ### Meanings -/

/-- US_FRAME_RX (R282, R286, R292, R293): the code groups of an upstream frame, that of position 0 and those behind it, and the round-trip delay of its start of frame. -/
def execUsFrameRx (head : Fin 48) (start : BitVec 10) (groups : List (BitVec 10)) (rtd : Nat) (s : State) : Host.Outcome State Fault Refusal :=
  onDev (fun d => d.usFrame head.val (rxFrame (d.lane head.val).rdRx (start :: groups)) rtd) s
/-- US_FRAME_MISSING (R295): cycle 240 has passed without a valid critical block. -/
def execUsFrameMissing (head : Fin 48) (s : State) : Host.Outcome State Fault Refusal :=
  onDev (fun d => when (decide (240 ≤ d.time.cycle)) (fun d => d.usMissing head.val) d) s

/-- ACK_RX (R298): an ACK acknowledges every outstanding message up to that SEQ. -/
def execAckRx (head : Fin 48) (slot : List (Option Byte)) (s : State) : Host.Outcome State Fault Refusal :=
  onDev (fun d =>
    let h := head.val
    if !d.laneOn h then d
    else match (slotChars slot).bind slotOf with
      | none => d
      | some (_, ack, _) =>
        let l := d.lane h
        if !l.out.any (fun q => q.seq == ack) then d
        else
          let n := l.out.findIdx (fun q => q.seq == ack) + 1
          let gone := l.out.take n
          let d := d.laneUpd h (fun l => { l with out := l.out.drop n, again := l.again.filter (fun q => !gone.any (fun g => g.seq == q.seq)) })
          when (gone.any (fun q => q.msg.typ == 0x10)) (fun d => d.msgDone h 2) d) s

/-- CAP_DATA_RX (R304): a fragment, and with both the whole block. -/
def execCapDataRx (head : Fin 48) (slot : List (Option Byte)) (s : State) : Host.Outcome State Fault Refusal :=
  onDev (fun d =>
    let h := head.val
    match d.acceptMsg h slot with
    | none => d
    | some (m, d') =>
      if m.typ ≠ 0x81 then d
      else if d.laneSt h ≠ 2 ∨ 2 ≤ m.index ∨ m.payload.length ≠ 64 then d'
      else
        let d := d'.laneUpd h (fun l => if m.index = 0 then { l with cap0 := m.payload } else { l with cap1 := m.payload })
        let l := d.lane h
        if l.cap0.length = 64 ∧ l.cap1.length = 64 then d.capTake h (l.cap0 ++ l.cap1) else d) s

/-- CAS_RECORD_RX (05 R188, R189). -/
def execCasRecordRx (head : Fin 48) (slot : List (Option Byte)) (s : State) : Host.Outcome State Fault Refusal :=
  onDev (fun d => match d.acceptMsg head.val slot with
    | none => d
    | some (m, d') => if m.typ = 0x82 then d'.casRecord head.val m.payload else d) s

/-- CAS_CHANGE_RX (R300, 05 R188). -/
def execCasChangeRx (head : Fin 48) (slot : List (Option Byte)) (s : State) : Host.Outcome State Fault Refusal :=
  onDev (fun d => match d.acceptMsg head.val slot with
    | none => d
    | some (m, d') => if m.typ = 0x83 then d'.casRead head.val else d) s

/-- HOST_MSG_RX (R302). -/
def execHostMsgRx (head : Fin 48) (slot : List (Option Byte)) (s : State) : Host.Outcome State Fault Refusal :=
  onDev (fun d =>
    let h := head.val
    match d.acceptMsg h slot with
    | none => d
    | some (m, d') =>
      if m.typ ≠ 0x90 then d
      else if d'.on (F.hd_MSG_RX_STAT_FULL h) then d'.bump (F.hd_MSG_RX_STAT_LOST h)
      else
        let pay := m.payload ++ List.replicate (64 - m.payload.length) 0
        let d := forN 16 (fun i d => d.p (F.hd_MSG_RX h i) (leAt pay (4 * i) 4)) d'
        ((d.p (F.hd_MSG_RX_STAT_FULL h) 1).p (F.hd_MSG_RX_STAT_LEN h) m.payload.length).raise (hdPage h) 7) s

/-- UNKNOWN_MSG_RX (R297): acknowledged, discarded and counted. -/
def execUnknownMsgRx (head : Fin 48) (slot : List (Option Byte)) (s : State) : Host.Outcome State Fault Refusal :=
  onDev (fun d => match d.acceptMsg head.val slot with
    | none => d
    | some (m, d') => if m.typ ∈ [0x81, 0x82, 0x83, 0x90] then d else d'.bump (F.hd_CNT_MSG_UNKNOWN head.val)) s

/-- MGMT_RETRY (R298, R299): the oldest outstanding message has waited RETRY_TMO frames since it was last sent. -/
def execMgmtRetry (head : Fin 48) (s : State) : Host.Outcome State Fault Refusal :=
  onDev (fun d =>
    let h := head.val
    let l := d.lane h
    match l.out with
    | [] => d
    | q :: _ =>
      when (d.laneOn h && l.again.isEmpty && decide (q.frame + d.g (F.hd_LANE_CTRL_RETRY_TMO h) ≤ d.time.frame)) (fun d =>
        if d.g (F.hd_LANE_CTRL_RETRY_MAX h) ≤ q.sends then d.laneLost h 2 else d.laneUpd h (fun l => { l with again := l.out })) d) s

/-- MSG_TX_GO (R302, R311): queues the message; discarded and counted while one is pending. A lane that is not UP fails it (log 22). -/
def Dev.msgTxGo (d : Dev) (h : Nat) : Dev :=
  if d.g (F.hd_MSG_TX_STAT h) = 1 then d.errAt 0x82 (hdPage h + 0x444)
  else
    let bytes := (List.range 16).flatMap (fun i => (leBytes 4 (d.g (F.hd_MSG_TX h i))).map (·.toNat))
    let d := d.p (F.hd_MSG_TX_STAT h) 1
    if d.laneSt h ≠ 3 then d.msgDone h 3 else d.queueMsg h ⟨0x10, 0, bytes.take (min 64 (d.g (F.hd_MSG_TX_LEN h)))⟩
/-- MSG_TX_GO (R302). -/
def execMsgTxGo (head : Fin 48) (_val : Word) (s : State) : Host.Outcome State Fault Refusal :=
  hosted (F.hd_MSG_TX_GO head.val).addr (onDev (fun d => d.msgTxGo head.val)) s
/-- MSG_RX_FREE (R302). -/
def Dev.msgRxFree (d : Dev) (h : Nat) : Dev := d.p (F.hd_MSG_RX_STAT_FULL h) 0
/-- MSG_RX_FREE (R302). -/
def execMsgRxFree (head : Fin 48) (_val : Word) (s : State) : Host.Outcome State Fault Refusal :=
  hosted (F.hd_MSG_RX_FREE head.val).addr (onDev (fun d => d.msgRxFree head.val)) s

/-- LANE_EN (R305): a write of LANE_CTRL. -/
def execLaneEn (head : Fin 48) (val : Word) (s : State) : Host.Outcome State Fault Refusal :=
  hosted (F.hd_LANE_CTRL_EN head.val).addr (onDev (fun d => d.laneCtrlWrite head.val val)) s
/-- RETRAIN (R305): a write of LANE_CTRL. -/
def execRetrain (head : Fin 48) (val : Word) (s : State) : Host.Outcome State Fault Refusal :=
  hosted (F.hd_LANE_CTRL_EN head.val).addr (onDev (fun d => d.laneCtrlWrite head.val val)) s

/-- TRAINING_DONE (R306, R287): RTD is the mean of the 16 frames, rounded to 2 ns; beyond 180 ns the lane faults. -/
def execTrainingDone (head : Fin 48) (s : State) : Host.Outcome State Fault Refusal :=
  onDev (fun d =>
    let h := head.val
    let l := d.lane h
    when (decide (d.laneSt h = 1 ∧ l.trainRun = 16)) (fun d =>
      let rtd := (rdiv l.rtdSum 32).toNat * 2
      let d := d.p (F.hd_RTD h) rtd
      if 180 < rtd then d.laneFault h 1
      else
        let d := (d.p (F.hd_LANE_STAT_STATE h) 2).laneUpd h (fun l =>
          { l with since := d.time.frame, missing := 0, txSeq := 0, rxAck := 15, out := [], again := [], waiting := [], cap0 := [], cap1 := [] })
        (d.queueMsg h ⟨1, 0, []⟩).queueMsg h ⟨1, 1, []⟩) d) s

/-- TRAIN_TIMEOUT (R306): once. -/
def execTrainTimeout (head : Fin 48) (s : State) : Host.Outcome State Fault Refusal :=
  onDev (fun d =>
    let h := head.val
    let l := d.lane h
    when (decide (d.laneSt h = 1 ∧ l.since + 40000 ≤ d.time.frame) && !l.timeoutSeen)
      (fun d => (d.laneUpd h (fun l => { l with timeoutSeen := true })).raise (hdPage h) 3) d) s

/-- CAP_TIMEOUT (R305): no complete block in 800 frames. -/
def execCapTimeout (head : Fin 48) (s : State) : Host.Outcome State Fault Refusal :=
  onDev (fun d => when (decide (d.laneSt head.val = 2 ∧ (d.lane head.val).since + 800 ≤ d.time.frame)) (fun d => d.laneFault head.val 3) d) s

/-- LANE_LOST (R307). -/
def execLaneLost (head : Fin 48) (s : State) : Host.Outcome State Fault Refusal :=
  onDev (fun d =>
    let h := head.val
    when (d.laneOn h && decide (d.g (F.hd_LANE_CTRL_LOSS_FRAMES h) ≤ (d.lane h).missing ∧ (d.lane h).missing ≠ 0)) (fun d => d.laneLost h 1) d) s

/-- LOST_IDLE_END (R305): after 40 idle frames. -/
def execLostIdleEnd (head : Fin 48) (s : State) : Host.Outcome State Fault Refusal :=
  onDev (fun d => when (decide (d.laneSt head.val = 4 ∧ (d.lane head.val).since + 40 ≤ d.time.frame)) (fun d => d.laneTrain head.val) d) s

/-- LINK_ACCEPT (R309): with the key, a changed head is accepted. -/
def Dev.linkAccept (d : Dev) (h : Nat) (v : Word) : Dev :=
  if Word.f v 15 0 = 0x4843 then d.laneUpd h (fun l => { l with changed := false }) else d
/-- LINK_ACCEPT (R309). -/
def execLinkAccept (head : Fin 48) (val : Word) (s : State) : Host.Outcome State Fault Refusal :=
  hosted (F.hd_LINK_ACCEPT head.val).addr (onDev (fun d => d.linkAccept head.val val)) s

/-- DROP_FAIL (05 R185): the head fails at the next boundary, its work from the start of the span. -/
def execDropFail (head : Fin 48) (s : State) : Host.Outcome State Fault Refusal :=
  onDev (fun d =>
    let h := head.val
    let hd := d.hd h
    when (!d.on (F.hd_FAIL_FAILED h) && (hd.dropFail.isSome || d.dropFails h)) (fun d =>
      let t := hd.dropFail.getD (hd.darkAt.elim (d.time.frame * frameT) (·.t0))
      let d := (d.closeDrop h ((d.time.frame - 1) * frameT) false).raise firePage 1
      -- a span that light has ended meanwhile is part of the remaining work
      let own (e : Nat × Span) : Bool := e.1 == h && e.2.cause == 0x24 && decide (t ≤ e.2.t0)
      let d := { d with hand := { d.hand with spans := d.hand.spans.filter (fun e => !own e) } }
      let d := (d.blankNext h).hdUpd h (fun hd => { hd with dropFail := none })
      d.failAsk h 5 (d.time.frame - 1) t) d) s

/-- CAS_KEY_WRITE (05 R187). -/
def execCasKeyWrite (word : Fin 8) (val : Word) (s : State) : Host.Outcome State Fault Refusal :=
  hosted (F.fire_CAS_KEY word.val).addr (onDev (fun d => d.casKeyWrite word.val val)) s
/-- CAS_REREAD (05 R188). -/
def execCasReread (head : Fin 48) (_val : Word) (s : State) : Host.Outcome State Fault Refusal :=
  hosted (F.hd_CAS_REREAD head.val).addr (onDev (fun d => d.casRead head.val)) s

/-- CAS_STEP_REACHED (05 R189): the energy not yet written reaches CAS_STEP mJ. -/
def execCasStepReached (head : Fin 48) (s : State) : Host.Outcome State Fault Refusal :=
  onDev (fun d => when (decide (d.g F.fire_CAS_STEP * 2000000000 ≤ (d.hd head.val).cas.energy) && !(d.hd head.val).cas.failed && (d.hd head.val).cas.sent.isEmpty) (fun d => d.casWrite head.val) d) s

/-- CAS_WRITE_FAIL (05 R189): a write not confirmed within CAS_TIMEOUT frames. An advance that had to wait for it is sent. -/
def execCasWriteFail (head : Fin 48) (s : State) : Host.Outcome State Fault Refusal :=
  onDev (fun d =>
    let h := head.val
    let c := (d.hd h).cas
    when (!c.sent.isEmpty && decide (c.sentFrame + d.g F.fire_CAS_TIMEOUT ≤ d.time.frame)) (fun d =>
      (((d.hdUpd h (fun hd => { hd with cas := { hd.cas with sent := [], failed := true } })).p (F.hd_CAS_STAT_WRITE_PENDING h) 1).raise firePage 12).casDue h) d) s

/-- The vector boundary at which a head ends its work when its cassette is exhausted (R190): the end of a vector that another would continue with the laser
on, or else a remembered laser-off one. -/
def Dev.lastVector (d : Dev) (h : Nat) : Option (Seg ⊕ PState) :=
  let hd := d.hd h
  let f := d.time.frame
  let goes (g : Seg) : Bool := hd.segs.any (fun q => q.cont && decide (q.t0 = g.t1)) || decide (g.t1 = hd.p.pt ∧ hd.p.pv ≠ 0)
  let j := hd.segs.find? (fun g => decide (g.lit ≠ 0 ∧ (f + 3) * frameT ≤ g.t1) && goes g)
  let c := hd.cps.find? (fun cp => decide ((f + 2) * frameT ≤ cp.pt))
  match j, c with
  | some g, some cp => some (if cp.pt ≤ g.t1 then .inr cp else .inl g)
  | some g, none => some (.inl g)
  | none, some cp => some (.inr cp)
  | none, none => none

/-- The plan of a head ends with the vector of a lit piece (R190): the laser goes off there and a run-out follows. -/
def Dev.endWith (d : Dev) (h : Nat) (g : Seg) : Dev :=
  (d.returnGrants h g.t1).hdUpd h (fun hd =>
    let hd := d.splitHead h hd g g.who g.t1
    if g.who.item.isSome then hd
    else { hd with p := { hd.p with next := g.who.idx + 1, rx := 256 * g.who.vr.x, ry := 256 * g.who.vr.y, rf := focus g.who.vr g.who.cw, motion := g.who.ctx,
                                    prevMark := true, broken := true } })

/-- CAS_EXHAUSTED (05 R190): the vector in execution is completed, the head fails at the next vector boundary, the final record is written. -/
def execCasExhausted (head : Fin 48) (s : State) : Host.Outcome State Fault Refusal :=
  onDev (fun d =>
    let h := head.val
    let c := (d.hd h).cas
    when (decide (d.g (F.hd_CAS_STAT_STATE h) = 2 ∧ c.limit * 2000000000 ≤ c.used * 2000000000 + c.energy) && !c.exhausted) (fun d =>
      let d := ((d.p (F.hd_CAS_STAT_STATE h) 5).hdUpd h (fun hd => { hd with cas := { hd.cas with exhausted := true } })).raise firePage 11
      let d := d.casWrite h
      let hd := d.hd h
      if d.on (F.hd_FAIL_FAILED h) || !hd.placed then d
      else match d.lastVector h with
        | some (.inl g) => (d.endWith h g).failAsk h 6 (g.t1 / frameT) g.t1
        | some (.inr cp) => ((d.returnGrants h cp.pt).cutPlan h cp).failAsk h 6 (cp.pt / frameT) cp.pt
        | none => d.failAsk h 6 (hd.p.pt / frameT) hd.p.pt) d) s

end Sys2Proof.Machine
end

