-- ==== Sys2Proof/Machine/Axes.lean ====
section
/-!
DEFINITION. Auxiliary axes, bridge ports and homing (10): the profile generator, currents, limits, stall detection, and the commands of the
AX and BP pages. AUX_TICK at boundary 8(k + 1) computes tick k and forms downstream frame k + 1.
-/
namespace Sys2Proof.Machine

/-- The AX page of an axis. -/
def axPage (n : Nat) : Nat := 0xA0000 + n * 0x1000
/-- The BP page of a port. -/
def bpPage (n : Nat) : Nat := 0xB0000 + n * 0x1000
/-- An axis's hidden state. -/
def Dev.ax (d : Dev) (n : Nat) : Axis := Tab.at {} d.axes n
/-- Change it. -/
def Dev.axUpd (d : Dev) (n : Nat) (f : Axis → Axis) : Dev := { d with axes := Tab.upd {} d.axes n f }
/-- A port's hidden state. -/
def Dev.bpSt (d : Dev) (n : Nat) : BpSt := Tab.at {} d.bps n
/-- Change it. -/
def Dev.bpUpd (d : Dev) (n : Nat) (f : BpSt → BpSt) : Dev := { d with bps := Tab.upd {} d.bps n f }
/-- AX_STAT.STATE (R337). -/
def Dev.axState (d : Dev) (n : Nat) : Nat := d.g (F.ax_AX_STAT_STATE n)
/-- Does a BP page show its port UP. -/
def Dev.bpUp (d : Dev) (n : Nat) : Bool := d.g (F.bp_BP_STAT_STATE n) == 2

/-! ### Profiles (R322, R323): times in 2^−16 tick, lengths in 2^−64 nm -/

/-- One nanometre. -/
def nmU : Int := 2 ^ 64
/-- µm/s as length per tick of 20 µs; µm/s² and mm/s³ likewise. -/
def vU (v : Int) : Int := rdiv (v * 2 ^ 64) 50
def aU (a : Nat) : Int := rdiv ((a : Int) * 4 * 2 ^ 64) (10 ^ 7)
def jU (j : Nat) : Int := rdiv ((j : Int) * 8 * 2 ^ 64) (10 ^ 9)

/-- Constant jerk for a time. -/
def Mot.run (m : Mot) (j : Int) (t : Nat) : Mot :=
  let t : Int := t
  { p := m.p + rdiv (m.v * t) (2 ^ 16) + rdiv (m.a * t * t) (2 ^ 33) + rdiv (j * t * t * t) (6 * 2 ^ 48),
    v := m.v + rdiv (m.a * t) (2 ^ 16) + rdiv (j * t * t) (2 ^ 33), a := m.a + rdiv (j * t) (2 ^ 16) }

/-- A quotient as a time. -/
def durOf (x y : Int) : Nat := if y ≤ 0 then 0 else (rdiv (x * 2 ^ 16) y).toNat

/-- The time-optimal change from (v, a) to (v1, 0) within an acceleration and a jerk, as phases of jerk and time. -/
def phases (v a v1 A J : Int) : List (Int × Nat) :=
  if A ≤ 0 ∨ J ≤ 0 then []
  else
    let vz := v + rdiv (a * absI a) (2 * J)
    let s := sgn (v1 - vz)
    if s = 0 then [(-(sgn a) * J, durOf (absI a) J)]
    else
      let b := s * a
      if A < b then [(-(s * J), durOf (b - A) J), (0, durOf (s * (v1 - vz)) A), (-(s * J), durOf A J)]
      else
        let dv := s * (v1 - v)
        let top : Int := isqrt (J * dv + rdiv (b * b) 2).toNat
        if top ≤ A then [(s * J, durOf (top - b) J), (-(s * J), durOf top J)]
        else [(s * J, durOf (A - b) J), (0, durOf (dv - rdiv (2 * A * A - b * b) (2 * J)) A), (-(s * J), durOf A J)]

/-- Follow phases for a time; after their end the speed is `v1`. -/
def follow (v1 : Int) : List (Int × Nat) → Nat → Mot → Mot
  | [], t, m => { p := m.p + rdiv (v1 * (t : Int)) (2 ^ 16), v := v1, a := 0 }
  | (j, k) :: l, t, m => if t < k then m.run j t else follow v1 l (t - k) (m.run j k)

/-- How long phases last. -/
def total (l : List (Int × Nat)) : Nat := l.foldl (fun n e => n + e.2) 0

/-- Where the motion comes to rest when it stops at once, and how long that takes. -/
def Mot.rest (m : Mot) (A J : Int) : Int × Nat :=
  let l := phases m.v m.a 0 A J
  ((follow 0 l (total l) m).p, total l)

/-- The greatest of `n` bits' worth of times at which `ok` still holds, from `lo` on. -/
def lastOk (ok : Nat → Bool) : Nat → Nat → Nat
  | 0, lo => lo
  | n + 1, lo => lastOk ok n (if ok (lo + 2 ^ n) then lo + 2 ^ n else lo)

/-- One tick of the time-optimal jerk-limited motion that ends at `target` at rest (R322): full effort towards the cruise speed as long as
an immediate stop does not overshoot, then the stop. Rounding is the model's (log 26). -/
def Mot.toward (m : Mot) (target V A J : Int) : Mot :=
  let stop (m : Mot) (used : Nat) : Mot :=
    let l := phases m.v m.a 0 A J
    if total l + used ≤ 65536 then ⟨target, 0, 0⟩ else follow 0 l (65536 - used) m
  let s := sgn (target - (m.rest A J).1)
  if s = 0 then stop m 0
  else
    let push := phases m.v m.a (s * V) A J
    let at_ (t : Nat) : Mot := follow (s * V) push t m
    let ok (t : Nat) : Bool := decide (0 ≤ s * (target - ((at_ t).rest A J).1))
    if ok 65536 then at_ 65536
    else let t := lastOk ok 16 0
         stop (at_ t) t

/-- The position rounded to 2^−32 nm (R322). -/
def Mot.grid (m : Mot) : Mot := { m with p := rdiv m.p (2 ^ 32) * 2 ^ 32 }

/-- One tick of a plan. With stop limits of 0 a ramp cannot change the speed (log 27). -/
def Plan.tick (p : Plan) (m : Mot) : Mot :=
  match p with
  | .rest => { m with v := 0, a := 0 }
  | .move t v a j => (m.toward t (vU v) (aU a) (jU j)).grid
  | .seek v a j => (follow (vU v) (phases m.v m.a (vU v) (aU a) (jU j)) 65536 m).grid
  | .stop a j => if a = 0 ∨ j = 0 then { m with p := m.p + m.v, a := 0 }.grid
                 else (follow 0 (phases m.v m.a 0 (aU a) (jU j)) 65536 m).grid

/-- At rest. -/
def Mot.still (m : Mot) : Bool := m.v == 0 && m.a == 0

/-! ### Angles and currents (R319, R320, R329) -/

/-- π times 2^64. -/
def piQ : Int := 57952155664616982739
/-- The cosine of an angle in radians times 2^64, by its series. -/
def cosSeries : Nat → Int → Int → Int → Int → Int
  | 0, _, _, _, acc => acc
  | n + 1, k, x2, t, acc =>
    let t := -(rdiv (t * x2) (2 ^ 64 * ((2 * k + 1) * (2 * k + 2))))
    cosSeries n (k + 1) x2 t (acc + t)
/-- cos(2π n / 1024) times 2^64. -/
def cosQ (n : Nat) : Int :=
  let n := n % 1024
  let n := if 512 < n then 1024 - n else n
  let q (n : Nat) : Int := let x := rdiv ((n : Int) * piQ) 512; cosSeries 14 0 (rdiv (x * x) (2 ^ 64)) (2 ^ 64) (2 ^ 64)
  if n ≤ 256 then q n else -(q (512 - n))
/-- sin(2π n / 1024) times 2^64. -/
def sinQ (n : Nat) : Int := cosQ (n + 768)

/-- The commanded electrical angle at a position (R319). With STEP_NM = 0 the spec states none: a free value (log 69). -/
def Dev.axAngle (d : Dev) (n : Nat) (p : Int) : Nat × Dev :=
  let step : Int := d.v (F.ax_STEP_NM n)
  if step = 0 then let (x, d) := d.draw; (x % 1024, d)
  else
    let t := ux 10 (rdiv (p * 2 ^ 24) (step * nmU))
    (if d.v (F.ax_AX_CFG_DIR_INV n) = 1 then (1024 - t) % 1024 else t, d)

/-- The angle in 1/1024 cycle whose direction is nearest to (x, y); none for the zero vector. -/
def atan2Q (y x : Int) : Option Nat :=
  if x = 0 ∧ y = 0 then none
  else some ((List.range 1024).foldl (fun (b : Nat × Int) n =>
    let c := x * cosQ n + y * sinQ n
    if b.2 < c then (n, c) else b) (0, x * cosQ 0 + y * sinQ 0)).1

/-- Wrap to −512 to 511. -/
def wrap10 (x : Int) : Int := sx 10 (ux 10 x)

/-- The current level (R320): its code and value. -/
def Dev.axLevel (d : Dev) (n : Nat) : Nat × Int :=
  let t := d.ax n
  let st := d.axState n
  let hold : Int := d.v (F.ax_I_HOLD n)
  if st = 0 ∨ !d.bpUp (n / 2) ∨ t.bridge then (0, 0)
  else if !t.mot.still || t.hold || (match t.plan with | .seek .. => true | _ => false) then (1, d.v (F.ax_I_RUN n))
  else if st = 5 then (2, hold)
  else if t.standby then (3, hold + rdiv (rdiv (hold * (d.v (F.ax_STBY_PCT n) : Int)) 100 * t.ramp + hold * (64 - (t.ramp : Int)) - 64 * hold) 64)
  else (2, hold)

/-! ### States -/

/-- HOMED is lost other than by HOME (R339 POS_LOST). -/
def Dev.axUnhome (d : Dev) (n : Nat) : Dev :=
  (when (d.on (F.ax_AX_STAT_HOMED n)) (fun d => d.flag (F.ax_AX_FLAGS_POS_LOST n)) d).p (F.ax_AX_STAT_HOMED n) 0

/-- Homing fails (R335). -/
def Dev.axHomeFail (d : Dev) (n : Nat) : Dev :=
  when (d.axState n == 4) (fun d => (d.flag (F.ax_AX_FLAGS_HOME_FAIL n)).raise (axPage n) 4) d

/-- The axis enters ERROR at rest where it stood at the start of the tick (R326 HARD, R330, R331; log 31). -/
def Dev.axError (d : Dev) (n cause : Nat) : Dev :=
  (((d.axHomeFail n).p (F.ax_AX_STAT_STATE n) 5).p (F.ax_AX_STAT_CAUSE n) cause).p (F.ax_AX_STAT_HOME_STEP n) 0
    |>.axUpd n (fun t => { t with plan := .rest, next := none, hold := false, after := 0, mot := { t.mot with v := 0, a := 0 } })

/-- The axis ramps to rest (R335, R337, R338) and then enters IDLE, or ERROR with a cause. -/
def Dev.axRamp (d : Dev) (n after : Nat) : Dev :=
  ((d.p (F.ax_AX_STAT_STATE n) 3).p (F.ax_AX_STAT_HOME_STEP n) 0).axUpd n (fun t =>
    { t with plan := .stop (d.v (F.ax_ALIM_STOP n)) (d.v (F.ax_JLIM_STOP n)), next := none, hold := false, after := after })
/-- A STOP or ABORT accepted in a tick (R337): the ramp is planned from the state at the start of the next one (R313). -/
def Dev.axRampNext (d : Dev) (n : Nat) : Dev :=
  ((d.p (F.ax_AX_STAT_STATE n) 3).p (F.ax_AX_STAT_HOME_STEP n) 0).axUpd n (fun t =>
    { t with next := some (.stop (d.v (F.ax_ALIM_STOP n)) (d.v (F.ax_JLIM_STOP n))), nextRel := false, after := 0 })

/-- ABORT and the entry to FAULT_LATCHED (R338): every moving or homing axis enters STOPPING. -/
def Dev.auxAbort (d : Dev) : Dev := forN 16 (fun n d => if d.axState n = 2 ∨ d.axState n = 4 then d.axRampNext n else d) d

/-- A bridge fault or the loss of the port (R331). It sets BRIDGE_FAULT again where the axis is in ERROR BRIDGE; the event comes with the flag (log 31). -/
def Dev.axBridge (d : Dev) (n : Nat) : Dev :=
  if d.axState n = 0 then d
  else
    let d := (when (!d.on (F.ax_AX_FLAGS_BRIDGE_FAULT n)) (fun d => d.raise (axPage n) 5) d).flag (F.ax_AX_FLAGS_BRIDGE_FAULT n)
    if d.axState n = 5 ∧ d.g (F.ax_AX_STAT_CAUSE n) = 3 then d
    else ((d.axUnhome n).axError n 3).axUpd n (fun t => { t with bridge := true })

/-- The driver status of the upstream frame received in the tick that ends is used in the next one (R318, R331). -/
def Dev.axDriver (d : Dev) (n : Nat) : Dev :=
  when (d.ax n).bad (fun d =>
    let d := d.axUpd n (fun t => { t with bad := false })
    (when (d.axState n != 0 && !d.on (F.ax_AX_FLAGS_BRIDGE_FAULT n)) (fun d => d.raise (bpPage (n / 2)) 2) d).axBridge n) d

/-! ### Inputs (R326, R327, R332, R334) -/

/-- The frames that DEBOUNCE lasts, times 5 (a frame is 2.5 µs). -/
def Dev.axHeld (d : Dev) (n : Nat) (x : DIn) (f : Nat) : Bool := decide (2 * d.v (F.ax_DEBOUNCE n) ≤ 5 * (f - x.since))

/-- A limit takes a sample: active at once (R326). -/
def limSample (x : DIn) (f : Nat) (lvl : Bool) : DIn :=
  let x := if lvl = x.raw then x else { x with raw := lvl, since := f }
  if lvl then { x with deb := true } else x

/-- A position as its register shows it, in nm, saturating (00 R16). -/
def shownNm (p : Int) : Int := satS 32 (rdiv p nmU)

/-- Raw transitions of the home input in the window that ends with frame `f` (R334). -/
def Dev.axChat (d : Dev) (n f : Nat) : Nat :=
  ((d.ax n).trans.filter (fun g => decide (f + 1 ≤ g + 400 * d.v (F.ax_CHAT_WIN n) ∧ g ≤ f))).length

/-- Has a raw transition of the last tick exceeded CHAT_MAX in its window (R334). -/
def Dev.axChatHit (d : Dev) (n : Nat) : Bool :=
  (d.ax n).trans.any (fun g => decide (d.aux.diFrame < g + 8 ∧ d.v (F.ax_CHAT_MAX n) < d.axChat n g))

/-- The level of an input: its DI, or inactive when it is not used. -/
def Dev.axIn (d : Dev) (n di : Nat) (en idx : Fld) (inv : Nat) : Bool :=
  d.v en == 1 && (bit di (d.v idx) != bit (d.v (F.ax_AX_IN_INV n)) inv)

/-- One sample of the DI levels reaches an axis: its frame, the levels, and the time base at that frame's boundary. `m1` is the motion at the end of the tick
that holds the sample. A sample of the tick in which homing was accepted counts for it from then on. -/
def Dev.axSample (d : Dev) (n : Nat) (smp : Nat × Nat × Nat × Nat) (m1 : Mot) : Dev :=
  let t := d.ax n
  let (f, di, s, ns) := smp
  let h := d.axIn n di (F.ax_AX_IN_HOME_EN n) (F.ax_AX_IN_HOME_DI n) 0
  let pos := t.mot.p + rdiv ((m1.p - t.mot.p) * ((f % 8 : Nat) : Int)) 8
  let ch := h != t.home.raw
  let home := if ch then { t.home with raw := h, since := f } else t.home
  let home := if d.axHeld n home f then { home with deb := h } else home
  let homing := d.axState n == 4 && decide (t.homeFrom ≤ f)
  let d := d.axUpd n (fun t =>
    { t with limN := limSample t.limN f (d.axIn n di (F.ax_AX_IN_LIMN_EN n) (F.ax_AX_IN_LIMN_DI n) 2),
             limP := limSample t.limP f (d.axIn n di (F.ax_AX_IN_LIMP_EN n) (F.ax_AX_IN_LIMP_DI n) 1),
             home := home, edgePos := if ch && h then pos else t.edgePos,
             trans := if homing then (if ch then t.trans ++ [f] else t.trans).filter (fun g => decide (f < g + 400 * 256)) else [] })
  let d := d.p (F.ax_CHAT_COUNT n) (if homing then satU 8 (d.axChat n f) else 0)
  let t := d.ax n
  let d := d.p (F.ax_AX_STAT_INPUTS n) (4 * b2n t.limN.deb + 2 * b2n t.limP.deb + b2n t.home.deb)
  if homing && d.g (F.ax_AX_STAT_HOME_STEP n) == 1 && h then
    let d := ((d.pi (F.ax_LATCH_POS n) (shownNm pos)).p (F.ax_LATCH_NS n) ns).p (F.ax_LATCH_S n) (s % 2 ^ 32)
    (d.p (F.ax_AX_STAT_HOME_STEP n) 3).axUpd n (fun t => { t with next := some (.stop (d.v (F.ax_ALIM_STOP n)) (d.v (F.ax_JLIM_STOP n))) })
  else d

/-- Does an active limit lie in the direction of motion (R326). One that is the home input does not stop the seeks, nor the ramp stops that follow them
(R336). -/
def Dev.axLimitHit (d : Dev) (n : Nat) (m : Mot) : Bool :=
  let t := d.ax n
  let dir := if m.v ≠ 0 then sgn m.v else sgn m.a
  let st := d.axState n
  let hd : Int := if d.v (F.ax_AX_CFG_HOME_DIR n) = 1 then 1 else -1
  let lim := if dir < 0 then F.ax_AX_IN_LIMN_DI n else F.ax_AX_IN_LIMP_DI n
  let exempt := st == 4 && dir == hd && d.v (F.ax_AX_IN_HOME_EN n) == 1 && d.v lim == d.v (F.ax_AX_IN_HOME_DI n)
    && decide (d.g (F.ax_AX_STAT_HOME_STEP n) ∈ [1, 3, 5, 6])
  decide (st = 2 ∨ st = 3 ∨ st = 4) && ((decide (dir < 0) && t.limN.deb) || (decide (0 < dir) && t.limP.deb)) && !exempt && decide (t.after ≠ 1)

/-! ### The tick (R313, R319, R326, R329) -/

/-- The load angle from the measurement received in the tick before (R329), with the count of stalled ticks (R330). -/
def Dev.axLoad (d : Dev) (n : Nat) : Dev :=
  let t := d.ax n
  match t.use with
  | none => (d.p (F.ax_LOAD_ANGLE_VALID n) 0).axUpd n (fun t => { t with stallRun := 0, use := t.meas, meas := none })
  | some (va, vb, ia, ib) =>
    let r : Int := d.v (F.ax_R_PHASE n)
    let l : Int := d.v (F.ax_L_PHASE n)
    let ea := 10000 * va - r * ia - 50 * l * (ia - t.iPrev.1)
    let eb := 10000 * vb - r * ib - 50 * l * (ib - t.iPrev.2)
    let inv : Int := if d.v (F.ax_AX_CFG_DIR_INV n) = 1 then -1 else 1
    let vel := inv * nthI t.vels 1
    -- the spec states no angle of a zero vector: a free value (log 69) DESIGN CHOICE
    let (the, d) := match atan2Q eb ea with | some a => (a, d) | none => let (x, d) := d.draw; (x % 1024, d)
    let a1 : Int := nth t.ths 2
    let cmd := a1 + rdiv (wrap10 ((nth t.ths 1 : Int) - a1)) 2
    let dd := wrap10 (cmd - ((the : Int) - 256 * sgn vel))
    let valid := decide ((d.v (F.ax_STALL_VMIN n) : Int) * 2 ^ 64 ≤ absI vel * 50)
    let run := if valid ∧ d.v (F.ax_AX_CFG_STALL_EN n) = 1 ∧ (d.v (F.ax_STALL_ANGLE n) : Int) ≤ absI dd then t.stallRun + 1 else 0
    ((d.p (F.ax_LOAD_ANGLE_VALID n) (b2n valid)).pi (F.ax_LOAD_ANGLE_D n) dd).axUpd n (fun t =>
      { t with stallRun := run, iPrev := (ia, ib), use := t.meas, meas := none })

/-- The engine computes the tick that ends for one axis. In DISABLED it stands still without current; its load angle is estimated all the same (R329), from
the angle it stands at where its port is UP. -/
def Dev.axTick (d : Dev) (n : Nat) : Dev :=
  let sysOk := decide (5 ≤ d.st ∧ d.st ≤ 8)
  if !d.enabled (axPage n) || !sysOk || (d.axState n == 0 && (!d.bpUp (n / 2) || d.isSt .faultLatched)) then
    let d := d.axLoad n
    let d := d.aux.samples.foldl (fun d e => d.axSample n e (d.ax n).mot) d
    let (th, d) := if d.bpUp (n / 2) then d.axAngle n (d.ax n).mot.p else (nth (d.ax n).ths 0, d)
    ((((d.p (F.ax_AX_STAT_STATE n) 0).p (F.ax_AX_STAT_CAUSE n) 0).p (F.ax_AX_STAT_LEVEL n) 0).p (F.ax_AX_STAT_HOME_STEP n) 0).p (F.ax_VEL_NOW n) 0
      |>.axUpd n (fun t => { t with plan := .rest, next := none, hold := false, after := 0, mot := { t.mot with v := 0, a := 0 }, en := false, ia := 0, ib := 0,
                                    ths := th :: t.ths.take 2, vels := 0 :: t.vels.take 2, stallRun := 0, standby := false, restTicks := 0 })
  else
    let d := when (d.axState n == 0) (fun d => d.p (F.ax_AX_STAT_STATE n) 1) d
    let d := d.axLoad n
    let t := d.ax n
    let m0 := t.mot
    let m1 := if t.hold then m0 else t.plan.tick m0
    let d := d.aux.samples.foldl (fun d e => d.axSample n e m1) d
    let hit := d.axLimitHit n m1
    let hard := d.v (F.ax_AX_CFG_LIM_MODE n) = 0
    let d := when hit (fun d => (d.flag (F.ax_AX_FLAGS_LIMIT_STOP n)).raise (axPage n) 1) d
    let d := if !hit then d.axUpd n (fun t => { t with pStart := m0.p, mot := m1 })
      else if hard then (d.axUnhome n).axError n 1
      else
        let d := (d.axHomeFail n).axRamp n 1
        d.axUpd n (fun t => { t with pStart := m0.p, mot := t.plan.tick m0 })
    let t := d.ax n
    let lv := d.axLevel n
    let (th, d) := d.axAngle n t.mot.p
    let still := t.mot.still
    let d := d.axUpd n (fun t =>
      { t with en := lv.1 != 0, ia := rdiv (lv.2 * cosQ th) (2 ^ 64), ib := rdiv (lv.2 * sinQ th) (2 ^ 64), ths := th :: t.ths.take 2,
               vels := t.mot.v :: t.vels.take 2, hold := false, restTicks := if lv.1 = 2 ∨ lv.1 = 3 then t.restTicks + 1 else 0,
               standby := t.standby && lv.1 == 3, ramp := if lv.1 = 3 then min 64 (t.ramp + 1) else 0 })
    -- what was accepted in this tick is planned from its end
    let d := match t.next with
      | none => d
      | some p =>
        let p := match p with
          | .move x v a j => Plan.move (if t.nextRel then x + t.mot.p else x) v a j
          | p => p
        d.axUpd n (fun t => { t with plan := p, next := none, nextRel := false, hold := still, standby := false })
    ((d.p (F.ax_AX_STAT_LEVEL n) lv.1).pi (F.ax_POS_NOW n) (shownNm t.mot.p)).pi (F.ax_VEL_NOW n) (satS 32 (rdiv (t.mot.v * 50) (2 ^ 64)))

/-- The characters of a port's downstream frame as they leave (R315, R316); none in DISABLED. -/
def BpSt.dsChars (t : BpSt) : List Nat :=
  let le (v : Nat) : List Nat := (leBytes 2 v).map (·.toNat)
  if t.ds = [] then []
  else
    let b := le t.dsNum ++ t.ds.flatMap (fun x => [b2n x.1] ++ le (ux 16 x.2.1) ++ le (ux 16 x.2.2))
    filled 200 ([0xBC] ++ b ++ le (crc16 b))
/-- The code groups of a port's downstream frame (R315, 09 R282), and the running disparity behind it. -/
def BpSt.dsGroups (t : BpSt) : List Nat × Bool := if t.ds = [] then ([], false) else txFrame t.rdTx t.dsChars

/-- An upstream frame of the present tick is missing (R318): counted once. -/
def Dev.bpMissing (d : Dev) (n : Nat) : Dev :=
  if d.g (F.bp_BP_STAT_STATE n) = 0 ∨ (d.bpSt n).got ≠ 0 then d
  else (d.bump (F.bp_CNT_MISSING n)).bpUpd n (fun t => { t with got := 2, good := 0, missing := t.missing + 1 })

/-- AUX_TICK (R313 to R320, R326, R329): at frame 8m the tick that ends is computed and the next downstream frames are formed. -/
def execAuxTick (s : State) : Host.Outcome State Fault Refusal :=
  onDev (fun d =>
    let m := d.time.frame / 8
    if d.time.frame % 8 ≠ 0 ∨ d.aux.tick = m + 1 ∨ !d.ctl.pllLocked then d
    else
      let d := forN 8 (fun n d => if d.time.frame = 0 then d else d.bpMissing n) d
      let d := forN 8 (fun n d =>
        let en := d.enabled (bpPage n)
        let st := d.g (F.bp_BP_STAT_STATE n)
        let d := d.bpUpd n (fun t => { t with got := 0 })
        if !en then (forN 2 (fun k d => d.axBridge (2 * n + k)) d).p (F.bp_BP_STAT_STATE n) 0 |>.bpUpd n (fun _ => {})
        else if st = 0 then (d.p (F.bp_BP_STAT_STATE n) 1).bpUpd n (fun _ => {})
        else d) d
      let d := forN 16 (fun n d => d.axTick n) d
      let d := forN 8 (fun n d =>
        let slot (k : Nat) : Bool × Int × Int :=
          let t := d.ax (2 * n + k)
          if t.en && d.bpUp n then (true, t.ia, t.ib) else (false, 0, 0)
        d.bpUpd n (fun t => { t with rdTx := t.dsGroups.2, dsNum := m % 65536, ds := if d.g (F.bp_BP_STAT_STATE n) = 0 then [] else [slot 0, slot 1] })) d
      let d := forN 16 (fun n d => d.axDriver n) d
      { d with aux := { d.aux with tick := m + 1, samples := [] } }) s

/-! ### Bridge ports (R316 to R318, R331) -/

/-- The measurements of one slot of an upstream frame: character 3 or 14 on. -/
def Dev.bpSlot (d : Dev) (n k : Nat) (c : List Nat) : Dev :=
  let a := 3 + 11 * k
  let i (o : Nat) : Int := sx 16 (leAt c (a + o) 2)
  let d := (d.pi (F.bps_MEAS_I_IA n k) (i 1)).pi (F.bps_MEAS_I_IB n k) (i 3)
  let d := (d.pi (F.bps_MEAS_V_VA n k) (i 5)).pi (F.bps_MEAS_V_VB n k) (i 7)
  let d := (d.p (F.bps_VBUS n k) (leAt c (a + 9) 2)).p (F.bps_DRV_STAT n k) (nth c a)
  let st := nth c a
  d.axUpd (2 * n + k) (fun t => { t with meas := some (i 5, i 7, i 1, i 3), bad := !bit st 0 || bit st 1 || bit st 2 || bit st 3 })

/-- BRIDGE_FRAME_RX (R315, R316, R318, R331): the code groups of an upstream frame, that of position 0 and those behind it. -/
def execBridgeFrameRx (port : Fin 8) (start : BitVec 10) (groups : List (BitVec 10)) (s : State) : Host.Outcome State Fault Refusal :=
  onDev (fun d =>
    let n := port.val
    if d.g (F.bp_BP_STAT_STATE n) = 0 then d
    else
      let r := rxFrame (d.bpSt n).rdRx (start :: groups)
      let c := r.chars
      let d := (d.bump (F.bp_CNT_CODE_ERR n) r.bad.length).bpUpd n (fun t => { t with rdRx := r.rd })
      if (d.bpSt n).got ≠ 0 || !r.sof || !blockOk c r.bad 1 24 || decide (leAt c 1 2 ≠ d.time.frame / 8 % 65536) then d
      else
        let d := d.bpUpd n (fun t => { t with got := 1, good := t.good + 1, missing := 0 })
        (d.bpSlot n 0 c).bpSlot n 1 c) s

/-- BRIDGE_FRAME_MISSING (R318). -/
def execBridgeFrameMissing (port : Fin 8) (s : State) : Host.Outcome State Fault Refusal := onDev (fun d => d.bpMissing port.val) s

/-- PORT_UP (R318): 16 valid upstream frames in a row. -/
def execPortUp (port : Fin 8) (s : State) : Host.Outcome State Fault Refusal :=
  onDev (fun d => when (d.g (F.bp_BP_STAT_STATE port.val) == 1 && decide (16 ≤ (d.bpSt port.val).good)) (fun d =>
    ((d.p (F.bp_BP_STAT_STATE port.val) 2).raise (bpPage port.val) 0).bpUpd port.val (fun t => { t with missing := 0 })) d) s

/-- PORT_LOST (R318, R331): LOSS_TICKS missing frames in a row; the port's axes lose their bridge. -/
def execPortLost (port : Fin 8) (s : State) : Host.Outcome State Fault Refusal :=
  onDev (fun d => when (d.bpUp port.val && decide (d.g (F.bp_LOSS_TICKS port.val) ≤ (d.bpSt port.val).missing)) (fun d =>
    let d := ((d.p (F.bp_BP_STAT_STATE port.val) 3).bump (F.bp_CNT_LOSS port.val)).raise (bpPage port.val) 1
    let d := d.bpUpd port.val (fun t => { t with lostTick := d.time.frame / 8, good := 0 })
    (d.axBridge (2 * port.val)).axBridge (2 * port.val + 1)) d) s

/-- PORT_RESYNC (R318): a lost port returns to SYNC after 8 ticks. -/
def execPortResync (port : Fin 8) (s : State) : Host.Outcome State Fault Refusal :=
  onDev (fun d => when (d.g (F.bp_BP_STAT_STATE port.val) == 3 && decide ((d.bpSt port.val).lostTick + 8 ≤ d.time.frame / 8)) (fun d =>
    (d.p (F.bp_BP_STAT_STATE port.val) 1).bpUpd port.val (fun t => { t with good := 0, missing := 0 })) d) s

/-! ### Commands (R321 to R325, R332, R337) -/

/-- Is move `k` of an axis refused (R325): for its limits, for the state, or for an active limit ahead; 0 when it is not. -/
def Dev.axRefusal (d : Dev) (n k : Nat) (add : Int) : Nat :=
  let t := d.ax n
  let tgt := (d.vi (F.ax_MOVEk_TARGET n k) + add) * nmU + (if d.v (F.ax_MOVEk_MODE n k) = 1 then t.mot.p else 0)
  let dir := if t.mot.v ≠ 0 then sgn t.mot.v else sgn (tgt - t.mot.p)
  if d.axState n ≠ 1 ∧ d.axState n ≠ 2 then 1
  else if d.v (F.ax_MOVEk_VMAX n k) = 0 ∨ d.v (F.ax_MOVEk_AMAX n k) = 0 ∨ d.v (F.ax_MOVEk_JMAX n k) = 0 then 3
  else if (dir < 0 ∧ t.limN.deb) ∨ (0 < dir ∧ t.limP.deb) then 1
  else 0

/-- A move is refused (R325). -/
def Dev.axRefused (d : Dev) (n : Nat) : Dev := ((d.flag (F.ax_AX_FLAGS_START_REFUSED n)).raise (axPage n) 7).p (F.ax_AX_STAT_DONE n) 0

/-- Start move `k` (R321, R323 to R325), and the result code. -/
def Dev.axMove (d : Dev) (n k : Nat) (add : Int) : Nat × Dev :=
  match d.axRefusal n k add with
  | 0 => (0, ((d.p (F.ax_AX_STAT_STATE n) 2).p (F.ax_AX_STAT_DONE n) 0).axUpd n (fun t =>
      { t with next := some (.move ((d.vi (F.ax_MOVEk_TARGET n k) + add) * nmU) (d.v (F.ax_MOVEk_VMAX n k)) (d.v (F.ax_MOVEk_AMAX n k)) (d.v (F.ax_MOVEk_JMAX n k))),
               nextRel := d.v (F.ax_MOVEk_MODE n k) == 1 }))
  | r => (r, d.axRefused n)

/-- The present tick plus 1. -/
def Dev.tickNo (d : Dev) : Nat := d.time.frame / 8 + 1

/-- The host's commands of this tick are taken back (R325): the first of them found the axis as it is again now. -/
def Dev.axUndo (d : Dev) (n : Nat) : Dev :=
  match (d.ax n).undo with
  | some (w, p, r, b) =>
    let d := if d.axState n = 5 then d else (d.setReg (F.ax_AX_STAT_STATE n).addr w).axUpd n (fun t => { t with next := p, nextRel := r, bridge := b })
    (d.p (F.ax_AX_STAT_CMD_RESULT n) 2).axUpd n (fun t => { t with hostTick := 0, undo := none })
  | none => d

/-- The sequencer starts a move (R84, R321): it overrides any host command of the same tick (R325). -/
def Dev.axSeqMove (d : Dev) (n k : Nat) (add : Int) : Dev :=
  let d := when ((d.ax n).hostTick == d.tickNo) (fun d => d.axUndo n) d
  let (_, d) := d.axMove n k add
  d.axUpd n (fun t => { t with seqTick := d.tickNo })

/-- A write of AX_CMD for one OP (R339): one with a bad key is ignored, no command, but for CMD_RESULT; FAULT_LATCHED accepts STOP and CLEAR_ERR (R338). Any
command in the tick of a start by the sequencer is refused with 2 (R325), and one that came before it in the tick is taken back. -/
def Dev.axCmd (d : Dev) (n op : Nat) (v : Word) (k : Dev → Nat × Dev) : Dev :=
  if Word.f v 31 16 ≠ 0x4158 then d.p (F.ax_AX_STAT_CMD_RESULT n) 3
  else if Word.f v 2 0 ≠ op then d
  else if (d.ax n).seqTick = d.tickNo then d.p (F.ax_AX_STAT_CMD_RESULT n) 2
  else if d.isSt .faultLatched ∧ op ≤ 2 then (when (decide (op = 1)) (fun d => d.axRefused n) d).p (F.ax_AX_STAT_CMD_RESULT n) 1
  else
    let t := d.ax n
    let u := if t.hostTick = d.tickNo then t.undo else some (d.reg (F.ax_AX_STAT_STATE n).addr, t.next, t.nextRel, t.bridge)
    let (r, d) := k d
    (d.axUpd n (fun t => { t with hostTick := d.tickNo, undo := u })).p (F.ax_AX_STAT_CMD_RESULT n) r

/-- AUX_START (R84, R321): moves on the masked axes; ADD_THICK adds the thickness of the layer last opened. -/
def execAuxStart (s : State) : Host.Outcome State Fault Refusal :=
  onDev (fun d => when (d.fresh 0x04) (fun d =>
    let add : Int := if d.entFlags d.pc % 2 = 1 then d.seq.thick else 0
    let pc := d.pc
    let d := forN 16 (fun n d => when (bit (d.entA0 pc) n) (fun d => d.axSeqMove n (d.entA1 pc % 8) add) d) d
    d.complete (pc + 1)) d) s

/-- MOVE (R321, R325). -/
def Dev.axHostMove (d : Dev) (n : Nat) (v : Word) : Dev :=
  d.axCmd n 1 v (fun d => d.axMove n (Word.f v 6 4) 0)

/-- The seek of a homing step (R332): towards or away from home at a speed in µm/s. -/
def Dev.axSeek (d : Dev) (n : Nat) (toward : Bool) (speed : Nat) : Plan :=
  let s : Int := if (d.v (F.ax_AX_CFG_HOME_DIR n) == 1) == toward then 1 else -1
  .seek (s * speed) (d.v (F.ax_ALIM_STOP n)) (d.v (F.ax_JLIM_STOP n))

/-- HOME (R332): accepted in IDLE; speeds and stop limits of 0 are refused as limits. -/
def Dev.axHome (d : Dev) (n : Nat) (v : Word) : Dev :=
  d.axCmd n 2 v (fun d =>
    if d.axState n ≠ 1 then (1, d)
    else if d.v (F.ax_HOME_VFAST n) = 0 ∨ d.v (F.ax_HOME_VSLOW n) = 0 ∨ d.v (F.ax_ALIM_STOP n) = 0 ∨ d.v (F.ax_JLIM_STOP n) = 0 then (3, d)
    else
      let back := (d.ax n).home.deb
      let d := (((d.p (F.ax_AX_STAT_STATE n) 4).p (F.ax_AX_STAT_HOMED n) 0).p (F.ax_AX_STAT_DONE n) 0).p (F.ax_AX_STAT_HOME_STEP n) (if back then 4 else 1)
      let from_ := if d.aux.diFrame = d.time.frame then d.time.frame + 1 else d.time.frame
      (0, d.axUpd n (fun t => { t with base := t.mot.p, trans := [], backDone := false, homeFrom := from_,
                                       next := some (if back then d.axSeek n false (d.v (F.ax_HOME_VSLOW n)) else d.axSeek n true (d.v (F.ax_HOME_VFAST n))) })))

/-- STOP (R335, R337). -/
def Dev.axStop (d : Dev) (n : Nat) (v : Word) : Dev :=
  d.axCmd n 3 v (fun d =>
    if d.axState n = 2 ∨ d.axState n = 4 then (0, d.axRampNext n)
    else if d.axState n = 1 ∨ d.axState n = 3 then (0, d) else (1, d))

/-- CLEAR_ERR (R337): once the cause has ended and the port is UP. A bridge fault that stands behind ENABLE = 0 is cleared too (R331; log 31). -/
def Dev.axClearErr (d : Dev) (n : Nat) (v : Word) : Dev :=
  d.axCmd n 4 v (fun d =>
    let st := d.g (F.bps_DRV_STAT (n / 2) (n % 2))
    let ended := match (if (d.ax n).bridge then 3 else d.g (F.ax_AX_STAT_CAUSE n)) with
      | 3 => bit st 0 && !bit st 1 && !bit st 2 && !bit st 3
      | 4 => decide (d.time.frame < d.aux.diFrame + 3)
      | _ => (d.ax n).mot.still
    if !(d.axState n == 5 || d.axState n != 0 && (d.ax n).bridge) ∨ !ended ∨ !d.bpUp (n / 2) then (1, d)
    else (0, (when (d.axState n == 5) (fun d => (d.p (F.ax_AX_STAT_STATE n) 1).p (F.ax_AX_STAT_CAUSE n) 0) d).axUpd n (fun t => { t with bridge := false })))

/-- A write of AX_CMD with any OP. -/
def Dev.axCmdWrite (d : Dev) (n : Nat) (v : Word) : Dev :=
  match Word.f v 2 0 with
  | 1 => d.axHostMove n v
  | 2 => d.axHome n v
  | 3 => d.axStop n v
  | 4 => d.axClearErr n v
  | _ => if Word.f v 31 16 ≠ 0x4158 then d.p (F.ax_AX_STAT_CMD_RESULT n) 3 else d

/-- MOVE (R321, R325). -/
def execMove (axis : Fin 16) (val : Word) (s : State) : Host.Outcome State Fault Refusal :=
  hosted (F.ax_AX_CMD_OP axis.val).addr (onDev (fun d => d.axHostMove axis.val val)) s
/-- HOME (R332). -/
def execHome (axis : Fin 16) (val : Word) (s : State) : Host.Outcome State Fault Refusal :=
  hosted (F.ax_AX_CMD_OP axis.val).addr (onDev (fun d => d.axHome axis.val val)) s
/-- AX_STOP (R335). -/
def execAxStop (axis : Fin 16) (val : Word) (s : State) : Host.Outcome State Fault Refusal :=
  hosted (F.ax_AX_CMD_OP axis.val).addr (onDev (fun d => d.axStop axis.val val)) s
/-- CLEAR_ERR (R337). -/
def execClearErr (axis : Fin 16) (val : Word) (s : State) : Host.Outcome State Fault Refusal :=
  hosted (F.ax_AX_CMD_OP axis.val).addr (onDev (fun d => d.axClearErr axis.val val)) s

/-- MOVE_DONE (R324): the profile of the last accepted move is at its target at rest. -/
def execMoveDone (axis : Fin 16) (s : State) : Host.Outcome State Fault Refusal :=
  onDev (fun d =>
    let n := axis.val
    let t := d.ax n
    match t.plan with
    | .move x _ _ _ =>
      when (d.axState n == 2 && t.next.isNone && !t.hold && t.mot.still && t.mot.p == x) (fun d =>
        (((d.p (F.ax_AX_STAT_DONE n) 1).p (F.ax_AX_STAT_STATE n) 1).raise (axPage n) 0).axUpd n (fun t => { t with plan := .rest })) d
    | _ => d) s

/-- STOP_AT_REST (R337): a ramp stop reaches rest: IDLE, or ERROR with its cause. -/
def execStopAtRest (axis : Fin 16) (s : State) : Host.Outcome State Fault Refusal :=
  onDev (fun d =>
    let n := axis.val
    let t := d.ax n
    when (d.axState n == 3 && t.next.isNone && t.mot.still) (fun d =>
      let d := (d.p (F.ax_AX_STAT_STATE n) (if t.after = 0 then 1 else 5)).p (F.ax_AX_STAT_CAUSE n) t.after
      d.axUpd n (fun t => { t with plan := .rest, after := 0 })) d) s

/-- LIMIT_RELEASE (R327): the negative (0) or positive (1) limit has held inactive for DEBOUNCE. -/
def execLimitRelease (axis : Fin 16) (side : Fin 2) (s : State) : Host.Outcome State Fault Refusal :=
  onDev (fun d =>
    let n := axis.val
    let x := if side.val = 0 then (d.ax n).limN else (d.ax n).limP
    when (x.deb && !x.raw && d.axHeld n x d.aux.diFrame) (fun d =>
      let d := d.axUpd n (fun t => if side.val = 0 then { t with limN := { x with deb := false } } else { t with limP := { x with deb := false } })
      let t := d.ax n
      d.p (F.ax_AX_STAT_INPUTS n) (4 * b2n t.limN.deb + 2 * b2n t.limP.deb + b2n t.home.deb)) d) s

/-- INPUT_LOST (R328): no DI levels for 2 consecutive frames stop an axis that uses an input. -/
def execInputLost (axis : Fin 16) (s : State) : Host.Outcome State Fault Refusal :=
  onDev (fun d =>
    let n := axis.val
    let uses := d.v (F.ax_AX_IN_LIMN_EN n) == 1 || d.v (F.ax_AX_IN_LIMP_EN n) == 1 || d.v (F.ax_AX_IN_HOME_EN n) == 1
    let st := d.axState n
    when (uses && decide (d.aux.diFrame + 3 ≤ d.time.frame) && decide (1 ≤ st ∧ st ≤ 4 ∧ (d.ax n).after ≠ 4)) (fun d =>
      let d := (d.flag (F.ax_AX_FLAGS_INPUT_LOST n)).raise (axPage n) 6
      if st = 1 then (d.p (F.ax_AX_STAT_STATE n) 5).p (F.ax_AX_STAT_CAUSE n) 4 else d.axRamp n 4) d) s

/-- AXIS_STALL (R330). -/
def execAxisStall (axis : Fin 16) (s : State) : Host.Outcome State Fault Refusal :=
  onDev (fun d =>
    let n := axis.val
    when (d.v (F.ax_AX_CFG_STALL_EN n) == 1 && decide (1 ≤ d.axState n ∧ d.axState n ≤ 4) && decide (0 < (d.ax n).stallRun ∧ d.v (F.ax_STALL_N n) ≤ (d.ax n).stallRun)) (fun d =>
      let d := ((d.flag (F.ax_AX_FLAGS_STALL n)).raise (axPage n) 2).axUpd n (fun t => { t with stallRun := 0 })
      if d.v (F.ax_AX_CFG_STALL_ACT n) = 1 then (d.axUnhome n).axError n 2 else d) d) s

/-- STANDBY_ENTRY (R320): at rest for STBY_DELAY. -/
def execStandbyEntry (axis : Fin 16) (s : State) : Host.Outcome State Fault Refusal :=
  onDev (fun d =>
    let n := axis.val
    let t := d.ax n
    when (d.g (F.ax_AX_STAT_LEVEL n) == 2 && decide (d.axState n ≠ 5) && decide (50 * d.v (F.ax_STBY_DELAY n) ≤ t.restTicks)) (fun d =>
      (d.p (F.ax_AX_STAT_LEVEL n) 3).axUpd n (fun t => { t with standby := true, ramp := 0 })) d) s

/-- HOME_AT_REST (R332): steps 3, 4 and 6 go on at rest. -/
def execHomeAtRest (axis : Fin 16) (s : State) : Host.Outcome State Fault Refusal :=
  onDev (fun d =>
    let n := axis.val
    let t := d.ax n
    let ramp := match t.plan with | .stop .. => true | _ => false
    if !(d.axState n == 4 && ramp && t.next.isNone && t.mot.still) then d
    else
      let go (d : Dev) (step : Nat) (p : Plan) : Dev :=
        (d.p (F.ax_AX_STAT_HOME_STEP n) step).axUpd n (fun t => { t with next := some p, base := t.mot.p, backDone := false, seekAt := d.time.frame })
      match d.g (F.ax_AX_STAT_HOME_STEP n) with
      | 3 => go d 4 (d.axSeek n false (d.v (F.ax_HOME_VSLOW n)))
      | 4 => go d 5 (d.axSeek n true (d.v (F.ax_HOME_VSLOW n)))
      | 6 => (d.p (F.ax_AX_STAT_HOME_STEP n) 7).axUpd n (fun t => { t with plan := .rest })
      | _ => d) s

/-- HOME_BACK_OFF_DONE (R332 step 4): the home input has held the released level for DEBOUNCE. -/
def execHomeBackOffDone (axis : Fin 16) (s : State) : Host.Outcome State Fault Refusal :=
  onDev (fun d =>
    let n := axis.val
    let t := d.ax n
    when (d.axState n == 4 && d.g (F.ax_AX_STAT_HOME_STEP n) == 4 && !t.backDone && !t.home.deb && !t.home.raw && d.axHeld n t.home d.aux.diFrame) (fun d =>
      d.axUpd n (fun t => { t with backDone := true, next := some (.stop (d.v (F.ax_ALIM_STOP n)) (d.v (F.ax_JLIM_STOP n))) })) d) s

/-- HOME_QUALIFIED_EDGE (R332 steps 5 and 6, R333). -/
def execHomeQualifiedEdge (axis : Fin 16) (s : State) : Host.Outcome State Fault Refusal :=
  onDev (fun d =>
    let n := axis.val
    let t := d.ax n
    when (d.axState n == 4 && d.g (F.ax_AX_STAT_HOME_STEP n) == 5 && t.home.deb && t.home.raw && decide (t.seekAt ≤ t.home.since) && d.axHeld n t.home d.aux.diFrame) (fun d =>
      ((d.pi (F.ax_HOME_POS n) (shownNm t.edgePos)).p (F.ax_AX_STAT_HOME_STEP n) 6).axUpd n (fun t =>
        { t with next := some (.stop (d.v (F.ax_ALIM_STOP n)) (d.v (F.ax_JLIM_STOP n))) })) d) s

/-- HOME_ZERO (R332 step 7): at rest after the latch, HOME_POS becomes HOME_OFS. -/
def execHomeZero (axis : Fin 16) (s : State) : Host.Outcome State Fault Refusal :=
  onDev (fun d =>
    let n := axis.val
    let t := d.ax n
    when (d.axState n == 4 && decide (6 ≤ d.g (F.ax_AX_STAT_HOME_STEP n)) && t.next.isNone && t.mot.still) (fun d =>
      let sh := (d.vi (F.ax_HOME_OFS n)) * nmU - t.edgePos
      let d := d.axUpd n (fun t => { t with mot := (⟨t.mot.p + sh, 0, 0⟩ : Mot).grid, pStart := t.pStart + sh, plan := .rest, trans := [] })
      let d := ((d.p (F.ax_AX_STAT_HOMED n) 1).p (F.ax_AX_STAT_STATE n) 1).p (F.ax_AX_STAT_HOME_STEP n) 0
      ((d.p (F.ax_AX_STAT_DONE n) 1).pi (F.ax_POS_NOW n) (shownNm (d.ax n).mot.p)).raise (axPage n) 3) d) s

/-- SWITCH_UNSTABLE (R334, R335): too many raw transitions of the home input in the window. -/
def execSwitchUnstable (axis : Fin 16) (s : State) : Host.Outcome State Fault Refusal :=
  onDev (fun d =>
    let n := axis.val
    when (d.axState n == 4 && d.axChatHit n) (fun d =>
      ((d.axHomeFail n).flag (F.ax_AX_FLAGS_SWITCH_UNSTABLE n)).axRamp n 5) d) s

/-- HOME_MAXDIST (R335): a seek or back-off has travelled HOME_MAXDIST. -/
def execHomeMaxdist (axis : Fin 16) (s : State) : Host.Outcome State Fault Refusal :=
  onDev (fun d =>
    let n := axis.val
    let t := d.ax n
    let max_ := d.v (F.ax_HOME_MAXDIST n)
    let step := d.g (F.ax_AX_STAT_HOME_STEP n)
    when (d.axState n == 4 && decide (max_ ≠ 0 ∧ (step = 1 ∨ step = 4 ∨ step = 5) ∧ (max_ : Int) * nmU ≤ absI (t.mot.p - t.base))) (fun d =>
      (d.axHomeFail n).axRamp n 6) d) s

/-- BP.CNT_CLEAR (R340). -/
def Dev.bpCntClear (d : Dev) (n : Nat) : Dev := (d.setReg (bpPage n + 0x48) 0).setReg (bpPage n + 0x4C) 0

end Sys2Proof.Machine
end

