-- ==== Sys2Proof/Machine/Camera.lean ====
section
/-!
DEFINITION. Camera ports, image pipelines, their stages and the feature record (08). How fast pixels move inside the part is not modelled:
the commands say when a frame is taken and when a record completes (log 14).
-/
namespace Sys2Proof.Machine

/-- The CP page of a port. -/
def cpPage (n : Nat) : Nat := 0x80000 + n * 0x1000
/-- The IP page of a pipeline. -/
def ipPage (n : Nat) : Nat := 0x90000 + n * 0x1000
/-- A port's hidden state. -/
def Dev.cp (d : Dev) (n : Nat) : CpSt := Tab.at {} d.cps n
/-- Change it. -/
def Dev.cpUpd (d : Dev) (n : Nat) (f : CpSt → CpSt) : Dev := { d with cps := Tab.upd {} d.cps n f }
/-- A pipeline's hidden state. -/
def Dev.ip (d : Dev) (n : Nat) : IpSt := Tab.at {} d.ips n
/-- Change it. -/
def Dev.ipUpd (d : Dev) (n : Nat) (f : IpSt → IpSt) : Dev := { d with ips := Tab.upd {} d.ips n f }

/-! ### Sources (R263, R265, R267) -/

/-- The pipeline that a port serves and in which role: 0 in-line, 1 via-memory (R263). -/
def Dev.portRole (d : Dev) (port : Nat) : Option (Nat × Nat) :=
  (List.range 7).findSome? (fun p =>
    if !d.on (F.ip_IP_MAP_MAPPED p) then none
    else if d.on (F.ip_IP_SRC_IL_EN p) && d.g (F.ip_IP_SRC_IL_PORT p) == port then some (p, 0)
    else if d.on (F.ip_IP_SRC_VM_EN p) && d.g (F.ip_IP_SRC_VM_PORT p) == port then some (p, 1)
    else none)

/-- CP_STAT.ROLE and PIPE of every port (R279). -/
def Dev.cpRoles (d : Dev) : Dev :=
  forN 12 (fun n d => match d.portRole n with
    | some (p, r) => (d.p (F.cp_CP_STAT_ROLE n) (r + 1)).p (F.cp_CP_STAT_PIPE n) (d.g (F.ip_IP_MAP_LOGICAL p))
    | none => (d.p (F.cp_CP_STAT_ROLE n) 0).p (F.cp_CP_STAT_PIPE n) 0) d

/-- The ports that a pipeline names, whether mapped or not. -/
def Dev.ipPorts (d : Dev) (p : Nat) : List Nat :=
  (if d.on (F.ip_IP_SRC_IL_EN p) then [d.g (F.ip_IP_SRC_IL_PORT p)] else [])
    ++ (if d.on (F.ip_IP_SRC_VM_EN p) then [d.g (F.ip_IP_SRC_VM_PORT p)] else [])

/-- WIDTH times HEIGHT in force of a port. -/
def Dev.cpPixels (d : Dev) (n : Nat) : Nat := d.v (F.cp_CP_SIZE_WIDTH n) * d.v (F.cp_CP_SIZE_HEIGHT n)

/-- What ARM checks (R263, R266): pipelines that share a port, the spare among them, but not one whose place the spare took (R278); and via-memory ports that
are too large. -/
def Dev.camRefused (d : Dev) : List Nat × List Nat :=
  let ips := idxs 7 (fun p => d.on (F.ip_IP_MAP_MAPPED p) || p == 6)
  let all := ips.flatMap (fun p => d.ipPorts p)
  (ips.filter (fun p => (d.ipPorts p).any (fun x => decide (1 < all.count x))),
   idxs 12 (fun n => match d.portRole n with | some (_, 1) => decide (524288 < d.cpPixels n) | _ => false))

/-- Set CFG_REFUSED where ARM found a fault (R263, R266). -/
def Dev.camMark (d : Dev) : Dev :=
  let (ips, cps) := d.camRefused
  let d := ips.foldl (fun d p => (d.flag (F.ip_IP_FLAGS_CFG_REFUSED p)).raise (ipPage p) 3) d
  cps.foldl (fun d n => d.raise (cpPage n) 9) d

/-- A commit that makes a via-memory port too large is refused: the values in force of its page remain (R266). `old` is the state before it. -/
def Dev.cpCommit (old d : Dev) : Dev :=
  forN 12 (fun n d =>
    match d.portRole n with
    | some (_, 1) =>
      let ws := [(F.cp_CP_CTRL_PIX_BITS n).addr, (F.cp_CP_SIZE_WIDTH n).addr, (F.cp_FRAME_TMO n).addr]
      when (decide (524288 < d.cpPixels n) && ws.any (fun a => old.liveReg a != d.liveReg a))
        (fun d => (ws.foldl (fun d a => d.setLive a (old.liveReg a)) d).raise (cpPage n) 9) d
    | _ => d) d

/-- A commit that changes DPC_BASE or DPC_COUNT starts the copy of the list (R271). -/
def Dev.dpcCommit (old d : Dev) : Dev :=
  forN 7 (fun p d => forN 2 (fun b d =>
    let ch (f : Nat → Nat → Fld) : Bool := old.v (f p b) != d.v (f p b)
    when (ch F.ips_DPC_BASE_LO || ch F.ips_DPC_BASE_HI || ch F.ips_DPC_COUNT) (fun d => d.p (F.ips_DPC_STAT_STATE p b) 1) d) d) d

/-- Ring base of a pipeline (R267). -/
def Dev.ringBase (d : Dev) (p : Nat) : Nat := d.g (F.ip_RING_BASE_LO p) * 4096 + d.g (F.ip_RING_BASE_HI p) * 2 ^ 32

/-- The port of a pipeline's via-memory source that has an open or held frame. -/
def Dev.vmPort (d : Dev) (p : Nat) : Nat := d.g (F.ip_IP_SRC_VM_PORT p)

/-- Ring slots of a pipeline that are claimed: by frames in the ring, by the one in the pipeline and by the open one. -/
def Dev.ringUsed (d : Dev) (p : Nat) : List Nat :=
  let t := d.ip p
  let c := d.cp (d.vmPort p)
  (t.ring ++ t.wait ++ c.frame.toList).filterMap (fun x => if x.pipe = p ∧ x.src = 1 then x.slot else none)

/-- IP_STAT.SOURCE and RING_USED (R280). -/
def Dev.ipStat (d : Dev) (p : Nat) : Dev :=
  let t := d.ip p
  let il := t.wait.any (fun x => x.src == 0 && !x.dropped)
    || (d.on (F.ip_IP_SRC_IL_EN p) && ((d.cp (d.g (F.ip_IP_SRC_IL_PORT p))).frame.any (fun x => x.pipe == p)))
  let src := if t.wait.any (fun x => x.src == 1 && !x.dropped) then 2 else if il then 1 else 0
  (d.p (F.ip_IP_STAT_SOURCE p) (if d.on (F.ip_IP_STAT_FAILED p) then 0 else src)).p (F.ip_IP_STAT_RING_USED p) (d.ringUsed p).length

/-- Is a pipeline at work: not failed. -/
def Dev.ipOk (d : Dev) (p : Nat) : Bool := decide (p < 7) && !d.on (F.ip_IP_STAT_FAILED p)

/-! ### Frames (R258 to R269) -/

/-- Set a flag of a frame; the first time, the port's event and counter of that name follow (R261). Flag k has event k + 1, OVERFLOW 6 and
TIMEOUT 7. -/
def Dev.camFlag (d : Dev) (fr : CFrame) (b : Nat) : Dev × CFrame :=
  if bit fr.flags b then (d, fr)
  else
    let n := fr.port
    let cnt := match b with
      | 0 => F.cp_CNT_OVERFLOW n | 1 => F.cp_CNT_LONG_LINE n | 2 => F.cp_CNT_SHORT_LINE n | 3 => F.cp_CNT_SHORT_FRAME n
      | 4 => F.cp_CNT_LONG_FRAME n | _ => F.cp_CNT_TIMEOUT n
    let d := (d.bump cnt).raise (cpPage n) (if b = 0 then 6 else if b = 5 then 7 else b + 1)
    let d := when (decide (b = 0) && d.ipOk fr.pipe) (fun d => (d.flag (F.ip_IP_FLAGS_OVERFLOW fr.pipe)).raise (ipPage fr.pipe) 1) d
    (d, { fr with flags := fr.flags + 2 ^ b })

/-- A frame whose pipeline is throttled now carries THROTTLED (R273). -/
def Dev.camThr (d : Dev) (fr : CFrame) : CFrame :=
  if decide (fr.pipe < 7) && d.on (F.ip_IP_STAT_THROTTLED fr.pipe) && !bit fr.flags 7 then { fr with flags := fr.flags + 128 } else fr

/-- A via-memory frame is in the pipeline (R265). -/
def IpSt.vmBusy (t : IpSt) : Bool := t.wait.any (fun x => x.src == 1 && !x.dropped)

/-- A pipeline runs on the frames that are in processing now: those up to a via-memory frame that it has taken, and with none the open in-line frame
once its lines come. Where CLK_IMG is throttled they carry THROTTLED (R273). -/
def Dev.camRun (d : Dev) (p : Nat) : Dev :=
  let t := d.ip p
  let vm (x : CFrame) : Bool := x.src == 1 && !x.dropped
  let mark (x : CFrame) : CFrame := if x.dropped then x else d.camThr x
  let rest := t.wait.dropWhile (fun x => !vm x)
  let d := d.ipUpd p (fun t => { t with wait := (t.wait.takeWhile (fun x => !vm x)).map mark ++ (rest.take 1).map mark ++ rest.drop 1 })
  if t.vmBusy || !d.on (F.ip_IP_SRC_IL_EN p) then d
  else
    d.cpUpd (d.g (F.ip_IP_SRC_IL_PORT p)) (fun c =>
      { c with frame := c.frame.map (fun x => if x.pipe = p ∧ x.src = 0 ∧ x.rx ≠ 0 then mark x else x) })

/-- CLK_IMG became throttled or free again. -/
def Dev.camThrottle (d : Dev) (on : Bool) : Dev := forN 7 (fun p d => (d.p (F.ip_IP_STAT_THROTTLED p) (b2n on)).camRun p) d

/-- A line's pixels into its ring slot (R267). -/
def ringWrite (fr : CFrame) (l : CLine) (r : Dev × List Host.Cell) : Dev × List Host.Cell :=
  match fr.slot with
  | none => r
  | some k =>
    if !l.valid then r
    else dramWrite 1 (r.1.ringBase fr.pipe + k * 0x100000 + l.idx * fr.width * 2) (l.px.flatMap (fun p => leBytes 2 p)) r

/-- The lowest free ring slot. -/
def Dev.freeSlot (d : Dev) (p : Nat) : Option Nat := (List.range 4).find? (fun k => decide (k ∉ d.ringUsed p))

/-- A closed frame goes where its record will come from (R265, R268, R269): one that passes no stage first. -/
def Dev.camClose (d : Dev) (fr : CFrame) : Dev :=
  let n := fr.port
  let d := (d.p (F.cp_CP_STAT_IN_FRAME n) 0).cpUpd n (fun c => { c with frame := none })
  let d := d.raise (cpPage n) 1
  let fr := { fr with closed := true }
  if !d.ipOk fr.pipe then d
  else
    let p := fr.pipe
    let d :=
      if fr.dropped then
        d.ipUpd p (fun t => { t with wait := t.wait.takeWhile (·.dropped) ++ [fr] ++ t.wait.dropWhile (·.dropped) })
      else if fr.src = 0 then d.ipUpd p (fun t => { t with wait := t.wait ++ [fr] })
      else if fr.slot.isSome || fr.lines.isEmpty then d.ipUpd p (fun t => { t with ring := t.ring ++ [fr] })
      else d.cpUpd n (fun c => { c with held := some fr })
    d.ipStat p

/-- The early or timely end of the open frame (R258, R259, R261). -/
def Dev.camEnd (d : Dev) (n : Nat) (timeout : Bool) : Dev :=
  match (d.cp n).frame with
  | none => d
  | some fr =>
    let (d, fr) := if fr.seen < fr.height then d.camFlag fr 3 else (d, fr)
    let (d, fr) := if timeout then d.camFlag fr 5 else (d, fr)
    d.camClose fr

/-- Is a port sampling its inputs: enabled, with a clock (R256, R259, R279). -/
def Dev.cpLive (d : Dev) (n : Nat) : Bool := d.enabled (cpPage n) && d.on (F.cp_CP_STAT_PCLK_PRESENT n)

/-- FRAME_START (R258, R260, R268, R274): FV becomes active. -/
def execFrameStart (port : Fin 12) (s : State) : Host.Outcome State Fault Refusal :=
  onDev (fun d =>
    let n := port.val
    let c := d.cp n
    if !d.cpLive n || c.fv then d
    else
      let role := (d.portRole n).filter (fun x => d.enabled (ipPage x.1) && d.ipOk x.1
        && (if x.2 = 0 then (d.ip x.1).ready0 else (d.ip x.1).ready1))
      let (p, src) := role.getD (7, 0)
      let pv (f : Nat → Nat → Fld) : Nat := d.v (f p src)
      let fr : CFrame :=
        { port := n, num := d.g (F.cp_FRAME_COUNT n), sec := d.time.sec, ns := d.time.ns, pipe := p, src := src, width := d.v (F.cp_CP_SIZE_WIDTH n),
          height := d.v (F.cp_CP_SIZE_HEIGHT n), tmo := d.v (F.cp_FRAME_TMO n),
          pixBits := (match d.v (F.cp_CP_CTRL_PIX_BITS n) with | 0 => 8 | 1 => 10 | 2 => 12 | _ => 16),
          par := if p = 7 then [] else [pv F.ips_BLACK, pv F.ips_THRESH, pv F.ips_ROI_X0, pv F.ips_ROI_Y0, pv F.ips_ROI_W, pv F.ips_ROI_H,
                                        pv F.ips_SPAT_AMIN, pv F.ips_SPAT_AMAX],
          dpc := if p = 7 then [] else if src = 0 then (d.ip p).dpc0 else (d.ip p).dpc1 }
      let d := ((d.bumpW (F.cp_FRAME_COUNT n)).p (F.cp_CP_STAT_IN_FRAME n) 1).p (F.cp_CP_STAT_LINE n) 0
      let d := d.raise (cpPage n) 0
      let fifo := c.held.isSome
      let slot := if p ≠ 7 ∧ src = 1 ∧ !fifo then d.freeSlot p else none
      let (d, fr) := if p ≠ 7 ∧ src = 1 ∧ fifo then d.camFlag { fr with dropped := true } 0 else (d, { fr with slot := slot })
      let d := d.cpUpd n (fun c => { c with fv := true, frame := some fr, lvAt := d.now })
      if p = 7 then d else d.ipStat p) s

/-- CAMERA_LINE (R257, R261, R262, R265, R268): one run of LV activity, its raw pixels as sampled. -/
def execCameraLine (port : Fin 12) (pixels : List (BitVec 16)) (s : State) : Host.Outcome State Fault Refusal :=
  onMem (fun (d, m) =>
    let n := port.val
    match (d.cp n).frame with
    | none => (d, m)
    | some fr =>
      if !d.cpLive n then (d, m)
      else
        let d := d.cpUpd n (fun c => { c with lvAt := d.now })
        let put (d : Dev) (fr : CFrame) : Dev := d.cpUpd n (fun c => { c with frame := some fr })
        let beyond := decide (fr.height ≤ fr.seen)
        let valid := decide (fr.width ≤ pixels.length)
        let fr := { fr with seen := fr.seen + 1 }
        let (d, fr) := if beyond then d.camFlag fr 4 else if fr.width < pixels.length then d.camFlag fr 1
          else if valid then (d, fr) else d.camFlag fr 2
        if beyond || fr.dropped || bit fr.flags 0 then (put d fr, m)
        else if fr.src = 1 ∧ fr.pipe ≠ 7 ∧ fr.slot = none ∧ 8 ≤ fr.lines.length then let (d, fr) := d.camFlag fr 0; (put d fr, m)
        else
          let px := ((pixels.take fr.width).map (fun b => b.toNat % 2 ^ fr.pixBits * 2 ^ (16 - fr.pixBits)))
          let l : CLine := ⟨fr.rx, valid, if valid then px else []⟩
          let fr := { fr with rx := fr.rx + 1, nvalid := fr.nvalid + b2n valid }
          let d := d.p (F.cp_CP_STAT_LINE n) fr.rx
          if fr.slot.isSome then
            let (d, m) := ringWrite fr l (d, m)
            (put d { fr with lines := fr.lines ++ [{ l with px := [] }] }, m)
          else
            let d := put d { fr with lines := fr.lines ++ [l] }
            if fr.pipe < 7 ∧ fr.src = 0 then
              (if (d.ip fr.pipe).vmBusy then d.bump (F.ip_IL_BUF_NOW fr.pipe) px.length else d.camRun fr.pipe, m)
            else (d, m)) s

/-- FRAME_END (R258, R261): FV becomes inactive; a port that does not sample its inputs has closed its frame before. -/
def execFrameEnd (port : Fin 12) (s : State) : Host.Outcome State Fault Refusal :=
  onDev (fun d =>
    (when (d.cpLive port.val) (fun d => d.camEnd port.val false) d).cpUpd port.val (fun c => { c with fv := false })) s

/-- FRAME_TIMEOUT (R259): no LV activity for FRAME_TMO µs; the port waits for FV inactive. -/
def execFrameTimeout (port : Fin 12) (s : State) : Host.Outcome State Fault Refusal :=
  onDev (fun d =>
    when (decide ((d.cp port.val).lvAt + 500 * (((d.cp port.val).frame.map (·.tmo)).getD 0) ≤ d.now)) (fun d => d.camEnd port.val true) d) s

/-- PCLK_PRESENT falls; an open frame closes under the timeout rule (R259). -/
def Dev.pclkFall (d : Dev) (n : Nat) : Dev :=
  when (d.on (F.cp_CP_STAT_PCLK_PRESENT n)) (fun d =>
    (((d.p (F.cp_CP_STAT_PCLK_PRESENT n) 0).p (F.cp_PCLK_KHZ n) 0).raise (cpPage n) 8).camEnd n true) d

/-- A port with ENABLE = 0 ignores its inputs (R279): it sees no PCLK edge any more, and DESIGN CHOICE (log 96) the fall comes with the write. -/
def Dev.cpDisable (d : Dev) (n : Nat) : Dev := (d.pclkFall n).cpUpd n (fun c => { c with fv := false })

/-- PCLK_LOST (R259): no PCLK edge for 1 µs. -/
def execPclkLost (port : Fin 12) (s : State) : Host.Outcome State Fault Refusal :=
  onDev (fun d => when (d.enabled (cpPage port.val)) (fun d => d.pclkFall port.val) d) s

/-- PCLK_PRESENT (R259): PCLK edges are seen again, at the measured rate; a port with ENABLE = 0 ignores them (R279). -/
def execPclkPresent (port : Fin 12) (khz : BitVec 18) (s : State) : Host.Outcome State Fault Refusal :=
  onDev (fun d => when (d.enabled (cpPage port.val))
    (fun d => (d.p (F.cp_CP_STAT_PCLK_PRESENT port.val) 1).p (F.cp_PCLK_KHZ port.val) khz.toNat) d) s

/-- VM_FRAME_TAKE (R265, R267): the pipeline takes the oldest via-memory frame; a line that the ring read finds uncorrectable is invalid. -/
def execVmFrameTake (pipe : Fin 7) (s : State) : Host.Outcome State Fault Refusal :=
  onRead (fun d => match (d.ip pipe.val).ring with
    | [] => []
    | fr :: _ => fr.lines.map (fun l => (d.ringBase pipe.val + fr.slot.getD 0 * 0x100000 + l.idx * fr.width * 2, 2 * fr.width))) (fun m d =>
    let p := pipe.val
    let t := d.ip p
    let inFrame := d.on (F.ip_IP_SRC_IL_EN p) && (d.cp (d.g (F.ip_IP_SRC_IL_PORT p))).frame.isSome
    match t.ring with
    | [] => d
    | fr :: rest =>
      if inFrame || t.vmBusy || !d.ipOk p then d
      else
        let base := d.ringBase p + fr.slot.getD 0 * 0x100000
        let (d, lines) := fr.lines.foldl (fun (r : Dev × List CLine) l =>
          if !l.valid then (r.1, r.2 ++ [l])
          else
            let a := base + l.idx * fr.width * 2
            let (bad, d) := r.1.dramRead 1 a (2 * fr.width)
            (d, r.2 ++ [if bad then { l with valid := false } else { l with px := (List.range fr.width).map (fun i => memLE m (a + 2 * i) 2) }])) (d, [])
        let fr := { fr with lines := lines, nvalid := (lines.filter (·.valid)).length }
        ((d.ipUpd p (fun t => { t with ring := rest, wait := t.wait ++ [fr] })).camRun p).ipStat p) s

/-- RING_SLOT_CLAIM (R268): a via-memory frame that waits, open or closed, claims a slot that has become free and leaves the FIFO. -/
def execRingSlotClaim (pipe : Fin 7) (s : State) : Host.Outcome State Fault Refusal :=
  onMem (fun (d, m) =>
    let p := pipe.val
    let n := d.vmPort p
    let c := d.cp n
    let waits (x : CFrame) : Bool := decide (x.pipe = p ∧ x.src = 1 ∧ x.slot = none) && !x.dropped
    match d.freeSlot p with
    | none => (d, m)
    | some k =>
      if !d.ipOk p then (d, m)
      else
        let move (fr : CFrame) (r : Dev × List Host.Cell) : (Dev × List Host.Cell) × CFrame :=
          let fr := { fr with slot := some k }
          (fr.lines.foldl (fun r l => ringWrite fr l r) r, { fr with lines := fr.lines.map (fun l => { l with px := [] }) })
        match c.held with
        | some fr =>
          if waits fr then
            let ((d, m), fr) := move fr (d, m)
            (((d.cpUpd n (fun c => { c with held := none })).ipUpd p (fun t => { t with ring := t.ring ++ [fr] })).ipStat p, m)
          else (d, m)
        | none => match c.frame with
          | some fr =>
            if waits fr then
              let ((d, m), fr) := move fr (d, m)
              ((d.cpUpd n (fun c => { c with frame := some fr })).ipStat p, m)
            else (d, m)
          | none => (d, m)) s

/-! ### Stages (R270 to R272) -/

/-- Stage 1: a listed pixel takes the floor of the mean of the nearest unlisted ones at its sides. -/
def dpcFix (cols : List Nat) (px : List Nat) : List Nat :=
  px.zipIdx.map (fun (v, x) =>
    if x ∉ cols then v
    else
      let l := (List.range x).reverse.find? (fun i => decide (i ∉ cols))
      let r := ((List.range (px.length - x - 1)).map (· + x + 1)).find? (fun i => decide (i ∉ cols))
      match l, r with
      | some i, some j => (nth px i + nth px j) / 2
      | some i, none => nth px i
      | none, some j => nth px j
      | none, none => v)

/-- A blob: pixels, sums of coordinates, bounding box, first pixel in raster order. -/
structure Blob where
  area : Nat := 0
  sx : Nat := 0
  sy : Nat := 0
  x0 : Nat := 0
  x1 : Nat := 0
  y0 : Nat := 0
  y1 : Nat := 0
  first : Nat × Nat := (0, 0)
  deriving DecidableEq, Repr

/-- Two blobs that touch are one. -/
def Blob.join (a b : Blob) : Blob :=
  { area := a.area + b.area, sx := a.sx + b.sx, sy := a.sy + b.sy, x0 := min a.x0 b.x0, x1 := max a.x1 b.x1, y0 := min a.y0 b.y0,
    y1 := max a.y1 b.y1, first := if a.first.1 < b.first.1 ∨ (a.first.1 = b.first.1 ∧ a.first.2 ≤ b.first.2) then a.first else b.first }

/-- Blob analysis in progress: the labels of the line above (0 dark, 1 bright without a label), the blobs by label, what merged labels are
called now, the next label, whether labels ran out. -/
structure BlobSt where
  prev : List Nat := []
  blobs : Tab Blob := []
  names : Tab Nat := []
  next : Nat := 2
  limit : Bool := false
  deriving DecidableEq, Repr

/-- The present name of a label. -/
def BlobSt.name (b : BlobSt) (l : Nat) : Nat := let n := Tab.at 0 b.names l; if n = 0 then l else n

/-- Label `g` becomes label `k`. -/
def BlobSt.merge (b : BlobSt) (k g : Nat) : BlobSt :=
  if k = g then b
  else { b with blobs := Tab.set {} (Tab.upd {} b.blobs k (fun x => x.join (Tab.at {} b.blobs g))) g {},
                names := Tab.set 0 (b.names.map (fun e => if e.2 = g then (e.1, k) else e)) g k }

/-- One bright pixel at (x, y) with the labels of its four neighbours before it (R270 stage 4, R272: at most 255 labels after merges). -/
def BlobSt.pixel (b : BlobSt) (x y : Nat) (nb : List Nat) : BlobSt × Nat :=
  let one : Blob := ⟨1, x, y, x, x, y, y, (y, x)⟩
  match ((nb.filter (fun l => decide (2 ≤ l))).map b.name).eraseDups with
  | [] =>
    if 1 ∈ nb then (b, 1)
    else if b.blobs.length < 255 then ({ b with blobs := Tab.set {} b.blobs b.next one, next := b.next + 1 }, b.next)
    else ({ b with limit := true }, 1)
  | l :: rest =>
    let k := rest.foldl min l
    let b := (l :: rest).foldl (fun b g => b.merge k g) b
    ({ b with blobs := Tab.upd {} b.blobs k (fun x => x.join one) }, k)

/-- One line of the region: `none` is a line that is dark throughout (R262). -/
def BlobSt.line (b : BlobSt) (thresh y : Nat) (row : Option (List Nat)) : BlobSt :=
  match row with
  | none => { b with prev := [] }
  | some px =>
    let (b, cur) := px.zipIdx.foldl (fun (r : BlobSt × List Nat) e =>
      if e.1 < thresh then (r.1, 0 :: r.2)
      else
        let x := e.2
        let (b, l) := r.1.pixel x y [r.2.headD 0, if x = 0 then 0 else nth r.1.prev (x - 1), nth r.1.prev x, nth r.1.prev (x + 1)]
        (b, l :: r.2)) (b, [])
    { b with prev := cur.reverse }

/-- The lines of the region after stages 1 to 3, from its first line on. -/
def CFrame.region (fr : CFrame) : List (Option (List Nat)) :=
  let p := nth fr.par
  let all := decide (p 4 = 0 ∨ p 5 = 0)
  let x0 := if all then 0 else p 2
  let y0 := if all then 0 else p 3
  let x1 := if all then fr.width else min fr.width (p 2 + p 4)
  let y1 := if all then fr.height else min fr.height (p 3 + p 5)
  ((List.range (y1 - y0)).map (· + y0)).map (fun y =>
    match fr.lines.find? (fun l => l.idx == y && l.valid) with
    | none => none
    | some l =>
      let cols := (fr.dpc.filter (fun w => w / 65536 == y)).map (· % 65536)
      some ((((dpcFix cols l.px).map (fun v => v - p 0)).drop x0).take (x1 - x0)))

/-- A count saturates at 0x7FFF_FFFF (R273). -/
def sat31 (n : Nat) : Nat := min n 0x7FFFFFFF

/-- The lowest bin whose cumulative count reaches `pct` per cent (R270 stage 6). -/
def percentile (px : List Nat) (pct : Nat) : Nat :=
  if px = [] then 0
  else ((List.range 256).find? (fun b => decide (pct * px.length ≤ 100 * (px.filter (fun v => decide (v / 256 ≤ b))).length))).getD 255 * 256

/-- The 16 words of a frame's feature record (R273) for the logical index `logical`, and whether labels ran out. -/
def CFrame.record (fr : CFrame) (logical : Nat) : List Nat × Bool :=
  let p := nth fr.par
  let rows := if fr.dropped then [] else fr.region
  let px := (rows.filterMap id).flatten
  let b := (rows.zipIdx).foldl (fun (b : BlobSt) e => b.line (p 1) e.2 e.1) {}
  let blobs := b.blobs.map (·.2)
  let b0 := blobs.foldl (fun (m : Blob) x =>
    if m.area < x.area ∨ (m.area = x.area ∧ (x.first.1 < m.first.1 ∨ (x.first.1 = m.first.1 ∧ x.first.2 < m.first.2))) then x else m) {}
  let spat := (blobs.filter (fun x => decide (x ≠ b0 ∧ p 6 ≤ x.area ∧ x.area ≤ p 7))).length
  let cov := if fr.height = 0 then 0 else fr.nvalid * 100 / fr.height
  let flags := fr.flags + (if b.limit then 64 else 0)
  let mid (n : Nat) : Nat := if b0.area = 0 then 0 else (rdiv (16 * n : Nat) b0.area).toNat % 65536
  let sides (lo hi : Nat) : Nat := if b0.area = 0 then 0 else hi - lo + 1
  let w := [2 ^ 28 + fr.port * 2 ^ 24 + logical * 2 ^ 20 + fr.src * 2 ^ 19 + cov * 2 ^ 12 + flags, fr.num, fr.ns, fr.sec % 2 ^ 32,
    fr.nvalid * 65536 + fr.rx, sat31 px.length, sat31 (px.filter (fun v => decide (p 1 ≤ v))).length, sat31 blobs.length, sat31 spat,
    sat31 b0.area, mid b0.sy * 65536 + mid b0.sx, sides b0.y0 b0.y1 * 65536 + sides b0.x0 b0.x1,
    sat31 (px.foldl (fun n v => n + v / 256) 0), percentile px 99 * 65536 + percentile px 50,
    (px.foldl max 0) * 65536 + px.foldl min (px.headD 0)]
  (w ++ [crc32 (w.flatMap (fun x => (leBytes 4 x).map (·.toNat)))], b.limit)

/-- A pipeline writes the first `n` of its waiting records, each with one burst to entry REC_WR of its record ring (R275). -/
def recFlush (p : Nat) : Nat → Dev × List Host.Cell → Dev × List Host.Cell
  | 0, r => r
  | n + 1, (d, m) =>
    match (d.ip p).recQ with
    | [] => (d, m)
    | w :: rest =>
      let k := d.g (F.ip_REC_WR p)
      let a := d.g (F.ip_REC_BASE_LO p) * 64 + d.g (F.ip_REC_BASE_HI p) * 2 ^ 32 + 64 * k
      let (d, m) := dramWrite 1 a (w.flatMap (fun x => leBytes 4 x)) (d, m)
      recFlush p n (((d.p (F.ip_REC_WR p) ((k + 1) % 2 ^ d.g (F.ip_REC_LOG2 p))).bumpW (F.ip_REC_COUNT p)).ipUpd p
        (fun t => { t with recQ := rest }), m)

/-- DRAM has taken as many of a pipeline's waiting records as it got to: a free number (log 95). -/
def recDrain (p : Nat) (r : Dev × List Host.Cell) : Dev × List Host.Cell :=
  match (r.1.ip p).recQ with
  | [] => r
  | q =>
    let (x, d) := r.1.draw
    recFlush p (x % (q.length + 1)) (d, r.2)

/-- The DRAM copy of a complete record (R275): dropped where 16 wait already. -/
def Dev.recPut (d : Dev) (p : Nat) (w : List Nat) : Dev :=
  if d.g (F.ip_REC_LOG2 p) = 0 then d
  else if 16 ≤ (d.ip p).recQ.length then d.bump (F.ip_REC_DROP p)
  else d.ipUpd p (fun t => { t with recQ := t.recQ ++ [w] })

/-- A complete record counts for a power loop from the coming boundary, or where it completed less than 300 ns before it from that one or the next (R275,
01 R536): which, is free. A later record never takes effect before an earlier one. -/
def Dev.ffPut (d : Dev) (k : Nat) (v : Int) : Dev :=
  if !d.isLate then d.plUpd k (fun t => { t with ffNew := some v })
  else
    let (x, d) := d.draw
    d.plUpd k (fun t => if x % 2 = 1 then { t with ffLate := some v } else { t with ffNew := some v, ffLate := none })

/-- FEATURE_RECORD_COMPLETE (R248, R265, R269, R275): the oldest frame's record completes, crosses to the power loops and is copied to the
record ring. The end of a via-memory frame frees its slot and empties the in-line buffer. -/
def execFeatureRecordComplete (pipe : Fin 7) (s : State) : Host.Outcome State Fault Refusal :=
  onMem (fun (d, m) =>
    let p := pipe.val
    match (d.ip p).wait with
    | [] => (d, m)
    | fr :: rest =>
      if !d.ipOk p then (d, m)
      else
        let lg := d.g (F.ip_IP_MAP_LOGICAL p)
        let (w, limit) := fr.record lg
        let d := d.ipUpd p (fun t => { t with wait := rest })
        let d := when (fr.src == 1 && !fr.dropped) (fun d => (d.p (F.ip_IL_BUF_NOW p) 0).camRun p) d
        let d := when limit (fun d => (d.flag (F.ip_IP_FLAGS_BLOB_LIMIT p)).raise (ipPage p) 2) d
        let cov := bits (nth w 0) 18 12
        let d := forN 56 (fun k d =>
          when (decide (d.v (pf F.pl_FF_SRC_EN k) = 1 ∧ d.v (pf F.pl_FF_SRC_PIPE k) = lg ∧ d.v (pf F.pl_FF_SRC_COV_MIN k) ≤ cov)
              && !bit (nth w 0) 0) (fun d =>
            let v := sx 32 (nth w (d.v (pf F.pl_FF_SRC_WORD k)))
            let lim : Int := d.v (pf F.pl_FF_LIM k)
            d.ffPut k (clampI (-lim) lim (rdiv (d.vi (pf F.pl_FF_GAIN k) * (v - d.vi (pf F.pl_FF_REF k))) (2 ^ 24)))) d) d
        let d := (d.ipStat p).raise (ipPage p) 0
        let (d, m) := recDrain p (d, m)
        (d.recPut p w, m)) s

/-! ### Faults and the spare (R277, R278) -/

/-- A pipeline stops at once (R277): no frame of it completes, the open frames of its ports go on in the CP pages alone, and none writes its ring. -/
def Dev.ipStop (d : Dev) (p : Nat) : Dev :=
  let d := d.ipUpd p (fun t => { t with wait := [], ring := [] })
  let d := forN 12 (fun n d => d.cpUpd n (fun c =>
    { c with held := c.held.filter (fun x => x.pipe != p),
             frame := c.frame.map (fun x => if x.pipe = p then { x with pipe := 7, slot := none, lines := [] } else x) })) d
  ((d.flag (F.ip_IP_FLAGS_FAULT p)).p (F.ip_IP_STAT_FAILED p) 1).p (F.ip_IL_BUF_NOW p) 0

/-- DPC_LOADED (R271): the copy of a committed defect list completes; a bad list is refused and the previous one stays in force. -/
def execDpcLoaded (pipe : Fin 7) (source : Fin 2) (s : State) : Host.Outcome State Fault Refusal :=
  onRead (fun d => [(d.v (F.ips_DPC_BASE_LO pipe.val source.val) * 64 + d.v (F.ips_DPC_BASE_HI pipe.val source.val) * 2 ^ 32,
    4 * d.v (F.ips_DPC_COUNT pipe.val source.val))]) (fun m d =>
    let p := pipe.val
    let b := source.val
    if d.g (F.ips_DPC_STAT_STATE p b) ≠ 1 then d
    else
      let n := d.v (F.ips_DPC_COUNT p b)
      let a := d.v (F.ips_DPC_BASE_LO p b) * 64 + d.v (F.ips_DPC_BASE_HI p b) * 2 ^ 32
      let (bad, d) := d.dramRead 1 a (4 * n)
      let l := (List.range n).map (fun i => mem32 m (a + 4 * i))
      let ok := !bad && decide (n ≤ 1024) && l.all (fun w => decide (w / 65536 < 4096 ∧ w % 65536 < 4096))
        && (List.zip l (l.drop 1)).all (fun e => decide (e.1 < e.2))
      let d := d.ipUpd p (fun t => if b = 0 then { t with ready0 := true } else { t with ready1 := true })
      if !ok then (d.p (F.ips_DPC_STAT_STATE p b) 3).flag (F.ip_IP_FLAGS_DPC_REFUSED p)
      else
        let d := d.ipUpd p (fun t => if b = 0 then { t with dpc0 := l } else { t with dpc1 := l })
        ((d.p (F.ips_DPC_STAT_STATE p b) 2).p (F.ips_DPC_STAT_COUNT p b) n).raise (ipPage p) 6) s

/-- CP.CNT_CLEAR (R279). -/
def Dev.cpCntClear (d : Dev) (n : Nat) : Dev := ((d.setReg (cpPage n + 0x58) 0).setReg (cpPage n + 0x5C) 0).setReg (cpPage n + 0x60) 0

end Sys2Proof.Machine
end

