-- ==== Sys2Proof/Machine/Units.lean ====
section
/-!
DEFINITION. Unit redundancy, spares and health (14): findings, bleats, failover, recovery, reversion, the remap queue, the state words and the
health report. The model holds one copy of the real-time plane: the two units compute the same (01 R26), so what can differ between them reaches
the model as the operands of the tests and comparisons (log 16).
-/
namespace Sys2Proof.Machine

/-- The UNIT page (R428). -/
def unitPage : Nat := 0x3000

/-! ### Unit states (R397, R410) -/

/-- The state of a unit (R397). -/
def Dev.unitSt (d : Dev) (u : Nat) : Nat := if u = 0 then d.g F.unit_UNIT_STAT_A_STATE else d.g F.unit_UNIT_STAT_B_STATE
/-- The active unit. -/
def Dev.activeUnit (d : Dev) : Nat := d.g F.unit_UNIT_STAT_ACTIVE
/-- The other unit. -/
def Dev.standbyUnit (d : Dev) : Nat := 1 - d.activeUnit
/-- The reconciled word of a unit. -/
def Dev.unitWord (d : Dev) (u : Nat) : Nat := if u = 0 then d.g F.unit_UNIT_STAT_A_WORD else d.g F.unit_UNIT_STAT_B_WORD
/-- The standby is eligible (R410): in STANDBY with its reconciled word not DOWN. -/
def Dev.standbyOk (d : Dev) : Bool := d.unitSt d.standbyUnit == 1 && decide (d.unitWord d.standbyUnit < 2)
/-- REDUNDANT shows whether the standby is eligible. -/
def Dev.unitShow (d : Dev) : Dev := d.p F.unit_UNIT_STAT_REDUNDANT (b2n d.standbyOk)

/-- A unit's recovery record. -/
def Dev.unitRec (d : Dev) (u : Nat) : UnitRec := if u = 0 then d.units.recA else d.units.recB
/-- Set a unit's recovery record. -/
def Dev.setRec (d : Dev) (u : Nat) (r : UnitRec) : Dev :=
  { d with units := if u = 0 then { d.units with recA := r } else { d.units with recB := r } }

/-- A unit enters a state; its recovery begins anew and a health report falls due (R426). -/
def Dev.setUnit (d : Dev) (u st : Nat) : Dev :=
  let d := d.p (if u = 0 then F.unit_UNIT_STAT_A_STATE else F.unit_UNIT_STAT_B_STATE) st
  let d := d.setRec u { since := d.time.frame }
  ({ d with units := { d.units with healthDue := true } }).unitShow

/-- A unit enters FAILED (R397). A directed pass that a divergence of the frame just ended has started does not run in it: its recovery covers the same
ground (the collisions of R426). -/
def Dev.failUnit (d : Dev) (u : Nat) : Dev :=
  if d.unitSt u = 2 then d
  else
    let spare := decide (d.units.directed = 2 ∧ d.units.directedAt + 1 = d.time.frame)
    let d := { d with units := { d.units with spared := if spare then u :: d.units.spared else d.units.spared } }
    (d.setUnit u 2).raise unitPage 2

/-! ### The remap queue (R418 to R421) -/

/-- The spares of a kind, in order (R419); an SRAM spare is 4 times its array plus its row. -/
def sparesOf (kind from_ : Nat) : List Nat :=
  match kind with
  | 0 => (List.range 16).map (144 + ·)
  | 1 => (List.range 8).map (48 + ·)
  | 2 => [6]
  | _ => (List.range 4).map (4 * from_ + ·)

/-- Free spares of a kind. -/
def Dev.freeSpares (d : Dev) (kind from_ : Nat) : List Nat :=
  (sparesOf kind from_).filter (fun s => !d.units.taken.contains (kind, s) && !d.units.bad.contains (kind, s))

/-- An entry that has not committed. -/
def Dev.entryOpen (d : Dev) (i : Nat) : Bool := let s := d.g (F.unit_REMAP_Qi_STATE i); s == 1 || s == 2 || s == 4

/-- The spare counts (R428). -/
def Dev.spareShow (d : Dev) : Dev :=
  let d := d.p F.unit_SPARE_STAT_LS_FREE (d.freeSpares 0 0).length
  let d := d.p F.unit_SPARE_STAT_PL_FREE (d.freeSpares 1 0).length
  let d := d.p F.unit_SPARE_STAT_IP_FREE (d.freeSpares 2 0).length
  let d := d.p F.unit_SPARE_STAT_PENDING (idxs 16 d.entryOpen).length
  d.p F.unit_SRAM_SPARE_FREE (1536 - ((d.units.taken ++ d.units.bad).filter (fun x => x.1 == 3)).eraseDups.length)

/-- Give an entry the lowest-numbered free spare of its kind, or NO_SPARE (R418); kind 3 still prepares, the others are ready (R419). -/
def Dev.chooseSpare (d : Dev) (i : Nat) : Dev :=
  let kind := d.g (F.unit_REMAP_Qi_KIND i)
  match d.freeSpares kind (d.g (F.unit_REMAP_Qi_FROM i)) with
  | [] => ((d.p (F.unit_REMAP_Qi_STATE i) 4).p (F.unit_REMAP_Qi_TO i) 0).raise unitPage 10
  | s :: _ =>
    let d := (d.p (F.unit_REMAP_Qi_STATE i) (if kind = 3 then 1 else 2)).p (F.unit_REMAP_Qi_TO i) (if kind = 3 then s % 4 else s)
    { d with units := { d.units with taken := (kind, s) :: d.units.taken,
                                     entries := Tab.upd {} d.units.entries i (fun e => { e with at_ := d.now }) } }

/-- The entry that retires this resource, if one is open. -/
def Dev.entryOf (d : Dev) (kind from_ row : Nat) : Option Nat :=
  (List.range 16).find? (fun i => d.entryOpen i && d.g (F.unit_REMAP_Qi_KIND i) == kind && d.g (F.unit_REMAP_Qi_FROM i) == from_
    && d.g (F.unit_REMAP_Qi_ROW i) == row)

/-- Queue a remap (R418): in an empty entry, or the first committed one; a seventeenth is refused and recorded in ERR_INFO. `unit` is the unit of the
finding, where one of the two made it; `host`: a request of the host. -/
def Dev.queueRemap (d : Dev) (kind from_ row : Nat) (unit : Option Nat) (host : Bool) : Dev :=
  let own (d : Dev) (i : Nat) : Dev :=
    { d with units := { d.units with entries := Tab.upd {} d.units.entries i (fun e =>
                                     { e with owners := match unit with | some u => if e.owners.contains u then e.owners else u :: e.owners | none => e.owners,
                                              host := e.host || host }) } }
  match d.entryOf kind from_ row with
  | some i => own d i
  | none =>
    match ((List.range 16).find? (fun i => d.g (F.unit_REMAP_Qi_STATE i) == 0)).orElse
        (fun _ => (List.range 16).find? (fun i => d.g (F.unit_REMAP_Qi_STATE i) == 3)) with
    | none => d.err unitPage 0x82 0x7C (unitPage + 0x7C)
    | some i =>
      let d := { d with units := { d.units with entries := Tab.set {} d.units.entries i {} } }
      let d := ((d.p (F.unit_REMAP_Qi_KIND i) kind).p (F.unit_REMAP_Qi_FROM i) from_).p (F.unit_REMAP_Qi_ROW i) row
      (((own d i).raise unitPage 8).chooseSpare i).spareShow

/-- The spare that an entry has chosen, as `sparesOf` counts it. -/
def Dev.entrySpare (d : Dev) (i : Nat) : Nat :=
  if d.g (F.unit_REMAP_Qi_KIND i) = 3 then 4 * d.g (F.unit_REMAP_Qi_FROM i) + d.g (F.unit_REMAP_Qi_TO i) else d.g (F.unit_REMAP_Qi_TO i)

/-- A spare fails a test: it is bad, and an entry that has chosen it and not committed chooses again (R418). -/
def Dev.spareBad (d : Dev) (kind s : Nat) : Dev :=
  let d := { d with units := { d.units with bad := if d.units.bad.contains (kind, s) then d.units.bad else (kind, s) :: d.units.bad,
                                            taken := d.units.taken.filter (· != (kind, s)) } }
  ((List.range 16).foldl (fun d i =>
    if d.entryOpen i && d.g (F.unit_REMAP_Qi_STATE i) != 4 && d.g (F.unit_REMAP_Qi_KIND i) == kind && d.entrySpare i == s
    then d.chooseSpare i else d) d).spareShow

/-- Words of a block copied to another: of the RWS fields the value in force, of the others that of the register. -/
def Dev.copyWords (d : Dev) (old new : Nat) (offs : List Nat) : Dev :=
  offs.foldl (fun d o =>
    let rws := match pageOf old with | some (p, _) => accMask (rowsAt p.pg ((old + o) % 0x1000)) (fun x => x == .rws) | none => 0
    let v := d.liveReg (old + o)
    (d.setReg (new + o) (Word.mix (d.reg (old + o)) (BitVec.ofNat 32 rws) v)).setLive (new + o) v) d
/-- Writes that wait for their commit in words of a block wait in the other's too (07 R253, 08 R278). -/
def Dev.copyPend (d : Dev) (old new : Nat) (offs : List Nat) : Dev :=
  let moved (w : WPend) : Option WPend := if offs.any (fun o => old + o == w.addr) then some { w with addr := w.addr - old + new } else none
  let d := offs.foldl (fun d o => d.setReg (new + o) (d.reg (old + o))) d
  { d with regs := { d.regs with pend := d.regs.pend ++ d.regs.pend.filterMap moved } }

/-- A spare loop slot takes a failed slot's place (04 R153, R154): head and axis, sets and fields, mode and FE_COUNT, the observer; the primary law
is initialised again, whatever law is in force. The limiter and the commands of the axis go on. A write that waits for its commit stays with the failed
slot, where it has no effect (R154). -/
def Dev.loopRemap (d : Dev) (old new : Nat) : Dev :=
  let base (s : Nat) : Nat := 0x40080 + 0x1000 * (s / 16) + 0xF8 * (s % 16)
  let d := d.copyWords (base old) (base new) ([0] ++ (List.range 5).map (fun i => 0x10 + 4 * i) ++ (List.range 47).map (fun i => 0x3C + 4 * i))
  let h := d.g (sf F.slot_SLOT_MAP_HEAD old)
  let a := d.g (sf F.slot_SLOT_MAP_AXIS old)
  let d := ((d.p (sf F.slot_SLOT_MAP_HEAD new) h).p (sf F.slot_SLOT_MAP_AXIS new) a).p (sf F.slot_SLOT_MAP_MAPPED new) 1
  let d := (d.p (sf F.slot_SLOT_STAT_MODE new) (d.mode old)).p (sf F.slot_SLOT_STAT_FE_COUNT new) (d.g (sf F.slot_SLOT_STAT_FE_COUNT old))
  let d := (d.p (sf F.slot_SLOT_MAP_MAPPED old) 0).flag (sf F.slot_SLOT_FLAGS_REMAPPED old)
  let o := d.slot old
  let d := d.slotUpd new (fun n => { o with reinit := true, initAll := true, tIdx := n.tIdx, tTrig := n.tTrig, tPre := n.tPre,
                                            tNode := n.tNode, tForce := n.tForce, tBurst := n.tBurst, tBurstIdx := n.tBurstIdx })
  d.p (if a = 0 then F.hd_SERVO_SLOTS_X h else if a = 1 then F.hd_SERVO_SLOTS_Y h else F.hd_SERVO_SLOTS_F h) new

/-- A spare power-loop slot takes a failed slot's place (07 R253). -/
def Dev.powerRemap (d : Dev) (old new : Nat) : Dev :=
  let base (s : Nat) : Nat := 0x50080 + 0x1000 * (s / 14) + 0x118 * (s % 14)
  let offs := [0] ++ (List.range 8).map (fun i => 0x10 + 4 * i) ++ (List.range 32).map (fun i => 0x48 + 4 * i)
  let d := (d.copyWords (base old) (base new) offs).copyPend (base old) (base new) offs
  let h := d.g (pf F.pl_PL_MAP_HEAD old)
  let d := (d.p (pf F.pl_PL_MAP_HEAD new) h).p (pf F.pl_PL_MAP_MAPPED new) 1
  let d := ((d.p (pf F.pl_PL_MAP_MAPPED old) 0).flag (pf F.pl_PL_FLAGS_REMAPPED old)).raise (plPage old) 6
  let o := d.pls old
  let d := d.plUpd new (fun _ => { carryDp := o.carryDp, carryCtx := o.carryCtx, carryFrame := o.carryFrame, ff := o.ff, ffNew := o.ffNew, ffLate := o.ffLate, age := o.age })
  d.p (F.hd_PL_SLOT h) new

/-- The spare takes a failed pipeline's place at a layer boundary (08 R278); records that wait for their write go with REC_WR. -/
def Dev.ipRemap (d : Dev) (old new : Nat) : Dev :=
  let d := [0x40, 0x50, 0x54, 0x58, 0x5C, 0x60, 0x64].foldl (fun d o => d.setReg (ipPage new + o) (d.reg (ipPage old + o))) d
  let offs := (List.range 8).flatMap (fun i => [0x80 + 4 * i, 0xC0 + 4 * i])
  let d := (d.copyWords (ipPage old) (ipPage new) offs).copyPend (ipPage old) (ipPage new) offs
  let q := (d.ip old).recQ
  let d := (d.p (F.ip_IP_MAP_LOGICAL new) (d.g (F.ip_IP_MAP_LOGICAL old))).p (F.ip_IP_MAP_MAPPED new) 1
  let d := (d.p (F.ip_IP_MAP_MAPPED old) 0).flag (F.ip_IP_FLAGS_REMAPPED old)
  let d := (d.p (F.ips_DPC_STAT_STATE new 0) 1).p (F.ips_DPC_STAT_STATE new 1) 1
  let d := (d.ipUpd new (fun _ => { ready0 := false, ready1 := false, recQ := q })).ipUpd old (fun t => { t with recQ := [] })
  ((d.raise (ipPage old) 5).cpRoles).ipStat new

/-- The row decoder of an array selects the spare row in place of the failed one (R419). Every write of the row has been made to the spare too and the
patrol has copied the rest, so the array reads as before, but that the row's corrected words no longer carry their errors (log 118). -/
def Dev.rowRemap (d : Dev) (i : Nat) : Dev :=
  let a := d.g (F.unit_REMAP_Qi_FROM i)
  let r := d.g (F.unit_REMAP_Qi_ROW i)
  let l := (Tab.at {} d.units.entries i).nodes.filter (fun k => Tab.at 0 d.gridErr k == 1)
  let d := { d with gridErr := l.foldl (fun t k => Tab.set 0 t k 0) d.gridErr,
                    units := { d.units with rows := (a, r, d.g (F.unit_REMAP_Qi_TO i)) :: d.units.rows.filter (fun e => e.1 != a || e.2.1 != r) } }
  d.bump F.unit_SRAM_SPARE_USED

/-- Ready entries commit at a layer boundary (R420): those ready before its cycle 0, with AUTO, or released by REMAP_GO. -/
def Dev.remapCommit (d : Dev) : Dev :=
  ((List.range 16).foldl (fun d i =>
    let e := Tab.at {} d.units.entries i
    if d.g (F.unit_REMAP_Qi_STATE i) = 2 ∧ e.at_ < d.time.frame * 1250 ∧ (d.on F.unit_REMAP_CTRL_AUTO || e.go) then
      let old := d.g (F.unit_REMAP_Qi_FROM i)
      let new := d.g (F.unit_REMAP_Qi_TO i)
      let d := match d.g (F.unit_REMAP_Qi_KIND i) with
        | 0 => d.loopRemap old new
        | 1 => d.powerRemap old new
        | 2 => d.ipRemap old new
        | _ => d.rowRemap i
      let d := (d.p (F.unit_REMAP_Qi_STATE i) 3).raise unitPage 9
      { d with units := { d.units with healthDue := true } }
    else d) d).spareShow

/-! ### Findings (R401 to R404) -/

/-- The boundary toward which a finding of the present cycle counts: the coming one when it is made by cycle 1,248 (R403). -/
def Dev.findDue (d : Dev) : Nat := if d.time.cycle ≤ 1248 then d.time.frame + 1 else d.time.frame + 2

/-- A finding that counts toward boundary `due` is recorded in LAST_FAIL and counted (R428); one in an SRAM row shows as class 3 (log 100). -/
def Dev.findingFor (d : Dev) (due u cls cause block index : Nat) (res : Option (Nat × Nat)) : Dev :=
  let d := d.bump (if u = 0 then F.unit_A_FAILS else F.unit_B_FAILS)
  let d := (d.p F.unit_LAST_FAIL_UNIT u).p F.unit_LAST_FAIL_CLASS (if cause = 3 then 3 else cls)
  let d := (d.p F.unit_LAST_FAIL_BLOCK block).p F.unit_LAST_FAIL_INDEX index
  { d with units := { d.units with finds := d.units.finds ++ [⟨u, cls, cause, res, due⟩] } }

/-- A finding of the present cycle (R403). -/
def Dev.finding (d : Dev) (u cls cause block index : Nat) (res : Option (Nat × Nat)) : Dev := d.findingFor d.findDue u cls cause block index res

/-- The row that a spare row of an array stands for, where it is in service. -/
def Dev.rowOf (d : Dev) (array spare : Nat) : Option Nat := (d.units.rows.find? (fun e => e.1 == array && e.2.2 == spare)).map (·.2.1)

/-- Is a failed test a finding (R401, R403): of a slot only where it serves a head, of a spare row only where it is in service. -/
def Dev.katCounts (d : Dev) (k : KatFail) : Bool :=
  match k.part with
  | .block _ => true
  | .sram .. => true
  | .spareRow a r => (d.rowOf a.val r.val).isSome
  | .loopSlot s => d.on (sf F.slot_SLOT_MAP_MAPPED s.val)
  | .powerSlot s => d.on (pf F.pl_PL_MAP_MAPPED s.val)

/-- An uncorrectable word in a row of a unit's own array: a finding and a remap candidate (R403, R404). -/
def Dev.sramFail (d : Dev) (u block array row : Nat) : Dev := (d.finding u 1 3 block array none).queueRemap 3 array row (some u) false
/-- A spare that serves nothing fails a test of a unit (R418, R415): it is bad at once, or, where the unit is in FAILED, when the unit leaves it; a failed
test of Unit A breaks its dwell. -/
def Dev.spareTest (d : Dev) (u kind s : Nat) : Dev :=
  if d.unitSt u = 2 then
    let r := d.unitRec u
    d.setRec u { r with spares := (kind, s) :: r.spares.filter (· != (kind, s)) }
  else
    let d := d.spareBad kind s
    if u = 0 then { d with units := { d.units with spareFail := some (d.units.spareFail.getD d.findDue) } } else d

/-- A failed test of a unit (R401, R403). A slot that has been remapped away is not tested. -/
def Dev.katFail (d : Dev) (u : Nat) (k : KatFail) : Dev :=
  let slot (kind s spare : Nat) (mapped : Bool) : Dev :=
    if mapped then d.finding u 2 5 k.block.toNat s (some (kind, s)) else if s < spare then d else d.spareTest u kind s
  match k.part with
  | .block i => d.finding u 1 2 k.block.toNat i.toNat none
  | .sram a r => d.sramFail u k.block.toNat a.val r.toNat
  | .spareRow a r => match d.rowOf a.val r.val with
    | some row => d.sramFail u k.block.toNat a.val row
    | none => d.spareTest u 3 (4 * a.val + r.val)
  | .loopSlot s => slot 0 s.val 144 (d.on (sf F.slot_SLOT_MAP_MAPPED s.val))
  | .powerSlot s => slot 1 s.val 48 (d.on (pf F.pl_PL_MAP_MAPPED s.val))

/-- KAT_PASS_DONE (R401): a full pass of the known-answer tests completes, with the tests that failed. -/
def execKatPassDone (unit : Fin 2) (fails : List KatFail) (s : State) : Host.Outcome State Fault Refusal :=
  onDev (fun d => fails.foldl (fun d k => d.katFail unit.val k) (d.bumpW (if unit.val = 0 then F.unit_A_PASSES else F.unit_B_PASSES))) s

/-- The rows with one corrected error in the present pass. -/
def Dev.setCe (d : Dev) (l : List (Nat × Nat × Nat)) : Dev := { d with units := { d.units with ce := l } }

/-- SRAM_PATROL_READ (R404): two corrected errors in one pass or one uncorrectable one make the row a remap candidate; the latter is also a finding of
the unit that owns the array. `owner` 2 is a shared array. -/
def execSramPatrolRead (owner : Fin 3) (array : Fin 384) (row : Word) (result : Fin 3) (last : Bool) (s : State) : Host.Outcome State Fault Refusal :=
  onDev (fun d =>
    let key := (owner.val, array.val, row.toNat)
    let again := d.units.ce.contains key
    let d := if result.val = 1 then d.setCe (if again then d.units.ce.filter (· != key) else key :: d.units.ce) else d
    let unit := if owner.val = 2 then none else some owner.val
    let d := match unit with | some u => when (result.val == 2) (fun d => d.finding u 1 3 0 array.val none) d | none => d
    let d := if result.val = 2 ∨ (result.val = 1 ∧ again) then d.queueRemap 3 array.val row.toNat unit false else d
    if last then d.setCe (d.units.ce.filter (fun k => k.1 != owner.val)) else d) s

/-! ### Output comparison (R399, R400) -/

/-- Whether a directed pass runs, and why. -/
def Dev.setDirected (d : Dev) (n : Nat) : Dev := { d with units := { d.units with directed := n } }

/-- A unit's frame guard (R402), judged at cycle 1,200: the finding counts toward the coming boundary. The outputs of a FAILED unit are ignored. -/
def Dev.frameGuard (d : Dev) (u : Nat) (bad : Bool) : Dev :=
  if bad && d.unitSt u != 2 then d.findingFor (d.time.frame + 1) u 1 1 0 0 none else d

/-- Is the standby compared in this frame (R399, R414). -/
def Dev.compared (d : Dev) : Bool :=
  d.unitSt d.standbyUnit == 1 || (d.unitSt d.standbyUnit == 3 && (d.unitRec d.standbyUnit).phase == 1)

/-- A divergence (R400): recorded; a directed pass begins, or a unit in SYNCING fails (R414). -/
def Dev.divergence (d : Dev) (item index : Nat) : Dev :=
  let d := (d.p F.unit_DIVERGE_INFO_FRAME (d.time.frame % 65536)).p F.unit_DIVERGE_INFO_ITEM item
  let d := ((d.p F.unit_DIVERGE_INFO_INDEX index).bump F.unit_DIVERGE_COUNT).raise unitPage 4 [d.time.frame % 2 ^ 32, item, index]
  if d.unitSt d.standbyUnit = 3 then d.failUnit d.standbyUnit
  else if d.units.directed = 0 then { d with units := { d.units with directed := 2, directedAt := d.time.frame, spared := [] } } else d

/-- The frame guards and the comparison of a frame, and whether the outputs diverged. -/
def Dev.unitChecks (d : Dev) (c : FrameCheck) : Dev × Bool :=
  let d := (d.frameGuard 0 c.guardA).frameGuard 1 c.guardB
  match c.diverge with
  | some x => if d.compared then (d.divergence x.1.val x.2.toNat, true) else (d, false)
  | none => (d, false)

/-- DIRECTED_PASS_DONE (R400): the findings of both units; a divergence that neither explains sends the standby to SYNCING. -/
def execDirectedPassDone (failsA failsB : List KatFail) (s : State) : Host.Outcome State Fault Refusal :=
  onDev (fun d =>
    if d.units.directed = 0 then d
    else
      let why := d.units.directed
      let spared := d.units.spared
      let failed := failsA.any d.katCounts || failsB.any d.katCounts || !spared.isEmpty
      let d : Dev := { d with units := { d.units with directed := 0, spared := [] } }
      let one (u : Nat) (fails : List KatFail) (d : Dev) : Dev :=
        if u ∈ spared then d else fails.foldl (fun d k => d.katFail u k) (d.bumpW (if u = 0 then F.unit_A_PASSES else F.unit_B_PASSES))
      let d := one 1 failsB (one 0 failsA d)
      if why = 2 ∧ !failed ∧ d.unitSt d.standbyUnit = 1 then
        (d.bump F.unit_UNEXPLAINED).setUnit d.standbyUnit 3
      else d) s

/-! ### Bleats (R405 to R409) -/

/-- Consecutive misses of a unit on a path. -/
def Dev.misses (d : Dev) (u p : Nat) : Nat := Tab.at 0 d.units.miss (2 * u + p)
/-- A unit has missed 3 bleats on both paths. -/
def Dev.lostBoth (d : Dev) (u : Nat) : Bool := decide (3 ≤ d.misses u 0 ∧ 3 ≤ d.misses u 1)

/-- The bleat that a unit sends at cycle 1,249 of the present frame (R405). -/
def Dev.bleatWord (d : Dev) (u : Nat) : Nat :=
  let flags := b2n (d.units.directed != 0) + 2 * b2n (d.units.finds.any (fun f => f.unit == u && decide (f.due ≤ d.time.frame + 1)))
    + 4 * b2n (d.units.claim && u == d.standbyUnit)
  let passes := d.g (if u = 0 then F.unit_A_PASSES else F.unit_B_PASSES)
  let body := flags + passes % 256 * 2 ^ 16 + d.unitSt u % 8 * 2 ^ 28 + u % 2 * 2 ^ 31 + d.time.frame % 65536 * 2 ^ 32
  body * 65536 + crc16 ((leBytes 6 body).map (·.toNat))

/-- Both units send their bleats, each on both paths (R405). -/
def Dev.sendBleats (d : Dev) : Dev := { d with units := { d.units with bleatA := d.bleatWord 0, bleatB := d.bleatWord 1 } }

/-- Judge the bleat of this frame on a path and show the counts of the active unit (R428). -/
def Dev.bleat (d : Dev) (u p : Nat) (got : Bool) : Dev :=
  let k := 2 * u + p
  let d := { d with units := { d.units with miss := Tab.upd 0 d.units.miss k (fun n => if got then 0 else n + 1),
                                            run := Tab.upd 0 d.units.run k (fun n => if got then n + 1 else 0),
                                            judged := k :: d.units.judged } }
  if u = d.activeUnit then d.p (if p = 0 then F.unit_BLEAT_STAT_DIE_MISS else F.unit_BLEAT_STAT_MGMT_MISS) (satU 8 (d.misses u p)) else d

/-- BLEAT_RX (R405, R406): the bleat of the frame before, with a correct CHECK, FRAME and SENDER, by cycle 1,150. `unit` receives it. -/
def execBleatRx (unit path : Fin 2) (word : BitVec 64) (s : State) : Host.Outcome State Fault Refusal :=
  onDev (fun d =>
    let w := word.toNat
    let ok := crc16 ((leBytes 6 (w / 65536)).map (·.toNat)) == w % 65536 && bits w 63 48 + 1 == d.time.frame % 65536
      || crc16 ((leBytes 6 (w / 65536)).map (·.toNat)) == w % 65536 && bits w 63 48 == 65535 && d.time.frame % 65536 == 0
    if ok && decide (bits w 47 47 = 1 - unit.val ∧ d.time.cycle ≤ 1150 ∧ 2 * unit.val + path.val ∉ d.units.judged) then
      d.bleat unit.val path.val true
    else d) s

/-- BLEAT_MISSED (R406, R408): at cycle 1,150 or later a bleat that has not been received is counted; when both paths have missed 3, the loss is recorded, and the active unit takes the standby as failed from the
next boundary. -/
def execBleatMissed (unit path : Fin 2) (s : State) : Host.Outcome State Fault Refusal :=
  onDev (fun d =>
    let u := unit.val
    if 2 * u + path.val ∈ d.units.judged ∨ d.time.cycle < 1150 then d
    else
      let before := d.lostBoth u
      let d := d.bleat u path.val false
      let d := when (d.lostBoth u && !before) (fun d => d.raise unitPage 7) d
      if d.lostBoth u && u == d.activeUnit then { d with units := { d.units with lostStandby := true } } else d) s

/-- The OK bit of a path. -/
def pathOkFld (p : Nat) : Fld := if p = 0 then F.unit_UNIT_STAT_PATH_DIE_OK else F.unit_UNIT_STAT_PATH_MGMT_OK

/-- PATH_FAULT (R407). -/
def execPathFault (path : Fin 2) (s : State) : Host.Outcome State Fault Refusal :=
  onDev (fun d =>
    let p := path.val
    when (d.on (pathOkFld p) && [0, 1].any (fun u => decide (3 ≤ d.misses u p ∧ d.misses u (1 - p) = 0)))
      (fun d => ((d.p (pathOkFld p) 0).bump (if p = 0 then F.unit_PATH_FAULTS_DIE else F.unit_PATH_FAULTS_MGMT)).raise unitPage 5) d) s

/-- PATH_OK (R407): 400 bleats in a row in both directions. -/
def execPathOk (path : Fin 2) (s : State) : Host.Outcome State Fault Refusal :=
  onDev (fun d =>
    let p := path.val
    when (!d.on (pathOkFld p) && [0, 1].all (fun u => decide (400 ≤ Tab.at 0 d.units.run (2 * u + p))))
      (fun d => (d.p (pathOkFld p) 1).raise unitPage 6) d) s

/-- TAKEOVER_CLAIM (R408): a standby in STANDBY that has missed 3 bleats on both paths claims the next boundary. -/
def execTakeoverClaim (s : State) : Host.Outcome State Fault Refusal :=
  onDev (fun d =>
    if d.unitSt d.standbyUnit == 1 && d.lostBoth d.standbyUnit then { d with units := { d.units with claim := true } } else d) s

/-! ### The boundary (R403, R408, R410, R411, R414, R415) -/

/-- REV_DWELL in frames (R415, R428). -/
def Dev.dwellFrames (d : Dev) : Nat := 400000 * max 1 (d.g F.unit_REV_DWELL)

/-- No reversion is on its way. -/
def Dev.dwellBreak (d : Dev) : Dev :=
  let d := { d with units := { d.units with dwell := 0, dwellEnd := none } }
  d.setReg (unitPage + 0x50) 0

/-- The dwell of Unit A goes on or breaks (R415); `broken`: a divergence, or a test of Unit A that has failed. -/
def Dev.dwellStep (d : Dev) (broken : Bool) : Dev :=
  let holds := decide (d.activeUnit = 1 ∧ d.unitSt 0 = 1 ∧ d.unitWord 0 = 0) && !broken
  if !holds then (if d.units.dwell = 0 ∧ d.units.dwellEnd = none then d else d.dwellBreak)
  else if d.units.dwellEnd.isSome then d
  else
    let n := d.units.dwell + 1
    let d := { d with units := { d.units with dwell := n } }
    (d.p F.unit_REV_STAT_STATE 1).p F.unit_REV_STAT_DWELL_LEFT ((d.dwellFrames - n + 3999) / 4000)

/-- A fault cause that arose in the frame before: it takes effect at this boundary. -/
def Dev.faultNow (d : Dev) (code : Nat) : Dev :=
  let first := d.ctl.faults.isEmpty
  let d := d.faultCause code
  if first then { d with ctl := { d.ctl with faultFrame := d.time.frame - 1 } } else d

/-- The findings and claims that count toward the boundary just reached (R403, R408 to R411): the standby fails first; then the active unit's findings and a
claim decide a failover, or without an eligible standby a fault or a slot that is DOWN. -/
def Dev.unitBoundary (d : Dev) (diverged : Bool) : Dev :=
  let due := d.units.finds.filter (fun f => decide (f.due ≤ d.time.frame))
  let spare := d.units.spareFail.any (fun t => decide (t ≤ d.time.frame))
  let broken := diverged || spare || due.any (fun f => f.unit == 0)
  let d := { d with units := { d.units with finds := d.units.finds.filter (fun f => decide (d.time.frame < f.due)), judged := [], failDue := none,
                                            spareFail := if spare then none else d.units.spareFail } }
  let a := d.activeUnit
  let s := d.standbyUnit
  let d := due.foldl (fun d f => match f.res with | some (k, i) => d.queueRemap k i 0 (some f.unit) false | none => d) d
  let own := due.filter (fun f => f.unit == a)
  let d := if due.any (fun f => f.unit == s) then d.failUnit s else d
  let claim := d.units.claim && d.standbyOk
  let d := (if d.units.lostStandby && !claim then d.failUnit s else d).dwellStep broken
  let d : Dev :=
    if own = [] && !claim then d
    else if d.standbyOk then
      { d with units := { d.units with failDue := some (match own with | f :: _ => f.cause | [] => 4) } }
    else
      let d := { d with units := { d.units with down := own.filterMap (·.res) ++ d.units.down } }
      if own.any (fun f => f.cls == 1) then d.faultNow 4 else d
  let d : Dev := { d with units := { d.units with claim := false, lostStandby := false } }
  let r := d.unitRec s
  if d.unitSt s = 3 ∧ r.phase = 1 then d.setRec s { r with clean := r.clean + 1 } else d

/-! ### The words of the units (R422, R423, R425) -/

/-- A unit with its real-time and management copies (R423). -/
def Dev.unitCopies (d : Dev) (u : Nat) : (Nat × Nat) × Nat × Nat :=
  ((4, u), (if 2 ≤ d.unitSt u then 2 else 0), if d.on F.unit_UNIT_STAT_PATH_MGMT_OK then 0 else 1)

/-- Of the objects in `scope`, those whose copies differ now: each disagreement is recorded when it begins (R425). -/
def Dev.conflicts (d : Dev) (scope : Nat × Nat → Bool) (ws : List ((Nat × Nat) × Nat × Nat)) : Dev :=
  let ws := ws.filter (fun w => w.2.1 != w.2.2)
  let new := ws.filter (fun w => !d.units.differ.contains w.1)
  let d := new.foldl (fun d w => (d.bump F.unit_CONFLICT_COUNT).raise unitPage 11 [w.1.1 * 65536 + w.1.2, w.2.1, w.2.2, max w.2.1 w.2.2]) d
  { d with units := { d.units with differ := d.units.differ.filter (fun o => !scope o) ++ ws.map (fun w => w.1) } }

/-- The reconciled words of the units, the greater copy (R422, R423). -/
def Dev.unitWords (d : Dev) : Dev :=
  let d := d.conflicts (fun o => o.1 == 4) [d.unitCopies 0, d.unitCopies 1]
  let word (u : Nat) : Nat := max (d.unitCopies u).2.1 (d.unitCopies u).2.2
  ((d.p F.unit_UNIT_STAT_A_WORD (word 0)).p F.unit_UNIT_STAT_B_WORD (word 1)).unitShow

/-! ### Recovery and reversion (R413 to R417) -/

/-- Does a remap queued for a finding of this unit still wait (R413 step 1). -/
def Dev.remapWaits (d : Dev) (u : Nat) : Bool :=
  (List.range 16).any (fun i => (d.g (F.unit_REMAP_Qi_STATE i) == 1 || d.g (F.unit_REMAP_Qi_STATE i) == 2) && (Tab.at {} d.units.entries i).owners.contains u)

/-- RECOVERY_START (R413). -/
def execRecoveryStart (unit : Fin 2) (s : State) : Host.Outcome State Fault Refusal :=
  onDev (fun d =>
    let u := unit.val
    if d.unitSt u = 2 ∧ (d.unitRec u).phase = 0 ∧ !d.remapWaits u then d.setRec u { phase := 1, since := d.time.frame } else d) s

/-- RECOVERY_PASS_DONE (R413): into SYNCING, where the spares that failed in the unit become bad (R418), or a counted attempt and a wait of one second; A_FAILS and B_FAILS count the findings and the attempt
(R428). -/
def execRecoveryPassDone (unit : Fin 2) (fails : List KatFail) (s : State) : Host.Outcome State Fault Refusal :=
  onDev (fun d =>
    let u := unit.val
    if ¬ (d.unitSt u = 2 ∧ (d.unitRec u).phase = 1) then d
    else if fails.any d.katCounts then
      ((fails.foldl (fun d k => d.katFail u k) d).bump (if u = 0 then F.unit_A_FAILS else F.unit_B_FAILS)).setRec u { phase := 2, since := d.time.frame }
    else
      let d := fails.foldl (fun d k => d.katFail u k) (d.bumpW (if u = 0 then F.unit_A_PASSES else F.unit_B_PASSES))
      let bad := (d.unitRec u).spares
      bad.foldl (fun d x => d.spareBad x.1 x.2) (d.setUnit u 3)) s

/-- RECOVERY_RETRY (R413): one second later. -/
def execRecoveryRetry (unit : Fin 2) (s : State) : Host.Outcome State Fault Refusal :=
  onDev (fun d =>
    let u := unit.val
    let r := d.unitRec u
    if d.unitSt u = 2 ∧ r.phase = 2 ∧ r.since + 400000 ≤ d.time.frame then d.setRec u { phase := 0, since := d.time.frame } else d) s

/-- STATE_COPY_DONE (R414): comparison begins. -/
def execStateCopyDone (unit : Fin 2) (s : State) : Host.Outcome State Fault Refusal :=
  onDev (fun d =>
    let u := unit.val
    if d.unitSt u = 3 ∧ (d.unitRec u).phase = 0 then d.setRec u { phase := 1, since := d.time.frame } else d) s

/-- UNIT_STANDBY (R414): after 400 clean frames; the words of the units are formed after the change. -/
def execUnitStandby (unit : Fin 2) (s : State) : Host.Outcome State Fault Refusal :=
  onDev (fun d =>
    let u := unit.val
    let r := d.unitRec u
    if d.unitSt u = 3 ∧ r.phase = 1 ∧ 400 ≤ r.clean then ((d.setUnit u 1).raise unitPage 3).unitWords else d) s

/-- DWELL_END (R415, R416): the dwell has lasted REV_DWELL seconds, and DEFER_LEFT is loaded. -/
def execDwellEnd (s : State) : Host.Outcome State Fault Refusal :=
  onDev (fun d =>
    if d.units.dwellEnd = none ∧ d.activeUnit = 1 ∧ d.dwellFrames ≤ d.units.dwell then
      let n := min 8 (d.g F.unit_REV_DEFER)
      let d := { d with units := { d.units with dwellEnd := some d.now } }
      ((d.p F.unit_REV_STAT_STATE (if n = 0 then 3 else 2)).p F.unit_REV_STAT_DEFER_LEFT n).p F.unit_REV_STAT_DWELL_LEFT 0
    else d) s

/-- A write of REV_DEFER (R416): during deferral a smaller value lowers DEFER_LEFT. -/
def Dev.revDeferWrite (d : Dev) (v : Word) : Dev :=
  let a := F.unit_REV_DEFER.addr
  d.guarded a v (rowsAt .unit 0x48) (fun d =>
    let d := d.byAccess a v (rowsAt .unit 0x48)
    let n := min 8 (Word.f v 3 0)
    if d.g F.unit_REV_STAT_STATE = 2 ∧ n < d.g F.unit_REV_STAT_DEFER_LEFT then
      (d.p F.unit_REV_STAT_DEFER_LEFT n).p F.unit_REV_STAT_STATE (if n = 0 then 3 else 2)
    else d)
/-- REV_DEFER (R416). -/
def execRevDefer (val : Word) (s : State) : Host.Outcome State Fault Refusal :=
  hosted F.unit_REV_DEFER.addr (onDev (fun d => d.revDeferWrite val)) s

/-! ### Commands of the host (R413, R420, R421, R428) -/

/-- A write of UNIT_CMD (R428): ignored without its key. -/
def Dev.unitCmdWrite (d : Dev) (v : Word) : Dev :=
  if Word.f v 31 16 ≠ 0x5554 then d
  else match Word.f v 3 0 with
    | 1 => d.setDirected (if d.units.directed = 0 then 1 else d.units.directed)
    | 2 => [0, 1].foldl (fun d u => if d.unitSt u = 2 ∧ (d.unitRec u).phase = 2 then d.setRec u { phase := 1, since := d.time.frame } else d) d
    | 3 => [F.unit_REVERT_COUNT, F.unit_FAILOVER_COUNT, F.unit_PATH_FAULTS_MGMT, F.unit_PATH_FAULTS_DIE, F.unit_DIVERGE_COUNT, F.unit_UNEXPLAINED,
            F.unit_A_FAILS, F.unit_B_FAILS, F.unit_CONFLICT_COUNT].foldl (fun d f => d.p f 0) d
    | _ => d
/-- DIRECTED_PASS: UNIT_CMD with OP 1 (R428). -/
def execDirectedPass (val : Word) (s : State) : Host.Outcome State Fault Refusal :=
  hosted F.unit_UNIT_CMD_OP.addr (onDev (fun d => if Word.f val 3 0 = 1 then d.unitCmdWrite val else d)) s
/-- RETRY: UNIT_CMD with OP 2 (R413). -/
def execRetry (val : Word) (s : State) : Host.Outcome State Fault Refusal :=
  hosted F.unit_UNIT_CMD_OP.addr (onDev (fun d => if Word.f val 3 0 = 2 then d.unitCmdWrite val else d)) s
/-- CLEAR_COUNTERS: UNIT_CMD with OP 3 (R428). -/
def execClearCounters (val : Word) (s : State) : Host.Outcome State Fault Refusal :=
  hosted F.unit_UNIT_CMD_OP.addr (onDev (fun d => if Word.f val 3 0 = 3 then d.unitCmdWrite val else d)) s

/-- A write of REMAP_GO (R420). -/
def Dev.remapGo (d : Dev) : Dev :=
  (List.range 16).foldl (fun d i => if d.g (F.unit_REMAP_Qi_STATE i) = 2 then
    { d with units := { d.units with entries := Tab.upd {} d.units.entries i (fun e => { e with go := true }) } } else d) d
/-- REMAP_GO (R420). -/
def execRemapGo (_val : Word) (s : State) : Host.Outcome State Fault Refusal :=
  hosted F.unit_REMAP_GO.addr (onDev (fun d => d.remapGo)) s

/-- A write of REMAP_REQ (R421): a mapped loop slot, power-loop slot or pipeline is retired as for a finding; another index is refused. -/
def Dev.remapReq (d : Dev) (v : Word) : Dev :=
  if Word.f v 31 16 ≠ 0x524D then d
  else
    let kind := Word.f v 13 12
    let i := Word.f v 7 0
    let ok := match kind with
      | 0 => decide (i < 144) && d.on (sf F.slot_SLOT_MAP_MAPPED i)
      | 1 => decide (i < 48) && d.on (pf F.pl_PL_MAP_MAPPED i)
      | 2 => decide (i < 6) && d.on (F.ip_IP_MAP_MAPPED i)
      | _ => false
    d.checked (unitPage + 0x7C) ok (fun d => d.queueRemap kind i 0 none true)
/-- REMAP_REQ (R421). -/
def execRemapReq (val : Word) (s : State) : Host.Outcome State Fault Refusal :=
  hosted F.unit_REMAP_REQ_KEY.addr (onDev (fun d => d.remapReq val)) s

/-- HEAD_MGMT_DOWN and HEAD_MGMT_LIMIT as 48-bit numbers. -/
def Dev.mgmtHeads (d : Dev) : Nat × Nat :=
  (d.g2 F.unit_HEAD_MGMT_DOWN_LO F.unit_HEAD_MGMT_DOWN_HI, d.g2 F.unit_HEAD_MGMT_LIMIT_LO F.unit_HEAD_MGMT_LIMIT_HI)
/-- A write of HEAD_MGMT_DOWN or HEAD_MGMT_LIMIT; a late one may count at the next boundary only (R422). -/
def Dev.mgmtWrite (d : Dev) (addr : Nat) (v : Word) : Dev :=
  let d' := d.plainWrite addr v
  if d.isLate then { d' with units := { d'.units with before := d.units.before.orElse (fun _ => some d.mgmtHeads) } } else d'

/-! ### State words (R422 to R425) -/

/-- A calibration run affects a head (R423, 16 R467). -/
def Dev.calRunOn (d : Dev) (h : Nat) : Bool := d.on F.cal_RUN_STAT_STATE && decide (d.g F.cal_RUN_STAT_HEAD = h)

/-- The other objects with their real-time and management copies (R423): every head, and the slots and pipelines that are not plainly UP. -/
def Dev.stateWords (d : Dev) (down lim : Nat) : List ((Nat × Nat) × Nat × Nat) :=
  let bad (k i : Nat) : Bool := d.units.down.contains (k, i)
  let head (h : Nat) : (Nat × Nat) × Nat × Nat :=
    let rt := if d.g (F.hd_LANE_STAT_STATE h) ≠ 3 ∨ (d.headSlots h).any (bad 0) ∨ bad 1 (d.plOf h) then 2 else 0
    ((0, h), rt, if bit down h then 2 else if bit lim h || d.calRunOn h then 1 else 0)
  let queued := (idxs 16 (fun i => d.entryOpen i && decide (d.g (F.unit_REMAP_Qi_KIND i) < 3))).map (fun i =>
    ((d.g (F.unit_REMAP_Qi_KIND i), d.g (F.unit_REMAP_Qi_FROM i)), (Tab.at {} d.units.entries i).host))
  let failed := (idxs 7 (fun p => d.on (F.ip_IP_STAT_FAILED p))).map (fun p => (2, p))
  let objs := (queued.map (·.1) ++ d.units.down ++ failed).eraseDups
  let res := objs.map (fun o =>
    let q := queued.find? (fun e => e.1 == o)
    ((o.1 + 1, o.2), (if bad o.1 o.2 || failed.contains o then 2 else b2n q.isSome), b2n (q.any (·.2))))
  (List.range 48).map head ++ res

/-- The management copies of the heads that count at this boundary: a late write counts here or at the next (R422). -/
def Dev.mgmtNow (d : Dev) : (Nat × Nat) × Dev :=
  match d.units.before with
  | none => (d.mgmtHeads, d)
  | some old =>
    let x := d.draw
    (if x.1 % 2 = 1 then old else d.mgmtHeads, { x.2 with units := { x.2.units with before := none } })

/-- The reconciled words are formed at a boundary (R422, R424, R425): the greater copy. A head that is DOWN in the open layer is declared failed with
STATE_DOWN (06 R210); a disagreement is recorded when it begins. -/
def Dev.reconcile (d : Dev) : Dev :=
  let (m, d) := d.mgmtNow
  let ws := d.stateWords m.1 m.2
  let word (w : (Nat × Nat) × Nat × Nat) : Nat := max w.2.1 w.2.2
  let mask (v : Nat) : Nat := ws.foldl (fun m w => if w.1.1 = 0 ∧ word w = v then m ||| 2 ^ w.1.2 else m) 0
  let d := (d.p2 F.unit_HEAD_DOWN_LO F.unit_HEAD_DOWN_HI (mask 2)).p2 F.unit_HEAD_LIMITED_LO F.unit_HEAD_LIMITED_HI (mask 1)
  let d := d.conflicts (fun o => o.1 != 4) ws
  let d := ws.foldl (fun d w =>
    if w.1.1 = 0 ∧ word w = 2 ∧ d.on F.seq_LAYER_STAT_OPEN ∧ w.1.2 ∈ d.hand.expo ∧ !d.on (F.hd_FAIL_FAILED w.1.2) then
      d.failAsk w.1.2 8 (d.time.frame - 1) 0
    else d) d
  d.unitWords

/-- The active-unit choice has changed at the present boundary (01 R27, R38): the downstream frames that begin to leave name the new unit, the words of
the units are formed after the choice, and BLEAT_STAT shows what the unit now active sees (R428). -/
def Dev.unitChanged (d : Dev) : Dev :=
  let u := d.activeUnit
  let d := (d.p F.unit_BLEAT_STAT_DIE_MISS (satU 8 (d.misses u 0))).p F.unit_BLEAT_STAT_MGMT_MISS (satU 8 (d.misses u 1))
  (forN 48 (fun h d => d.laneUpd h (fun q => if q.dsKind = .normal then { q with dsFlags := q.dsFlags - q.dsFlags / 32 % 2 * 32 + u * 32 } else q)) d).unitWords

/-- Reversion at a layer boundary (R416): deferred while DEFER_LEFT is above 0, else the selector returns to Unit A. A failover at the same boundary wins. -/
def Dev.revertStep (d : Dev) : Dev :=
  match d.units.dwellEnd with
  | none => d
  | some t =>
    if d.units.failDue.isSome ∨ d.time.frame * 1250 ≤ t then d
    else if d.unitSt 0 ≠ 1 then d.dwellBreak
    else
      let n := d.g F.unit_REV_STAT_DEFER_LEFT
      if 0 < n then (d.p F.unit_REV_STAT_DEFER_LEFT (n - 1)).p F.unit_REV_STAT_STATE (if n = 1 then 3 else 2)
      else
        let d := ((d.p F.unit_UNIT_STAT_ACTIVE 0).setUnit 0 0).setUnit 1 1
        ((d.dwellBreak.bump F.unit_REVERT_COUNT).raise unitPage 1).unitChanged

/-- FAILOVER (R410, 01 R27): at cycle 0 control moves to the eligible standby, for the whole frame that begins; the former active unit enters FAILED. -/
def execFailover (s : State) : Host.Outcome State Fault Refusal :=
  onDev (fun d =>
    match d.units.failDue with
    | none => d
    | some cause =>
      if !d.standbyOk || decide (d.time.cycle ≠ 0) then d
      else
        let d := { d with units := { d.units with failDue := none } }
        let old := d.activeUnit
        let d := (d.p F.unit_UNIT_STAT_ACTIVE (1 - old)).p F.unit_UNIT_STAT_LAST_CAUSE cause
        let d := ((d.setUnit (1 - old) 0).bump F.unit_FAILOVER_COUNT).raise unitPage 0
        ((d.failUnit old).dwellBreak).unitChanged) s

/-- PIPELINE_FAIL (08 R277): cause 0 an uncorrectable error of its memories, 1 a record that is late. It stops, and the remap that replaces it is queued
(R418, 08 R278). -/
def execPipelineFail (pipe : Fin 7) (cause : Fin 2) (s : State) : Host.Outcome State Fault Refusal :=
  onDev (fun d =>
    let p := pipe.val
    when (d.ipOk p && !(cause.val == 1 && (d.ip p).wait.isEmpty)) (fun d =>
      let d := (((d.ipStop p).raise (ipPage p) 4 [p, cause.val]).ipStat p)
      if d.on (F.ip_IP_MAP_MAPPED p) then d.queueRemap 2 p 0 none false else d.spareBad 2 p) d) s

/-! ### The health report (R426) -/

/-- Words 0 to 14 of the report. -/
def Dev.healthWords (d : Dev) : List Nat :=
  let r (o : Nat) : Nat := (d.reg (unitPage + o)).toNat
  let a := d.unitSt 0
  let b := d.unitSt 1
  let pub := if a = 1 ∨ a = 3 then 0 else if b = 1 ∨ b = 3 then 1 else d.activeUnit
  [2 ^ 28 + d.activeUnit * 2 ^ 27 + a * 2 ^ 24 + b * 2 ^ 20 + b2n d.standbyOk * 2 ^ 19 + pub * 2 ^ 18 + d.g F.unit_UNIT_STAT_PATH_MGMT_OK * 2 ^ 17
     + d.g F.unit_UNIT_STAT_PATH_DIE_OK * 2 ^ 16,
   d.time.frame % 2 ^ 32, r 0x68, r 0x6C, r 0x70, d.g F.unit_DIVERGE_COUNT * 65536 + d.g F.unit_FAILOVER_COUNT, r 0x58,
   d.g F.unit_REV_STAT_STATE * 2 ^ 28 + d.g F.unit_REV_STAT_DEFER_LEFT * 2 ^ 24 + d.g F.unit_REV_STAT_DWELL_LEFT, r 0x84, r 0x88,
   d.g F.ddr_PPR_RES * 2 ^ 24 + d.g F.ddr_PPR_STAT_SOFT * 65536 + d.g F.ddr_MARK_M1_EN * 512 + d.g F.ddr_MARK_M0_EN * 256,
   d.g F.unit_CONFLICT_COUNT, r 0x74, 0, 0]

/-- HEALTH (R426): written at a layer boundary, a change of unit state or a remap commit, and else at most once per 10 ms when a field has changed. -/
def execHealth (s : State) : Host.Outcome State Fault Refusal :=
  onDev (fun d =>
    let w := d.healthWords
    let due := d.units.healthDue || decide (d.units.healthAt + 4000 ≤ d.time.frame ∧ w.set 1 0 ≠ d.units.health.set 1 0)
    if !due then d
    else
      let all := w ++ [crc32 (w.flatMap (fun x => (leBytes 4 x).map (·.toNat)))]
      let d := forN 16 (fun i d => d.p (F.unit_HEALTH i) (nth all i)) d
      let d := { d with units := { d.units with health := w, healthAt := d.time.frame, healthDue := false } }
      (d.raise unitPage 12).putRec ⟨0x105, srcOf unitPage false, d.time.sec, d.time.ns, all⟩) s

end Sys2Proof.Machine
end

