-- ==== Sys2Proof/Machine/Time.lean ====
section
/-!
DEFINITION. The time base, its steps, captures and compare units, the Ethernet ports, and the event recorder's writer (15).
-/
namespace Sys2Proof.Machine

/-- The TIME, EVR and ETH pages. -/
def timePage : Nat := 0x4000
def evrPage : Nat := 0x5000
def ethPage : Nat := 0x110000

/-! ### Counters (R429 to R431) -/

/-- The increment in units of 2^−32 ns. -/
def TimeSt.inc (t : TimeSt) : Nat := t.incNs * 2 ^ 32 + t.incFrac

/-- NS and FRAC after `n` more cycles, with the carry into SEC (R429). -/
def TimeSt.run (t : TimeSt) (n : Nat) : TimeSt :=
  let x := t.ns * 2 ^ 32 + t.frac + n * t.inc
  let s := 10 ^ 9 * 2 ^ 32
  { t with sec := (t.sec + x / s) % 2 ^ 48, ns := x % s / 2 ^ 32, frac := x % 2 ^ 32 }

/-- `n` CLK_RT cycles pass within the frame. -/
def Dev.tick (d : Dev) (n : Nat) : Dev := { d with time := { (d.time.run n) with cycle := d.time.cycle + n } }

/-- A write of TIME_INC_HI (R431): the pair is committed when it lies in [1.990 ns, 2.010 ns]; both registers then read the increment in force. -/
def Dev.incCommit (d : Dev) (v : Word) : Dev :=
  let a := F.time_TIME_INC_HI.addr
  let ns := Word.f v 1 0
  let frac := d.g F.time_TIME_INC_LO
  let x := (ns * 2 ^ 32 + frac) * 1000
  let ok := decide (1990 * 2 ^ 32 ≤ x ∧ x ≤ 2010 * 2 ^ 32)
  d.guarded a v (rowsAt .time 0x44) (fun d =>
    let d := if ok then { d with time := { d.time with incNs := ns, incFrac := frac } } else (d.errAt 0x83 a).raise timePage 2
    (d.p F.time_TIME_INC_HI d.time.incNs).p F.time_TIME_INC_LO d.time.incFrac)

/-- TIME_INC_COMMIT (R431). -/
def execTimeIncCommit (val : Word) (s : State) : Host.Outcome State Fault Refusal :=
  hosted F.time_TIME_INC_HI.addr (onDev (fun d => d.incCommit val)) s

/-! ### Steps and captures (R432, R433) -/

/-- The link frame count, the cycle and the time are captured (R433). -/
def Dev.capture (d : Dev) : Dev :=
  let t := d.time
  let d := ((d.p F.time_CAP_NS t.ns).p2 F.time_CAP_SEC_LO F.time_CAP_SEC_HI t.sec).p F.time_CAP_FRAC t.frac
  ((d.p2 F.time_CAP_FRAME_LO F.time_CAP_FRAME_HI t.frame).p F.time_CAP_CYCLE t.cycle).raise timePage 0

/-- A step waits for the next boundary; a later one replaces it (R432). -/
def Dev.stepAsk (d : Dev) (s : TimeStep) : Dev := { (d.p F.time_TIME_STAT_STEP_PENDING 1) with time := { d.time with step := some s } }

/-- A write of TIME_CMD (R432). -/
def Dev.timeCmd (d : Dev) (v : Word) : Dev :=
  let refuse := d.raise timePage 3
  if Word.f v 31 16 ≠ 0x544D then refuse
  else match Word.f v 2 0 with
    | 1 => if 10 ^ 9 ≤ d.g F.time_SET_NS then refuse else d.stepAsk (.set (d.g2 F.time_SET_SEC_LO F.time_SET_SEC_HI) (d.g F.time_SET_NS))
    | 2 => if 10 ^ 9 ≤ absI (d.gi F.time_ADD_NS) then refuse else d.stepAsk (.add (d.gi F.time_ADD_SEC) (d.gi F.time_ADD_NS))
    | 3 => d.capture
    | 4 => { (d.p F.time_TIME_STAT_CAP_PENDING 1) with time := { d.time with capPend := true } }
    | _ => refuse

/-- SET: TIME_CMD with OP 1 (R432). -/
def execSet (val : Word) (s : State) : Host.Outcome State Fault Refusal :=
  hosted F.time_TIME_CMD_OP.addr (onDev (fun d => if Word.f val 2 0 = 1 then d.timeCmd val else d)) s
/-- ADD: TIME_CMD with OP 2 (R432). -/
def execAdd (val : Word) (s : State) : Host.Outcome State Fault Refusal :=
  hosted F.time_TIME_CMD_OP.addr (onDev (fun d => if Word.f val 2 0 = 2 then d.timeCmd val else d)) s
/-- CAPTURE: TIME_CMD with OP 3 (R433). -/
def execCapture (val : Word) (s : State) : Host.Outcome State Fault Refusal :=
  hosted F.time_TIME_CMD_OP.addr (onDev (fun d => if Word.f val 2 0 = 3 then d.timeCmd val else d)) s
/-- CAPTURE_BOUNDARY: TIME_CMD with OP 4 (R432). -/
def execCaptureBoundary (val : Word) (s : State) : Host.Outcome State Fault Refusal :=
  hosted F.time_TIME_CMD_OP.addr (onDev (fun d => if Word.f val 2 0 = 4 then d.timeCmd val else d)) s

/-- The value of a time after a step (R432). -/
def TimeSt.stepped (t : TimeSt) : TimeStep → TimeSt
  | .set sec ns => { t with sec := sec, ns := ns, frac := 0 }
  | .add sec ns =>
    let x : Int := (t.sec + sec) * 10 ^ 9 + t.ns + ns
    { t with sec := (x / 10 ^ 9 % 2 ^ 48).toNat, ns := (x % 10 ^ 9).toNat }

/-- The time base at cycle 0 of a boundary: a pending step, then a pending capture (R432, R433); its value there is kept (10 R332). -/
def Dev.timeBoundary (d : Dev) : Dev :=
  let d := match d.time.step with
    | none => d
    | some s =>
      let o := d.time
      let n := { o.stepped s with step := none }
      let d := { (d.p F.time_TIME_STAT_STEP_PENDING 0) with time := n }
      let w (t : TimeSt) : List Nat := [t.sec % 2 ^ 32, t.sec / 2 ^ 32, t.ns, t.frac]
      ((d.bumpW F.time_STEP_COUNT).raise timePage 1).putRec ⟨0x104, srcOf timePage false, n.sec, n.ns, w o ++ w n⟩
  let d := { d with time := { d.time with bSec := d.time.sec, bNs := d.time.ns } }
  if d.time.capPend then
    ({ (d.p F.time_TIME_STAT_CAP_PENDING 0) with time := { d.time with capPend := false } }).capture
  else d

/-! ### Compare units (R434, R437) -/

/-- Time less a target, in 2^−32 ns (R434). -/
def TimeSt.since (t : TimeSt) (sec ns : Nat) : Int := sx 48 ((t.sec + 2 ^ 48 - sec) % 2 ^ 48) * (10 ^ 9 * 2 ^ 32) + ((t.ns : Int) - ns) * 2 ^ 32 + t.frac

/-- A write of TCMPk.CTRL (R437): arms with TARGET and PERIOD as they are held, or disarms. -/
def Dev.tcmpWrite (d : Dev) (k : Nat) (v : Word) : Dev :=
  let a := (F.time_TCMPk_CTRL_EN k).addr
  d.guarded a v (rowsAt .time 0x100) (fun d =>
    let en := Word.f v 0 0
    let d := (d.p (F.time_TCMPk_CTRL_EN k) en).p (F.time_TCMPk_STAT_ARMED k) en
    let u : Tcmp := if en = 1 then ⟨true, d.g2 (F.time_TCMPk_TARGET_SEC_LO k) (F.time_TCMPk_TARGET_SEC_HI k), d.g (F.time_TCMPk_TARGET_NS k),
      d.g (F.time_TCMPk_PERIOD k)⟩ else {}
    { d with time := { d.time with tcmp := Tab.set {} d.time.tcmp k u } })

/-- TCMP_ARM (R437). -/
def execTcmpArm (unit : Fin 8) (val : Word) (s : State) : Host.Outcome State Fault Refusal :=
  hosted (F.time_TCMPk_CTRL_EN unit.val).addr (onDev (fun d => d.tcmpWrite unit.val val)) s

/-- TCMP_FIRE (R437): time has reached the target; a periodic target advances beyond the present time, and each advance beyond the first is missed. -/
def execTcmpFire (unit : Fin 8) (s : State) : Host.Outcome State Fault Refusal :=
  onDev (fun d =>
    let k := unit.val
    let u := Tab.at {} d.time.tcmp k
    let x := d.time.since u.sec u.ns
    if !u.armed || decide (x < 0) then d
    else
      let n := if u.period = 0 then 0 else x.toNat / (u.period * 2 ^ 32) + 1
      let t := u.ns + n * u.period
      let u' : Tcmp := if u.period = 0 then {} else { u with sec := (u.sec + t / 10 ^ 9) % 2 ^ 48, ns := t % 10 ^ 9 }
      let d := { d with time := { d.time with tcmp := Tab.set {} d.time.tcmp k u' } }
      let d := (d.p (F.time_TCMPk_STAT_ARMED k) (b2n u'.armed)).bump (F.time_TCMPk_STAT_MISSED k) (n - 1)
      d.raise timePage (8 + k)) s

/-! ### Ethernet (R438 to R440, R451) -/

/-- A timestamp of a port: the time base value with the port's offset, and a free part of the spread that R440 allows. -/
def Dev.ethStamp (d : Dev) (p : Nat) (ofs : Int) : (Nat × Nat × Nat) × Dev :=
  let (r, d) := d.draw
  let spread := (if d.on (F.ethp_PORT_CTRL_SPEED p) then 52 else 100) * 2 ^ 32 / 10
  let x : Int := ((d.time.sec * 10 ^ 9 + d.time.ns) * 2 ^ 32 + d.time.frac : Nat) + ofs * 2 ^ 32 + (r % (spread + 1) : Nat)
  let s := 10 ^ 9 * 2 ^ 32
  (((x / s % 2 ^ 48).toNat, (x % s / 2 ^ 32).toNat, (x % 2 ^ 32).toNat), d)

/-- The timestamp bytes of a ring entry (R439). -/
def stampBytes (t : Nat × Nat × Nat) : List Byte := leBytes 4 t.2.1 ++ leBytes 8 (t.1 + t.2.2 / 65536 * 2 ^ 48)

/-- Base and entries of a port's receive and transmit rings. -/
def Dev.rxBase (d : Dev) (p : Nat) : Nat := d.g (F.ethp_RX_BASE_LO p) * 2048 + d.g (F.ethp_RX_BASE_HI p) * 2 ^ 32
def Dev.txBase (d : Dev) (p : Nat) : Nat := d.g (F.ethp_TX_BASE_LO p) * 2048 + d.g (F.ethp_TX_BASE_HI p) * 2 ^ 32
def Dev.rxSize (d : Dev) (p : Nat) : Nat := 2 ^ d.g (F.ethp_LOG2_RX p)
def Dev.txSize (d : Dev) (p : Nat) : Nat := 2 ^ d.g (F.ethp_LOG2_TX p)

/-- A write into a port's ring: bytes in or above the device region, where no ring lies (R439), are not written (02 R47; log 65). -/
def ethPut (a : Nat) (bs : List Byte) (r : Dev × List Host.Cell) : Dev × List Host.Cell := dramWrite 2 a (bs.take (r.1.devRegion - a)) r

/-- A frame as it leaves on the lane (R438, R439): padded to 60 bytes, with the FCS of IEEE 802.3. -/
def ethWire (frame : List Nat) : List Nat :=
  let f := frame ++ List.replicate (60 - frame.length) 0
  f ++ (leBytes 4 (crc32 f)).map (·.toNat)

/-- Is this the FCS of a frame (R438), as the word of the four bytes that follow it. -/
def fcsRight (frame : List Byte) (fcs : Word) : Bool := crc32 (frame.map (·.toNat)) == fcs.toNat

/-- ETH_RX_FRAME (R438, R439): a frame from the destination address on and its FCS, which is checked; stored with its timestamp, or dropped and counted.
`runt` is the PCS's finding that the sender padded it. -/
def execEthRxFrame (port : Fin 2) (frame : List Byte) (fcs : Word) (runt : Bool) (s : State) : Host.Outcome State Fault Refusal :=
  onMem (fun (d, m) =>
    let p := port.val
    let n := frame.length
    if !d.enabled ethPage || !d.on (F.ethp_PORT_CTRL_RX_EN p) || !d.on (F.ethp_PORT_STAT_LINK p) then (d, m)
    else
      let wr := d.g (F.ethp_RX_WR p)
      let size := d.rxSize p
      let drop (f : Nat → Fld) : Dev × List Host.Cell := ((d.bump (f p)).raise ethPage 6, m)
      if !fcsRight frame fcs then drop F.ethp_CNT_RX_FCS
      else if n < 14 then (d, m)
      else if 2016 < n then drop F.ethp_CNT_RX_LONG
      else if (wr + 1) % size = d.g (F.ethp_RX_RD p) then drop F.ethp_CNT_RX_FULL
      else
        let (t, d) := d.ethStamp p (d.gi (F.ethp_TS_RX_OFS p))
        let (d, m) := ethPut (d.rxBase p + 2048 * wr) (leBytes 4 (n + b2n runt * 65536) ++ stampBytes t ++ List.replicate 16 0 ++ frame) (d, m)
        ((d.p (F.ethp_RX_WR p) ((wr + 1) % size)).raise ethPage (2 * p), m)) s

/-- The difference of two ring indices modulo the ring's size (R439). -/
def ringDist (a b : Int) (size : Nat) : Nat := ((a - b) % size).toNat

/-- A write of a ring index within its limit, else discarded, counted and raised as RING_OVERRUN (R439). -/
def Dev.ringWrite (d : Dev) (f : Fld) (v : Word) (size room : Nat) : Dev :=
  let new := Word.f v 11 0
  let cur := d.g f
  d.guarded f.addr v (rowsAt .eth (f.addr % 0x1000)) (fun d =>
    if size ≤ new ∨ room < ringDist new cur size then (d.errAt 0x83 f.addr).raise ethPage 9 else d.p f new)

/-- A write of TX_WR (R439). -/
def Dev.txWrWrite (d : Dev) (p : Nat) (v : Word) : Dev :=
  let size := d.txSize p
  d.ringWrite (F.ethp_TX_WR p) v size (ringDist (d.g (F.ethp_TX_RD p) - 1) (d.g (F.ethp_TX_WR p)) size)
/-- TX_WR_WRITE (R439). -/
def execTxWrWrite (port : Fin 2) (val : Word) (s : State) : Host.Outcome State Fault Refusal :=
  hosted (F.ethp_TX_WR port.val).addr (onDev (fun d => d.txWrWrite port.val val)) s

/-- A write of RX_RD (R439). -/
def Dev.rxRdWrite (d : Dev) (p : Nat) (v : Word) : Dev :=
  let size := d.rxSize p
  d.ringWrite (F.ethp_RX_RD p) v size (ringDist (d.g (F.ethp_RX_WR p)) (d.g (F.ethp_RX_RD p)) size)
/-- RX_RD_WRITE (R439). -/
def execRxRdWrite (port : Fin 2) (val : Word) (s : State) : Host.Outcome State Fault Refusal :=
  hosted (F.ethp_RX_RD port.val).addr (onDev (fun d => d.rxRdWrite port.val val)) s

/-- ETH_TX_DONE (R439): the next transmit entry has been sent and is timestamped, or is refused. An entry is taken as it is read (log 100). -/
def execEthTxDone (port : Fin 2) (s : State) : Host.Outcome State Fault Refusal :=
  onMem (fun (d, m) =>
    let p := port.val
    let rd := d.g (F.ethp_TX_RD p)
    if !d.enabled ethPage || !d.on (F.ethp_PORT_CTRL_TX_EN p) || !d.on (F.ethp_PORT_STAT_LINK p) || decide (rd = d.g (F.ethp_TX_WR p)) then (d, m)
    else
      let a := d.txBase p + 2048 * rd
      let (d, m) := dramTurn a 2048 (d, m)
      let lf := mem32 m a
      let (_, d) := d.dramRead 2 a (32 + bits lf 15 0 % 2048)
      let next (d : Dev) : Dev := d.p (F.ethp_TX_RD p) ((rd + 1) % d.txSize p)
      if bits lf 15 0 < 14 ∨ 2016 < bits lf 15 0 ∨ bits lf 31 18 ≠ 0 ∨ memLE m (a + 16) 16 ≠ 0 then
        let (d, m) := ethPut a (leBytes 4 (lf / 2 ^ 18 * 2 ^ 18 + 2 ^ 17 + lf % 2 ^ 17) ++ List.replicate 12 0) (d, m)
        (((next d).bump (F.ethp_CNT_TX_BAD p)).raise ethPage 8, m)
      else
        let (t, d) := d.ethStamp p (d.gi (F.ethp_TS_TX_OFS p))
        let (d, m) := ethPut (a + 4) (stampBytes t) (d, m)
        let d := { d with ethTx := Tab.set [] d.ethTx p (ethWire (memBytes m (a + 32) (bits lf 15 0))) }
        ((next d).raise ethPage (2 * p + 1), m)) s

/-- ETH_LINK_CHANGE (R438, R451). -/
def execEthLinkChange (port : Fin 2) (up : Bool) (s : State) : Host.Outcome State Fault Refusal :=
  onDev (fun d =>
    let p := port.val
    if d.on (F.ethp_PORT_STAT_LINK p) = up then d
    else ((d.p (F.ethp_PORT_STAT_LINK p) (b2n up)).p (F.ethp_PORT_STAT_AN_DONE p) 0).raise ethPage (4 + p)) s

/-- AUTO_NEGOTIATION_COMPLETE (R438, R451): at 1000BASE-X with AN_EN. -/
def execAutoNegotiationComplete (port : Fin 2) (s : State) : Host.Outcome State Fault Refusal :=
  onDev (fun d =>
    let p := port.val
    if d.on (F.ethp_PORT_STAT_LINK p) && d.on (F.ethp_PORT_CTRL_AN_EN p) && !d.on (F.ethp_PORT_CTRL_SPEED p) then d.p (F.ethp_PORT_STAT_AN_DONE p) 1 else d) s

/-- A write of MDIO_CMD (R451): discarded while a frame is in progress. -/
def Dev.mdioWrite (d : Dev) (v : Word) : Dev :=
  if d.on F.eth_MDIO_STAT_BUSY then d.errAt 0x82 F.eth_MDIO_CMD_OP.addr else { (d.p F.eth_MDIO_STAT_BUSY 1) with mdio := v }
/-- MDIO_CMD (R451). -/
def execMdioCmd (val : Word) (s : State) : Host.Outcome State Fault Refusal :=
  hosted F.eth_MDIO_CMD_OP.addr (onDev (fun d => d.mdioWrite val)) s

/-- MDIO_DONE (R451): the frame completes; a read delivers its data. -/
def execMdioDone (data : BitVec 16) (s : State) : Host.Outcome State Fault Refusal :=
  onDev (fun d =>
    if !d.on F.eth_MDIO_STAT_BUSY then d
    else
      let d := d.p F.eth_MDIO_STAT_BUSY 0
      (if Word.f d.mdio 29 28 = 2 then d.p F.eth_MDIO_STAT_DATA data.toNat else d).raise ethPage 7) s

/-! ### The event recorder (R441 to R448) -/

/-- The region's DRAM offset (R441). -/
def Dev.evrBase (d : Dev) : Nat := d.g2 F.evr_REGION_LO F.evr_REGION_HI

/-- A record's bytes (R442): payloads are padded to a multiple of 8. -/
def recBytes (r : EvRec) (seq : Nat) : List Byte :=
  let pay := if r.payload.length % 2 = 1 then r.payload ++ [0] else r.payload
  leBytes 2 (24 + 4 * pay.length) ++ leBytes 2 r.code ++ leBytes 4 r.src ++ leBytes 8 seq ++ leBytes 8 (r.sec % 2 ^ 34 * 2 ^ 30 + r.ns)
    ++ pay.flatMap (fun w => leBytes 4 w)

/-- The TIME_MARK payload at the moment of writing (R443). -/
def TimeSt.mark (t : TimeSt) : List Nat :=
  [t.sec % 2 ^ 32, t.sec / 2 ^ 32, t.ns, t.frac, t.incNs, t.incFrac, t.frame % 2 ^ 32, t.frame / 2 ^ 32]

/-- Bytes go to the region at the writer's place: records of Wrap that they overwrite leave OLDEST first (R447); one record is counted. -/
def evrPut (bytes : List Byte) (r : Dev × List Host.Cell) : Dev × List Host.Cell :=
  let (d, m) := r
  let e := d.evr
  let n := bytes.length
  let hits (o l : Nat) : Bool := decide (o < e.ofs + n ∧ e.ofs < o + l)
  let wrap := if e.keepClosed then e.wrap.dropWhile (fun w => hits w.2.1 w.2.2) ++ [(e.seq, e.ofs, n)] else e.wrap
  let d := { d with evr := { e with wrap := wrap } }
  let (d, m) := dramWrite 3 (d.evrBase + e.ofs) bytes (d, m)
  let d := { d with evr := { d.evr with seq := e.seq + 1, ofs := e.ofs + n } }
  (if e.keepClosed then d else (d.p F.evr_KEEP_END (e.ofs + n)).p F.evr_KEEP_STAT_COUNT (satU 24 (d.g F.evr_KEEP_STAT_COUNT + 1)), m)

/-- A PAD record to the end of the area (R446, R447). -/
def evrPad (stop : Nat) (r : Dev × List Host.Cell) : Dev × List Host.Cell :=
  let e := r.1.evr
  let n := stop - e.ofs
  if n = 0 then r else evrPut ((leBytes 2 (n % 65536) ++ leBytes 2 0x100 ++ leBytes 4 (srcOf evrPage false) ++ leBytes 8 e.seq) ++ List.replicate (n - 16) 0) r

/-- Keep closes (R446). -/
def evrClose (r : Dev × List Host.Cell) : Dev × List Host.Cell :=
  let d := r.1.p F.evr_KEEP_STAT_FULL 1
  (({ d with evr := { d.evr with keepClosed := true, ofs := 0x100000 } }).raise evrPage 0, r.2)

/-- The writer returns to the start of Wrap and writes a TIME_MARK (R447). -/
def evrLap (r : Dev × List Host.Cell) : Dev × List Host.Cell :=
  let d := { r.1 with evr := { r.1.evr with ofs := 0x100000 } }
  let d := (d.bumpW F.evr_WRAP_LAPS).raise evrPage 1
  evrPut (recBytes ⟨0x102, srcOf evrPage false, d.time.sec, d.time.ns, d.time.mark⟩ d.evr.seq) (d, r.2)

/-- The area's end when a record of `n` bytes may not go where the writer stands: it does not fit, or 8 bytes would be left (R446, R447). -/
def EvrSt.noRoom (e : EvrSt) (n : Nat) : Bool :=
  let room := (if e.keepClosed then 0x400000 else 0x100000) - e.ofs
  decide (room < n ∨ room = n + 8)

/-- One record is written (R446, R447). -/
def evrRecord (x : EvRec) (r : Dev × List Host.Cell) : Dev × List Host.Cell :=
  let n := (recBytes x 0).length
  let r := if !r.1.evr.keepClosed && r.1.evr.noRoom n then evrClose (evrPad 0x100000 r) else r
  let r := if r.1.evr.keepClosed && r.1.evr.noRoom n then evrLap (evrPad 0x400000 r) else r
  let r := evrPut (recBytes x r.1.evr.seq) r
  if !r.1.evr.keepClosed && r.1.evr.ofs == 0x100000 then evrClose r else r

/-- The writer takes its next record (R445): BOOT and TIME_MARK after a reset, LOST after a drop, then the queue. -/
def evrStep (r : Dev × List Host.Cell) : Dev × List Host.Cell :=
  let (d, m) := r
  let e := d.evr
  match e.front with
  | x :: rest =>
    let d := { d with evr := { e with front := rest, closed := false } }
    let x := { x with sec := d.time.sec, ns := d.time.ns, payload := if x.code = 0x102 then d.time.mark else x.payload }
    evrRecord x (d, m)
  | [] =>
    if e.dropped ≠ 0 then
      let t := e.dropSec % 2 ^ 34 * 2 ^ 30 + e.dropNs
      let d := { d with evr := { e with dropped := 0 } }
      evrRecord ⟨0x101, srcOf evrPage false, d.time.sec, d.time.ns, [e.dropped % 2 ^ 32, t % 2 ^ 32, t / 2 ^ 32]⟩ (d, m)
    else match e.queue with
      | [] => (d, m)
      | x :: rest => evrRecord x (({ d with evr := { e with queue := rest } }).p F.evr_QUEUE_NOW rest.length, m)

/-- EVR_WRITE (R445): once the region is there and the memory trained, the writer writes one record. -/
def execEvrWrite (s : State) : Host.Outcome State Fault Refusal :=
  onMem (fun r => if r.1.evrBase = 0 ∨ r.1.capacity = 0 ∨ (r.1.evr.closed && r.1.evr.front.isEmpty) then r else evrStep r) s

/-- All records queued are written, before the memory enters self-refresh (R445). -/
def evrDrain : Nat → Dev × List Host.Cell → Dev × List Host.Cell
  | 0, r => r
  | n + 1, r => if r.1.evrBase = 0 ∨ (r.1.evr.front = [] ∧ r.1.evr.dropped = 0 ∧ r.1.evr.queue = []) then r else evrDrain n (evrStep r)

/-- A write of EVR_CMD (R448): SNAP copies the pointers. Without a record in Wrap, OLDEST is HEAD; at the end of Wrap the next record goes to its start
(R447). -/
def Dev.evrCmd (d : Dev) (v : Word) : Dev :=
  if Word.f v 0 0 = 0 then d
  else
    let e := d.evr
    let o := match e.wrap with | w :: _ => (w.1, w.2.1) | [] => (e.seq, e.ofs)
    let at_ (x : Nat) : Nat := if x = 0x400000 then 0x100000 else x
    let d := (d.p2 F.evr_SNAP_HEAD_SEQ_LO F.evr_SNAP_HEAD_SEQ_HI e.seq).p F.evr_SNAP_HEAD_OFS (at_ e.ofs)
    (d.p2 F.evr_SNAP_OLD_SEQ_LO F.evr_SNAP_OLD_SEQ_HI o.1).p F.evr_SNAP_OLD_OFS (at_ o.2)
/-- SNAP (R448). -/
def execSnap (val : Word) (s : State) : Host.Outcome State Fault Refusal :=
  hosted F.evr_EVR_CMD_SNAP.addr (onDev (fun d => d.evrCmd val)) s

end Sys2Proof.Machine
end

