-- ==== Sys2Proof/Machine/House.lean ====
section
/-!
DEFINITION. Housekeeping and thermal control (16 R452 to R460, R471).
-/
namespace Sys2Proof.Machine

/-- The HK page (R471). -/
def hkPage : Nat := 0x6000

/-! ### The round (R452, R453) -/

/-- The window of a channel (R452), none where it is informational. -/
def hkWindow (c : Nat) : Option (Int × Int) :=
  match c with
  | 0 => some (-880, 2400) | 1 => some (728, 772) | 2 => some (776, 824) | 3 => some (873, 927) | 4 => some (1164, 1236)
  | 5 => some (1067, 1133) | 6 => some (1710, 1890) | 7 => some (19200, 30000) | 12 => some (1176, 1224) | 13 => some (-10, 10)
  | 14 => some (588, 612) | 15 => some (200, 900) | _ => none

/-- Is a value outside its channel's window. -/
def hkOutside (c : Nat) (v : Int) : Bool := match hkWindow c with | some (lo, hi) => decide (v < lo ∨ hi < v) | none => false

/-- The thresholds in the registers (R454). -/
def Dev.thrRegs (d : Dev) : List Int := [d.gi F.hk_T_WARN, d.gi F.hk_T_THROTTLE, d.gi F.hk_T_CRIT]

/-- The runs of a supply channel, outside and inside its window. -/
def HkSt.supply (k : HkSt) (c : Nat) (out : Bool) : HkSt :=
  { k with outRun := Tab.set 0 k.outRun c (if out then Tab.at 0 k.outRun c + 1 else 0),
           inRun := Tab.set 0 k.inRun c (if out then 0 else Tab.at 0 k.inRun c + 1) }

/-- SUPPLY_STAT bit of a channel. -/
def supplyFld (c : Nat) : Fld := ⟨0x6060, c, c⟩

/-- The value and window bit of a channel, and the runs of a supply channel (R453): SUPPLY_STAT clears after 3 rounds within the window. -/
def Dev.hkStore (d : Dev) (c : Nat) (v : BitVec 16) : Dev :=
  let out := hkOutside c v.toInt
  let d := (d.p (F.hk_HK_CHc_VALUE c) v.toNat).p (F.hk_HK_CHc_OUT_OF_WINDOW c) (b2n out)
  let d := { d with hk := if 1 ≤ c ∧ c ≤ 7 then d.hk.supply c out else d.hk }
  if 3 ≤ Tab.at 0 d.hk.inRun c then d.p (supplyFld c) 0 else d

/-- SUPPLY (R453): recorded once, with the channel and the value. -/
def execSupply (chan : Fin 16) (s : State) : Host.Outcome State Fault Refusal :=
  onDev (fun d =>
    let c := chan.val
    if 3 ≤ Tab.at 0 d.hk.outRun c ∧ !d.on (supplyFld c) then
      (d.p (supplyFld c) 1).raise hkPage 5 [c, d.g (F.hk_HK_CHc_VALUE c)]
    else d) s

/-! ### Conditions (R454, R455, R457) -/

/-- Is the reading of channel 0 of this round broken (R457): outside its window, a reference or the diode outside its own in the same round, or a repeated
raw code. -/
def Dev.hkBroken (d : Dev) (v : Int) (raw : Nat) : Bool :=
  hkOutside 0 v || [12, 13, 14, 15].any (fun c => d.on (F.hk_HK_CHc_OUT_OF_WINDOW c)) || d.hk.raw == some raw

/-- The runs of the four conditions after a good reading (R455): at or above the threshold, and below it less 2 °C; WARN, THROTTLE, CRIT, RISE. A rise
that cannot be computed counts toward nothing. -/
def HkSt.judge (k : HkSt) (thr : List Int) (riseLim t : Int) (rise : Option Int) : HkSt :=
  let val (i : Nat) : Option (Int × Int) := if i = 3 then rise.map (fun r => (r, riseLim)) else some (t, nthI thr i)
  let up := (List.range 4).map (fun i => match val i with | some (x, l) => if l ≤ x then nth k.up i + 1 else 0 | none => nth k.up i)
  let down := (List.range 4).map (fun i => match val i with | some (x, l) => if x < l - 32 then nth k.down i + 1 else 0 | none => nth k.down i)
  let active := (List.range 4).map (fun i =>
    if 3 ≤ nth up i then true else if i ≠ 2 ∧ 3 ≤ nth down i then false else k.active.getD i false)
  { k with up := up, down := down, active := active }

/-- The highest level that applies (R455). -/
def HkSt.level (k : HkSt) : Nat :=
  let on (i : Nat) : Bool := k.active.getD i false
  if on 2 then 3 else if on 1 || on 3 || decide (125 ≤ k.broken) then 2 else if on 0 then 1 else 0

/-- The reading of channel 0 of a round (R454 to R457), once the round's references are converted (log 46). No level is entered in ROM. -/
def Dev.hkDie (d : Dev) (v : Int) (raw : Nat) : Dev :=
  let k := d.hk
  let broken := d.hkBroken v raw
  let d := (d.p (F.hk_HK_CHc_BROKEN 0) (b2n broken)).p F.hk_THERM_STAT_SENSOR_BROKEN (b2n broken)
  let k := { k with raw := some raw, sinceStep := k.sinceStep + 1, stepped := false, good := !broken }
  if broken then
    let d := (d.bump F.hk_CNT_BROKEN).pipe (when (decide (k.broken = 0)) (fun d => d.raise hkPage 4))
    { d with hk := { k with broken := k.broken + 1, hist := (none :: k.hist).take 4, levelDue := decide (2 ≤ d.st) } }
  else
    let rise : Option Int := match (k.hist.drop 3).head? with | some (some o) => some (v - o) | _ => none
    let d := (d.pi F.hk_THERM_STAT_T_DIE v).pipe (when (decide (d.gi F.hk_T_PEAK < v)) (fun d => d.pi F.hk_T_PEAK v))
    let d := match rise with | some r => d.pi F.hk_T_RISE r | none => d
    let k := { k with broken := 0, hist := (some v :: k.hist).take 4 }
    let thr := if k.thr = [] then d.thrRegs else k.thr
    let k := if 2 ≤ d.st then { k.judge thr (d.gi F.hk_RISE_LIM) v rise with levelDue := true } else k
    let d := when (k.active.getD 3 false && !d.hk.active.getD 3 false) (fun d => d.raise hkPage 3) d
    ({ d with hk := k }).p F.hk_THERM_STAT_RISE (b2n (k.active.getD 3 false))

/-- The value of a channel (R452): those of the isolated die are as the latest report carried them (17 R475), T_LAMP with the mirror (log 102); `v` is what
was converted, or what the report that came carries. -/
def Dev.hkValue (d : Dev) (c : Nat) (v : BitVec 16) : BitVec 16 :=
  if c = 11 then BitVec.ofNat 16 (d.g F.led_LAMP_STAT_T_LAMP)
  else if (c = 7 ∨ c = 8 ∨ c = 9) ∧ (!d.link.everRx ∨ d.link.missRun ≠ 0) then BitVec.ofNat 16 (d.g (F.hk_HK_CHc_VALUE c))
  else v

/-- HK_CONVERSION (R452): the channel of the present slot is converted; the round ends with channel 15, which decides the reading of channel 0. -/
def execHkConversion (value raw : BitVec 16) (s : State) : Host.Outcome State Fault Refusal :=
  onDev (fun d =>
    if d.st = 0 then d
    else
      let c := d.hk.slot
      let d := d.hkStore c (d.hkValue c value)
      let d := { d with hk := { d.hk with slot := (c + 1) % 16, die := if c = 0 then (value.toInt, raw.toNat) else d.hk.die } }
      let d := if c = 15 then d.hkDie d.hk.die.1 d.hk.die.2 else d
      if c = 15 then { (d.bumpW F.hk_ROUND_COUNT) with hk := { d.hk with thr := d.thrRegs } } else d) s

/-! ### Levels and throttling (R455, R458 to R460) -/

/-- THR_LEVEL takes a value, never below THR_MIN (R459); the pipelines see a change. -/
def Dev.setThr (d : Dev) (n : Nat) : Dev :=
  let n := max n (d.g F.hk_THR_MIN)
  if n = d.g F.hk_THERM_STAT_THR_LEVEL then d else (d.p F.hk_THERM_STAT_THR_LEVEL n).camThrottle (decide (n ≠ 0))

/-- The calibration run in progress ends without a record (R469): STALE is clear and the record in force unchanged. -/
def Dev.calEnd (d : Dev) : Dev :=
  if d.on F.cal_RUN_STAT_STATE then
    let h := d.g F.cal_RUN_STAT_HEAD
    let t := d.g F.cal_RUN_STAT_TYPE
    let st := F.cal_CAL_STATh_STALE h
    let d := (d.p F.cal_RUN_STAT_STATE 0).p ⟨st.addr, st.lo + t - 1, st.lo + t - 1⟩ 0
    { d with cal := { d.cal with run1 := [], run2 := [], loadWaits := false } }
  else d

/-- A CRIT cancels the run; a program operation under way in the NOR is completed (R460). -/
def Dev.calCrit (d : Dev) : Dev :=
  if d.g F.cal_RUN_STAT_STATE = 3 ∧ !d.cal.loadWaits then
    let d := { d with cal := { d.cal with cut := some (d.g F.cal_RUN_STAT_HEAD, d.g F.cal_RUN_STAT_TYPE, d.cal.run1, d.cal.run2) } }
    d.calEnd
  else d.calEnd

/-- LEVEL takes over the level that applies (R455), with the event of the new level, T(n) and rise(n); entry to THROTTLE and CRIT and the fall below
THROTTLE act on THR_LEVEL (R459), and CRIT raises its fault and its latch (R460). -/
def Dev.levelStep (d : Dev) : Dev :=
  let old := d.g F.hk_THERM_STAT_LEVEL
  let new := d.hk.level
  if !d.hk.levelDue || decide (new = old) || decide (old = 3) then d
  else
    let evt := if new = 3 then 2 else if new = 2 then 1 else if new = 1 then 0 else 6
    let d := (d.p F.hk_THERM_STAT_LEVEL new).raise hkPage evt [ux 32 (d.gi F.hk_THERM_STAT_T_DIE), ux 32 (d.gi F.hk_T_RISE)]
    let d := { d with hk := { d.hk with levelDue := false } }
    let thr := d.g F.hk_THERM_STAT_THR_LEVEL
    let fresh (d : Dev) : Dev := { d with hk := { d.hk with sinceStep := 0, stepped := true } }
    if new = 3 then
      let d := ((d.setThr 6).faultCause 1).calCrit
      { d with link := { d.link with crit := true } }
    else if new = 2 then fresh (d.setThr (min 6 (thr + 1)))
    else if old = 2 then fresh (d.setThr (thr - 1))
    else d

/-- THERM_LEVEL_CHANGE (R455). -/
def execThermLevelChange (s : State) : Host.Outcome State Fault Refusal := onDev (fun d => d.levelStep) s
/-- SENSOR_BROKEN_LONG (R457): after 125 broken rounds LEVEL is taken as at least THROTTLE. -/
def execSensorBrokenLong (s : State) : Host.Outcome State Fault Refusal :=
  onDev (fun d => when (decide (125 ≤ d.hk.broken)) Dev.levelStep d) s

/-- THROTTLE_STEP (R459): every 4 rounds; up only in a round whose good reading is at or above T_THROTTLE, down toward THR_MIN below THROTTLE. -/
def execThrottleStep (s : State) : Host.Outcome State Fault Refusal :=
  onDev (fun d =>
    let k := d.hk
    let level := d.g F.hk_THERM_STAT_LEVEL
    let thr := d.g F.hk_THERM_STAT_THR_LEVEL
    if k.stepped || decide (k.sinceStep = 0 ∨ k.sinceStep % 4 ≠ 0) then d
    else
      let d' := { d with hk := { k with stepped := true } }
      let lim := nthI (if k.thr = [] then d.thrRegs else k.thr) 1
      if level = 2 then (if k.good && decide (lim ≤ d.gi F.hk_THERM_STAT_T_DIE ∧ thr < 6) then d'.setThr (thr + 1) else d)
      else if level < 2 ∧ d.g F.hk_THR_MIN < thr then d'.setThr (thr - 1)
      else d) s

/-! ### Writes of the host (R456, R471) -/

/-- The reset values of the grade (R456): WARN, THROTTLE, CRIT. -/
def gradeThr (grade : Nat) : List Int := if grade = 0x58 then [0x690, 0x6E0, 0x780] else [0x5F0, 0x640, 0x6E0]
/-- A threshold register. -/
def thrFld (i : Nat) : Fld := if i = 0 then F.hk_T_WARN else if i = 1 then F.hk_T_THROTTLE else F.hk_T_CRIT

/-- A write of a threshold (R456): refused above the grade's value, or where it breaks T_WARN ≤ T_THROTTLE < T_CRIT. -/
def Dev.thresholdWrite (d : Dev) (i : Nat) (v : Word) : Dev :=
  let f := thrFld i
  let x := sx 16 (Word.f v 15 0)
  let t := d.thrRegs.set i x
  d.guarded f.addr v (rowsAt .hk (f.addr % 0x1000)) (fun d =>
    d.checked f.addr (decide (x ≤ nthI (gradeThr (d.g F.sys_DEV_ID_GRADE)) i ∧ nthI t 0 ≤ nthI t 1 ∧ nthI t 1 < nthI t 2)) (fun d => d.pi f x))
/-- THRESHOLD_WRITE (R456). -/
def execThresholdWrite (which : Fin 3) (val : Word) (s : State) : Host.Outcome State Fault Refusal :=
  hosted (thrFld which.val).addr (onDev (fun d => d.thresholdWrite which.val val)) s

/-- Writes of RISE_LIM and THR_MIN, within their ranges (R471); THR_LEVEL follows THR_MIN (R459). -/
def Dev.riseLimWrite (d : Dev) (v : Word) : Dev :=
  let f := F.hk_RISE_LIM
  d.guarded f.addr v (rowsAt .hk 0x50) (fun d => d.checked f.addr (decide (1 ≤ Word.f v 15 0 ∧ Word.f v 15 0 ≤ 32767)) (fun d => d.p f (Word.f v 15 0)))
def Dev.thrMinWrite (d : Dev) (v : Word) : Dev :=
  let f := F.hk_THR_MIN
  d.guarded f.addr v (rowsAt .hk 0x54) (fun d => d.checked f.addr (decide (Word.f v 2 0 ≤ 6)) (fun d =>
    let d := d.p f (Word.f v 2 0)
    d.setThr (d.g F.hk_THERM_STAT_THR_LEVEL)))

end Sys2Proof.Machine
end

