-- ==== Sys2Proof/Machine/Cal.lean ====
section
/-!
DEFINITION. The calibration store: records in the NOR, loading, calibration runs and direct NOR access (16 R461 to R470, R472).
-/
namespace Sys2Proof.Machine

/-- The CAL page (R472). -/
def calPage : Nat := 0x7000

/-! ### Records (R461 to R463) -/

/-- A byte of the NOR; an erased one is 0xFF. -/
def norByte (nor : Tab Byte) (a : Nat) : Nat := (Tab.at 0xFF nor a).toNat
/-- Bytes of the NOR. -/
def norBytes (nor : Tab Byte) (a n : Nat) : List Nat := (List.range n).map (fun i => norByte nor (a + i))
/-- Bytes put into the NOR. -/
def norPut (nor : Tab Byte) (a : Nat) (b : List Byte) : Tab Byte := b.zipIdx.foldl (fun t e => Tab.set 0xFF t (a + e.2) e.1) nor
/-- An erased range. -/
def norErase (nor : Tab Byte) (a n : Nat) : Tab Byte := nor.filter (fun e => decide (e.1 < a ∨ a + n ≤ e.1))

/-- Payload bytes of a type (R461). -/
def calLen (t : Nat) : Nat := nth [0, 33832, 8, 24, 648, 16] t
/-- Size of a bank of a type (R461). -/
def calBankSize (t : Nat) : Nat := if t = 1 then 0x9000 else 0x1000
/-- NOR offset of a bank (R461). -/
def calBank (h t bank : Nat) : Nat := 0x10000 + h * 0x1A000 + (if t = 1 then 0 else 0x12000 + (t - 2) * 0x2000) + bank * calBankSize t

/-- Slot block offsets that a type 4 record carries (R462). -/
def servoOffs : List Nat := (List.range 5).map (fun i => 0x10 + 4 * i) ++ (List.range 47).map (fun i => 0x3C + 4 * i)
/-- The HD page offsets that a type's record carries before the servo words. -/
def calHdOffs (t : Nat) : List Nat :=
  match t with
  | 1 => (List.range 8).map (fun i => 0x180 + 4 * i)
  | 2 => [0x20C, 0x210]
  | 3 => (List.range 6).map (fun i => 0x140 + 4 * i)
  | 5 => (List.range 4).map (fun i => 0x340 + 4 * i)
  | _ => []

/-- The bits that the fields at an offset of a page cover. -/
def fieldMask (pg : Pg) (off : Nat) : Nat := accMask (rowsAt pg off) (fun _ => true)

/-- The bits that each payload word may use, without the grid's nodes (R463). -/
def calMasks (t : Nat) : List Nat :=
  if t = 4 then (List.range 3).flatMap (fun a => [fieldMask .hd (0x110 + 8 * a), fieldMask .hd (0x114 + 8 * a)] ++ servoOffs.map (fun o => fieldMask .loop (0x80 + o)))
  else (calHdOffs t).map (fieldMask .hd)

/-- The payload of a record as words. -/
def calWords (t : Nat) (b : List Nat) : List Nat := (List.range (calLen t / 4)).map (fun i => leAt b (32 + 4 * i) 4)

/-- The checks of R463 on a record of a head and type. -/
def calValid (h t : Nat) (b : List Nat) : Bool :=
  decide (leAt b 0 2 = 0x4B43 ∧ nth b 2 = t ∧ nth b 3 = h ∧ leAt b 4 4 = calLen t ∧ leAt b 12 4 = 0)
    && (calMasks t).zipIdx.all (fun e => leAt b (32 + 4 * e.2) 4 &&& e.1 == leAt b (32 + 4 * e.2) 4)
    && decide (leAt b (32 + calLen t) 4 = crc32 (b.take (32 + calLen t)))

/-- A record of a bank, when it is valid; with whether a correct MAGIC fails another check (R463). -/
def calRead (nor : Tab Byte) (h t bank : Nat) : Option (List Nat) × Bool :=
  let a := calBank h t bank
  if norByte nor a = 0x43 ∧ norByte nor (a + 1) = 0x4B then
    let b := norBytes nor a (36 + calLen t)
    if calValid h t b then (some b, false) else (none, true)
  else (none, false)

/-- The bank in force and its record (R463): the later GEN, bank 0 when they are equal. -/
def calInForce (nor : Tab Byte) (h t : Nat) : Option (Nat × List Nat) :=
  match (calRead nor h t 0).1, (calRead nor h t 1).1 with
  | some a, some b => if 0 < sx 32 (leAt b 8 4 + 2 ^ 32 - leAt a 8 4) then some (1, b) else some (0, a)
  | some a, none => some (0, a)
  | none, some b => some (1, b)
  | none, none => none

/-! ### Loading (R464) -/

/-- A register set by hardware, as written and in force. -/
def Dev.setBoth (d : Dev) (a v : Nat) : Dev := (d.setReg a (BitVec.ofNat 32 v)).setLive a (BitVec.ofNat 32 v)
/-- The block of a loop slot. -/
def slotBase (s : Nat) : Nat := 0x40080 + 0x1000 * (s / 16) + 0xF8 * (s % 16)

/-- The registers that a type's payload words go to. -/
def Dev.calRegs (d : Dev) (h t : Nat) : List Nat :=
  let hd := 0x10000 + 0x1000 * h
  if t = 4 then (List.range 3).flatMap (fun a => [hd + 0x110 + 8 * a, hd + 0x114 + 8 * a] ++ servoOffs.map (fun o => slotBase (d.axisSlot h a) + o))
  else (calHdOffs t).map (hd + ·)

/-- One bit of a field as a field. -/
def Fld.bitAt (f : Fld) (i : Nat) : Fld := ⟨f.addr, f.lo + i, f.lo + i⟩

/-- The words and grid nodes that a type's record carries, from a record (R464). -/
def Dev.calPut (d : Dev) (h t : Nat) (b : List Nat) : Dev :=
  let d := (d.calRegs h t).zipIdx.foldl (fun d e => d.setBoth e.1 (leAt b (32 + 4 * e.2) 4)) d
  if t ≠ 1 then d
  else (List.range 4225).foldl (fun d n =>
    { d with grid := Tab.set 0 d.grid (h * 8192 + n) (BitVec.ofNat 64 (leAt b (64 + 8 * n) 8)), gridErr := Tab.set 0 d.gridErr (h * 8192 + n) 0 }) d
/-- The same at their reset values, which a missing type leaves (R464). -/
def Dev.calVoid (d : Dev) (h t : Nat) : Dev :=
  let l := d.calRegs h t
  let node (k : Nat) : Bool := decide (t = 1 ∧ k / 8192 = h)
  { d with regs := { d.regs with cur := d.regs.cur.filter (fun e => !l.contains e.1), live := d.regs.live.filter (fun e => !l.contains e.1) },
           grid := d.grid.filter (fun e => !node e.1), gridErr := d.gridErr.filter (fun e => !node e.1) }

/-- The type's fields from a record, or at their reset values (R464). -/
def Dev.calFill (d : Dev) (h t : Nat) (b : Option (List Nat)) : Dev :=
  let d := match b with | some b => d.calPut h t b | none => d.calVoid h t
  let ok := b2n b.isSome
  let d := if t = 1 then
      (d.p (F.hd_FC_STAT_VALID h) ok).p (F.hd_FC_STAT_HOST_WRITTEN h) 0
    else if t = 5 then d.p (F.hd_PD_STAT_VALID h) (b2n (decide (d.g (F.hd_PD_GAIN_A h) ≠ 0 ∧ d.g (F.hd_PD_GAIN_B h) ≠ 0))) else d
  let d := d.p ((F.cal_CAL_STATh_VALID h).bitAt (t - 1)) ok
  { d with cal := { d.cal with serial := Tab.set 0 d.cal.serial (h * 8 + t) (match b with | some b => leAt b 16 8 + 1 | none => 0) } }

/-- Load one type of a head (R463, R464). -/
def Dev.calLoadType (d : Dev) (nor : Tab Byte) (h t : Nat) : Dev :=
  let bad (d : Dev) (bank : Nat) : Dev := if (calRead nor h t bank).2 then d.raise calPage 6 [calBank h t bank] else d
  let d := bad (bad d 0) 1
  d.calFill h t ((calInForce nor h t).map (·.2))

/-- Load all types of a head (R464). -/
def Dev.calLoadHead (d : Dev) (nor : Tab Byte) (h : Nat) : Dev := [1, 2, 3, 4, 5].foldl (fun d t => d.calLoadType nor h t) d

/-- SERIAL_MISMATCH after the records of a head have changed (R466, R468): a run that replaces every record that differs clears it. -/
def Dev.mismatchClear (d : Dev) (h : Nat) : Dev :=
  match (d.lane h).serial with
  | none => d
  | some s => if [1, 2, 3, 4].all (fun t => let x := Tab.at 0 d.cal.serial (h * 8 + t); decide (x = 0 ∨ x = s + 1)) then d.p (F.cal_CAL_STATh_SERIAL_MISMATCH h) 0 else d

/-! ### Runs (R467 to R469) -/

/-- CAL_RESULT of a command. -/
def Dev.calResult (d : Dev) (op code : Nat) : Dev := (d.p F.cal_CAL_RESULT_OP op).p F.cal_CAL_RESULT_CODE code

/-- The run's record is loaded (R468). -/
def Dev.calRunLoad (d : Dev) (nor : Tab Byte) : Dev :=
  let h := d.g F.cal_RUN_STAT_HEAD
  let t := d.g F.cal_RUN_STAT_TYPE
  (((d.calLoadType nor h t).mismatchClear h).calEnd).raise calPage 1

/-- The load that waits for a layer boundary (R468). -/
def Dev.calLayer (d : Dev) (nor : Tab Byte) : Dev := if d.cal.loadWaits then d.calRunLoad nor else d
/-- The load of a run that has ended before a layer boundary came (R468): in IDLE and ARMED it waits for nothing. -/
def Dev.calIdle (d : Dev) (nor : Tab Byte) : Dev := if d.isSt .idle || d.isSt .armed then d.calLayer nor else d

/-- Do two words of a type's runs agree (R467). -/
def Dev.calAgree (d : Dev) (t a b : Nat) : Bool :=
  let x := sx 32 a
  let y := sx 32 b
  let tol := max (d.g (F.cal_TOLt_ABS (t - 1)) : Int) (max (absI x) (absI y) * d.g (F.cal_TOLt_REL (t - 1)) / 65536)
  decide (absI (x - y) ≤ tol)

/-- RUN_SUBMIT (R467): a candidate is checked and copied; the second one is compared with the first. -/
def Dev.runSubmit (d : Dev) (m : List Host.Cell) : Dev :=
  let st := d.g F.cal_RUN_STAT_STATE
  if st = 0 ∨ st = 3 then d.calResult 2 2
  else
    let h := d.g F.cal_RUN_STAT_HEAD
    let t := d.g F.cal_RUN_STAT_TYPE
    let a := d.g F.cal_CAND_LO * 8 + d.g F.cal_CAND_HI * 2 ^ 32
    let n := 36 + calLen t
    if d.devRegion < a + n then d.calResult 2 3
    else
      let (bad, d) := d.dramRead 3 a n
      let b := memBytes m a n
      if bad || !calValid h t b || decide (leAt b 8 4 ≠ 0) || (d.lane h).serial != some (leAt b 16 8) then d.calResult 2 3
      else if st = 1 then { ((d.p F.cal_RUN_STAT_STATE 2).calResult 2 0) with cal := { d.cal with run1 := b } }
      else
        let x := calWords t d.cal.run1
        let y := calWords t b
        match (List.range (calLen t / 4)).find? (fun w => !d.calAgree t (nth x w) (nth y w)) with
        | some w => (((d.p F.cal_DIFF_WORD w).calEnd).calResult 2 4).raise calPage 2
        | none => { ((d.p F.cal_RUN_STAT_STATE 3).calResult 2 0) with cal := { d.cal with run2 := b, accTime := d.time.sec % 2 ^ 34 * 2 ^ 30 + d.time.ns } }

/-- The accepted record (R468): the mean of the runs, word by word, GEN one later than the record in force, and TIME of its acceptance. -/
def Dev.calRecord (d : Dev) (nor : Tab Byte) (h t : Nat) (run1 run2 : List Nat) : List Byte :=
  let gen := match calInForce nor h t with | some r => (leAt r.2 8 4 + 1) % 2 ^ 32 | none => 1
  let mean (a b : Nat) : Nat := ux 32 (rdiv (sx 32 a + sx 32 b) 2)
  let x := calWords t run1
  let y := calWords t run2
  let body := leBytes 2 0x4B43 ++ [BitVec.ofNat 8 t, BitVec.ofNat 8 h] ++ leBytes 4 (calLen t) ++ leBytes 4 gen ++ leBytes 4 0
    ++ leBytes 8 (leAt run1 16 8) ++ leBytes 8 d.cal.accTime
    ++ (List.zipWith mean x y).flatMap (fun w => leBytes 4 w)
  body ++ leBytes 4 (crc32 (body.map (·.toNat)))

/-- A meaning that changes the logic die and the NOR. -/
def onNor (f : Dev × Tab Byte → Dev × Tab Byte) (s : State) : Host.Outcome State Fault Refusal :=
  let r := f (s.dev, s.nor)
  .next { s with dev := r.1, nor := r.2 }

/-- The bank that is not in force (R468). -/
def calSpare (nor : Tab Byte) (h t : Nat) : Nat := match calInForce nor h t with | some r => 1 - r.1 | none => 0
/-- The bank not in force, erased and programmed with bytes (R468). -/
def calBurn (nor : Tab Byte) (h t : Nat) (bytes : List Byte) : Tab Byte :=
  let a := calBank h t (calSpare nor h t)
  norPut (norErase nor a (calBankSize t)) a (bytes.take (36 + calLen t))

/-- CAL_RECORD_WRITTEN (R468): the bank not in force has been erased and programmed, and is read back; `readBack` is what it holds where that is not
what was programmed. The record is loaded, at once or at the next layer boundary, or WRITE_FAIL is raised. After a CRIT it stands in the store alone (R460). -/
def execCalRecordWritten (readBack : Option (List Byte)) (s : State) : Host.Outcome State Fault Refusal :=
  onNor (fun (d, nor) =>
    if d.g F.cal_RUN_STAT_STATE ≠ 3 ∨ d.cal.loadWaits then
      match d.cal.cut with
      | some (h, t, a, b) => ({ d with cal := { d.cal with cut := none } }, calBurn nor h t (readBack.getD (d.calRecord nor h t a b)))
      | none => (d, nor)
    else
      let h := d.g F.cal_RUN_STAT_HEAD
      let t := d.g F.cal_RUN_STAT_TYPE
      let bank := calSpare nor h t
      let nor := calBurn nor h t (readBack.getD (d.calRecord nor h t d.cal.run1 d.cal.run2))
      if (calRead nor h t bank).1.isNone then (((d.calEnd).calResult 2 5).raise calPage 3, nor)
      else if d.isSt .running then ({ d with cal := { d.cal with loadWaits := true } }, nor)
      else (d.calRunLoad nor, nor)) s

/-! ### SRAM rows (14 R419) -/

/-- The nodes with errors whose words a row of a shared array holds. Where the field correction store lies in the arrays the spec does not say: a free
value (log 118). -/
def Dev.rowNodes (d : Dev) (i : Nat) : List Nat × Dev :=
  if (Tab.at {} d.units.entries i).owners ≠ [] ∨ d.gridErr = [] then ([], d)
  else
    let (x, d) := d.draw
    ((d.gridErr.map (·.1)).zipIdx.filterMap (fun e => if bit x e.2 then some e.1 else none), d)

/-- The firmware rewrites the uncorrectable words among these nodes from the calibration record, where there is one. -/
def Dev.nodesRewrite (d : Dev) (nor : Tab Byte) (l : List Nat) : Dev :=
  l.foldl (fun d k =>
    match calInForce nor (k / 8192) 1 with
    | some r => if Tab.at 0 d.gridErr k < 2 then d
                else { d with grid := Tab.set 0 d.grid k (BitVec.ofNat 64 (leAt r.2 (64 + 8 * (k % 8192)) 8)), gridErr := Tab.set 0 d.gridErr k 0 }
    | none => d) d

/-- SPARE_ROW_READY (14 R419): the spare row holds the row's contents, and the entry is ready; before that the uncorrectable words of the field correction
store that lie in it are rewritten. -/
def execSpareRowReady (entry : Fin 16) (s : State) : Host.Outcome State Fault Refusal :=
  onNor (fun (d, nor) =>
    let i := entry.val
    if d.g (F.unit_REMAP_Qi_STATE i) = 1 then
      let (l, d) := d.rowNodes i
      let d := d.nodesRewrite nor l
      ({ (d.p (F.unit_REMAP_Qi_STATE i) 2) with
         units := { d.units with entries := Tab.upd {} d.units.entries i (fun e => { e with at_ := d.now, nodes := l }) } }, nor)
    else (d, nor)) s

/-! ### Commands (R464, R466, R467, R469, R470, R472) -/

/-- A write of CAL_CMD (R472): the checks of CODE 6, then the operation. -/
def Dev.calCmd (d : Dev) (m : List Host.Cell) (v : Word) : Dev :=
  let op := Word.f v 3 0
  let h := Word.f v 13 8
  let t := Word.f v 6 4
  let run := d.on F.cal_RUN_STAT_STATE
  let busy := d.cal.reload.isSome || d.cal.norOp.isSome
  let res (c : Nat) : Dev := d.calResult op c
  if Word.f v 31 16 ≠ 0x434C ∨ op = 0 ∨ 8 < op ∨ 48 ≤ h ∨ (op = 1 ∧ (t < 1 ∨ 5 < t)) then res 6
  else match op with
    | 1 =>
      if !(d.isSt .idle || d.isSt .armed || d.isSt .running) then res 2
      else if run || busy then res 1
      else (((((d.p F.cal_RUN_STAT_STATE 1).p F.cal_RUN_STAT_HEAD h).p F.cal_RUN_STAT_TYPE t).p ((F.cal_CAL_STATh_STALE h).bitAt (t - 1)) 1)).calResult 1 0
    | 2 => d.runSubmit m
    | 3 => if !run then res 2 else d.calEnd.calResult 3 0
    | 4 =>
      if !d.isSt .idle then res 2
      else if run || busy then res 1
      else { (d.calResult 4 0) with cal := { d.cal with reload := some h } }
    | 5 =>
      match (d.lane h).serial with
      | none => res 2
      | some s => { ((d.p (F.cal_CAL_STATh_SERIAL_MISMATCH h) 0).calResult 5 0) with cal := { d.cal with accepted := Tab.set 0 d.cal.accepted h (s + 1) } }
    | _ =>
      let a := d.g F.cal_NOR_ADDR
      let n := d.g F.cal_NOR_LEN
      if !d.isSt .idle || run then res 2
      else if busy then res 1
      else if op ≠ 8 ∧ (n = 0 ∨ 256 < a % 256 + n) then (res 2).errAt 0x83 F.cal_CAL_CMD_OP.addr
      else
        let buf := ((List.range 64).flatMap (fun i => (leBytes 4 (d.g (F.cal_NOR_BUF i))).map (·.toNat))).take n
        { (d.calResult op 0) with cal := { d.cal with norOp := some (op, a, n, if op = 7 then buf else []) } }

/-- What a write of CAL_CMD reads of DRAM: of RUN_SUBMIT the candidate. -/
def Dev.calReads (d : Dev) (v : Word) : List (Nat × Nat) :=
  if Word.f v 3 0 = 2 then [(d.g F.cal_CAND_LO * 8 + d.g F.cal_CAND_HI * 2 ^ 32, 36 + calLen (d.g F.cal_RUN_STAT_TYPE))] else []
/-- A write of CAL_CMD, with its reads. -/
def calWrite (v : Word) (r : Dev × List Host.Cell) : Dev × List Host.Cell :=
  let r := dramTurns (r.1.calReads v) r
  (r.1.calCmd r.2 v, r.2)

/-- A write of CAL_CMD whose OP is the row's. -/
def calRow (op : Nat) (v : Word) (s : State) : Host.Outcome State Fault Refusal :=
  hosted F.cal_CAL_CMD_OP.addr (onMem (fun r => if Word.f v 3 0 = op then calWrite v r else r)) s
/-- RUN_START (R467). -/
def execRunStart (val : Word) (s : State) : Host.Outcome State Fault Refusal := calRow 1 val s
/-- RUN_SUBMIT (R467). -/
def execRunSubmit (val : Word) (s : State) : Host.Outcome State Fault Refusal := calRow 2 val s
/-- RUN_CANCEL (R469). -/
def execRunCancel (val : Word) (s : State) : Host.Outcome State Fault Refusal := calRow 3 val s
/-- RELOAD (R464). -/
def execReload (val : Word) (s : State) : Host.Outcome State Fault Refusal := calRow 4 val s
/-- ACCEPT_SERIAL (R466). -/
def execAcceptSerial (val : Word) (s : State) : Host.Outcome State Fault Refusal := calRow 5 val s
/-- NOR_READ (R470). -/
def execNorRead (val : Word) (s : State) : Host.Outcome State Fault Refusal := calRow 6 val s
/-- NOR_PROGRAM (R470). -/
def execNorProgram (val : Word) (s : State) : Host.Outcome State Fault Refusal := calRow 7 val s
/-- NOR_ERASE (R470). -/
def execNorErase (val : Word) (s : State) : Host.Outcome State Fault Refusal := calRow 8 val s

/-- SERIAL_MISMATCH by the records' SERIAL alone (R466). -/
def Dev.serialAlone (d : Dev) (h : Nat) : Dev :=
  match (d.lane h).serial with
  | none => d
  | some x => if d.on (F.cal_CAL_STATh_SERIAL_MISMATCH h) then d.mismatchClear h else d.serialCheck h x

/-- LOAD_DONE (R464, R466): the reload of a head completes; its accepted serial is forgotten, and from then on the records' SERIAL alone decides. -/
def execLoadDone (s : State) : Host.Outcome State Fault Refusal :=
  onNor (fun (d, nor) =>
    match d.cal.reload with
    | none => (d, nor)
    | some h =>
      let d := { d with cal := { d.cal with reload := none, accepted := Tab.set 0 d.cal.accepted h 0 } }
      (((d.calLoadHead nor h).serialAlone h).raise calPage 0, nor)) s

/-- NOR_DONE (R470): a read fills NOR_BUF; a program clears bits, as a NOR does; an erase sets its sector to 0xFF. -/
def execNorDone (s : State) : Host.Outcome State Fault Refusal :=
  onNor (fun (d, nor) =>
    match d.cal.norOp with
    | none => (d, nor)
    | some (op, a, n, buf) =>
      let d := { d with cal := { d.cal with norOp := none } }
      if op = 6 then
        let b := norBytes nor a n
        let d := (List.range 64).foldl (fun d i =>
          if 4 * i < n then
            let old := (leBytes 4 (d.g (F.cal_NOR_BUF i))).map (·.toNat)
            d.p (F.cal_NOR_BUF i) (ofLE ((List.range 4).map (fun j => if 4 * i + j < n then nth b (4 * i + j) else nth old j)))
          else d) d
        (d.raise calPage 5, nor)
      else if op = 7 then
        (d.raise calPage 5, norPut nor a (buf.zipIdx.map (fun e => BitVec.ofNat 8 (e.1 &&& norByte nor (a + e.2)))))
      else (d.raise calPage 5, norErase nor (a / 4096 * 4096) 4096)) s

end Sys2Proof.Machine
end

