-- ==== Sys2Proof/Machine/Dma.lean ====
section
/-!
DEFINITION. The DMA engine (13). Descriptor reads, LINK reads, write-backs and data fragments are served in the order of R393 (log 97): a read at once
where it is its channel's turn, and everything that comes before when a read's end, a descriptor's completion or a STOP in execution is commanded. A
fragment takes effect at the controller when it is served, in arrival order (R365, R395).
-/
namespace Sys2Proof.Machine

/-- The DMA page of a channel. -/
def dmaPage (n : Nat) : Nat := 0xE0000 + n * 0x1000
/-- A channel's hidden state. -/
def Dev.dma (d : Dev) (n : Nat) : DmaSt := Tab.at {} d.dmas n
/-- Change it. -/
def Dev.dmaUpd (d : Dev) (n : Nat) (f : DmaSt → DmaSt) : Dev := { d with dmas := Tab.upd {} d.dmas n f }
/-- CH_STAT.STATE (R391): 0 IDLE, 1 RUNNING, 2 WAIT_TRIG, 3 TAIL_WAIT, 4 HALTED. -/
def Dev.dmaSt (d : Dev) (n : Nat) : Nat := d.g (F.dma_CH_STAT_STATE n)
/-- The descriptor in execution or awaiting its LINK read. -/
def Dev.dmaCur (d : Dev) (n : Nat) : Nat := d.g2 (F.dma_CUR_LO n) (F.dma_CUR_HI n)

/-! ### Descriptors (R381, R382, R386) -/

/-- A field of a descriptor's bytes. -/
def descF (b : List Nat) (o n : Nat) : Nat := ofLE ((b.drop o).take n)
/-- CTRL, LENGTH, SRC, DST, PATTERN and TAG. -/
def descCtrl (b : List Nat) : Nat := descF b 8 4
def descLen (b : List Nat) : Nat := descF b 12 4
def descSrc (b : List Nat) : Nat := descF b 16 8
def descDst (b : List Nat) : Nat := descF b 24 8
def descPat (b : List Nat) : Nat := descF b 32 8
/-- TAG as the payload of an event. -/
def descTag (b : List Nat) : List Nat := [descF b 40 4, descF b 44 4]

/-- Does a range lie wholly below a limit. -/
def below (a n lim : Nat) : Bool := decide (a + n ≤ lim)

/-- The checks of step 1 (R386): the code of the first that fails, 0 for none. -/
def Dev.descCheck (d : Dev) (n cur : Nat) (b : List Nat) : Nat :=
  let c := descCtrl b
  let op := c % 16
  let len := descLen b
  let link := descF b 0 8
  let readsSrc := op = 1 ∨ (op = 3 ∧ !bit c 11)
  let writes := op = 1 ∨ op = 2
  if op = 0 ∨ 3 < op ∨ c / 4096 ≠ 0 ∨ bits c 6 4 ≠ 0 ∨ bits link 5 1 ≠ 0 ∨ len = 0 ∨ 0x40000000 < len
      ∨ (bit c 7 ∧ d.g (F.dma_CH_CTRL_TRIG_SRC n) = 0) ∨ d.devRegion ≤ link / 64 * 64 then 1
  else if (readsSrc ∧ !below (descSrc b) len d.capacity) ∨ !below (descDst b) len d.capacity ∨ !below cur 64 d.capacity then 2
  else if (writes ∧ !below (descDst b) len d.devRegion) ∨ (bit c 9 ∧ !below cur 64 d.devRegion) then 3
  else 0

/-! ### Operations (R383, R387, R390) -/

/-- The aligned fragments that a range touches (R384 step 3). -/
def fragCount (a n : Nat) : Nat := if n = 0 then 0 else (a + n - 1) / 64 - a / 64 + 1
/-- The `i`-th of them in ascending order: its first byte's index, and its bytes. -/
def fragAt (a n i : Nat) : Nat × Nat :=
  let k := a / 64 + i
  let lo := max a (64 * k)
  (lo - a, min (a + n) (64 * k + 64) - lo)

/-- The code of a bad read: 4 uncorrectable, 6 poisoned. -/
def badCode (x : Nat) : Nat := if x = 2 then 6 else 4

/-- Read one fragment: 0 or the error code. -/
def Dev.dmaRead (d : Dev) (a n : Nat) : Nat × Dev :=
  (burstsOf a n).foldl (fun (r : Nat × Dev) k =>
    if r.1 ≠ 0 then r else let (x, d) := (r.2.touch k).readBurst 2 k; (if 2 ≤ x then badCode x else 0, d)) (0, d)

/-- The bursts of a range are written poisoned (R390). -/
def Dev.poison (d : Dev) (a n : Nat) : Dev :=
  (burstsOf a n).foldl (fun d k =>
    let d := d.touch k
    { d with ddr := { d.ddr with bursts := Tab.set {} d.ddr.bursts k ⟨true, []⟩ } }) d

/-- How many fragments a descriptor's operation has: a COPY onto itself writes nothing (R387). -/
def descFrags (b : List Nat) : Nat :=
  if descCtrl b % 16 = 1 then (if descSrc b = descDst b then 0 else fragCount (descSrc b) (descLen b)) else fragCount (descDst b) (descLen b)

/-- The fragment that a descriptor's operation does as its `i`-th (R384 step 3, R387): of a COPY that overlaps upward the highest first. -/
def descFrag (b : List Nat) (i : Nat) : Nat × Nat :=
  let src := descSrc b
  let dst := descDst b
  let len := descLen b
  if descCtrl b % 16 = 1 then fragAt src len (if src < dst ∧ dst < src + len then descFrags b - 1 - i else i) else fragAt dst len i

/-- Byte of the PATTERN at an offset (R383). -/
def patByte (b : List Nat) (a : Nat) : Nat := descPat b / 256 ^ (a % 8) % 256

/-- A channel begins its operation. -/
def Dev.dmaBegin (d : Dev) (n : Nat) : Dev := d.dmaUpd n (fun t => { t with phase := 2, pos := 0, done := 0, err := 0, miss := none })

/-- Has a channel a fragment ready (R393). -/
def Dev.dmaReady (d : Dev) (n : Nat) : Bool :=
  let t := d.dma n
  match t.phase with
  | 1 | 3 => !t.served
  | 2 => d.dmaSt n == 1 && decide (t.err = 0) && t.miss.isNone && decide (t.pos < descFrags t.desc)
  | 4 => true
  | _ => false

/-- The first channel of a priority level with a fragment ready, by rotation from the one after `last` (R393). -/
def Dev.dmaRotate (d : Dev) (prio last : Nat) : Option Nat :=
  ((List.range 32).map (fun i => (last + 1 + i) % 32)).find? (fun n => d.g (F.dma_CH_CTRL_PRIO n) == prio && d.dmaReady n)

/-- The channel that the engine serves next (R393): PRIO = 1 before PRIO = 0, and within a level by rotation from the one served last at that level (log 97). -/
def Dev.dmaNext (d : Dev) : Option Nat := (d.dmaRotate 1 d.eng.last1).orElse (fun _ => d.dmaRotate 0 d.eng.last0)

/-- The oldest outstanding fragment is done at the controller. -/
def dmaRetire (r : Dev × List Host.Cell) : Dev × List Host.Cell :=
  let (d, m) := r
  match d.eng.out with
  | [] => r
  | f :: rest =>
    let d := ({ d with eng := { d.eng with out := rest } }).dmaUpd f.chan (fun t => { t with done := t.done + f.good })
    let d := when (f.good != 0) (fun d => d.p (F.dma_BYTES_LEFT f.chan) (descLen (d.dma f.chan).desc - (d.dma f.chan).done)) d
    if f.poison then
      let (d, m) := dramTurn f.dst f.len (d, m)
      (d.poison f.dst f.len, m)
    else if f.data = [] then (d, m)
    else dramWrite 2 f.dst f.data (d, m)

/-- The oldest `k` of them are. -/
def dmaRetires : Nat → Dev × List Host.Cell → Dev × List Host.Cell
  | 0, r => r
  | k + 1, r => dmaRetires k (dmaRetire r)

/-- All outstanding fragments are done. -/
def dmaFlush (r : Dev × List Host.Cell) : Dev × List Host.Cell := dmaRetires r.1.eng.out.length r

/-- The ranges that the next fragment of a channel reads (R383). -/
def descReads (b : List Nat) (i : Nat) : List (Nat × Nat) :=
  let (o, k) := descFrag b i
  match descCtrl b % 16 with
  | 1 => [(descSrc b + o, k)]
  | 2 => []
  | _ => (descDst b + o, k) :: (if bit (descCtrl b) 11 then [] else [(descSrc b + o, k)])

/-- How many outstanding fragments must be done before the next one of channel `n`: those that write a burst it reads, and all before them (R365). -/
def Dev.dmaFirst (d : Dev) (n : Nat) : Nat :=
  let t := d.dma n
  let reads : List Nat := match t.phase with
    | 2 => (descReads t.desc t.pos).flatMap (fun (e : Nat × Nat) => burstsOf e.1 e.2)
    | 4 => []
    | _ => [d.dmaCur n / 64]
  (d.eng.out.reverse.dropWhile (fun f => (burstsOf f.dst f.len).all (fun k => k ∉ reads))).length

/-- A fragment of channel `n` is outstanding. -/
def Dev.dmaOut (d : Dev) (n : Nat) (f : DmaFrag) : Dev := { d with eng := { d.eng with out := d.eng.out ++ [{ f with chan := n }] } }

/-- The next fragment of a descriptor's operation reaches the controller: its reads are done there, and what it writes is outstanding (R383, R390). -/
def dmaData (n : Nat) (r : Dev × List Host.Cell) : Dev × List Host.Cell :=
  let t := r.1.dma n
  let b := t.desc
  let c := descCtrl b
  let src := descSrc b
  let dst := descDst b
  let (o, k) := descFrag b t.pos
  let r := dramTurns (descReads b t.pos) r
  let m := r.2
  let d := r.1.dmaUpd n (fun t => { t with pos := t.pos + 1 })
  let put (d : Dev) (f : DmaFrag) : Dev := d.dmaOut n { f with dst := dst + o, len := k }
  match c % 16 with
  | 1 =>
    let (x, d) := d.dmaRead (src + o) k
    if x ≠ 0 then (put (d.dmaUpd n (fun t => { t with err := x })) { poison := true }, m)
    else (put d { data := (List.range k).map (fun i => memByte m (src + o + i)), good := k }, m)
  | 2 => (put d { data := (List.range k).map (fun i => BitVec.ofNat 8 (patByte b (dst + o + i))), good := k }, m)
  | _ =>
    let (x, d) := d.dmaRead (dst + o) k
    let (y, d) := if x ≠ 0 ∨ bit c 11 then (0, d) else d.dmaRead (src + o) k
    let e := if x ≠ 0 then x else y
    if e ≠ 0 then (d.dmaUpd n (fun t => { t with err := e }), m)
    else
      let want (i : Nat) : Nat := if bit c 11 then patByte b (dst + o + i) else (memByte m (src + o + i)).toNat
      match (List.range k).find? (fun i => (memByte m (dst + o + i)).toNat != want i) with
      | some i => (put (d.dmaUpd n (fun t => { t with miss := some (o + i) })) { good := i }, m)
      | none => (put d { good := k }, m)

/-- A fragment of channel `n` reaches the controller (R365): a descriptor or LINK read is done there, a write-back is outstanding, or the operation goes on. -/
def dmaServeOne (n : Nat) (r : Dev × List Host.Cell) : Dev × List Host.Cell :=
  let d := r.1
  let d := if d.g (F.dma_CH_CTRL_PRIO n) = 1 then { d with eng := { d.eng with last1 := n } } else { d with eng := { d.eng with last0 := n } }
  let t := d.dma n
  let a := d.dmaCur n
  match t.phase with
  | 2 => dmaData n (d, r.2)
  | 4 => ((d.dmaUpd n (fun t => { t with phase := 0 })).dmaOut n { dst := a + 0x30, data := leBytes 8 t.back ++ leBytes 8 (t.miss.getD (2 ^ 64 - 1)), len := 16 }, r.2)
  | p =>
    let k := if p = 1 then 64 else 8
    let (d, m) := dramTurn a k (d, r.2)
    let (bad, d) := d.dramRead 2 a k
    ((d.dmaUpd n (fun t => { t with served := true, read := memBytes m a k, bad := bad })).dmaOut n { dst := a, len := k }, m)

/-- One fragment is served (R393). How many of the outstanding ones are done by then is free, but at most 16 are outstanding, and a read finds what earlier
fragments have written (R365). -/
def dmaTurn (n : Nat) (r : Dev × List Host.Cell) : Dev × List Host.Cell :=
  let o := r.1.eng.out.length
  let (x, d) := if o = 0 then (0, r.1) else r.1.draw
  dmaServeOne n (dmaRetires (max (max (x % (o + 1)) (o - 15)) (r.1.dmaFirst n)) (d, r.2))

/-- The engine serves fragments in the order of R393 until `stop` of channel `n`'s have been served or it has none ready; `fuel` bounds the turns. -/
def dmaServe (n stop : Nat) : Nat → Dev × List Host.Cell → Dev × List Host.Cell
  | 0, r => r
  | fuel + 1, r =>
    if !r.1.dmaReady n || ((r.1.dma n).phase == 2 && decide (stop ≤ (r.1.dma n).pos)) then r
    else match r.1.dmaNext with
      | none => r
      | some c => dmaServe n stop fuel (dmaTurn c r)

/-- Fragments that all channels have left to serve. -/
def Dev.dmaLeft (d : Dev) : Nat :=
  (List.range 32).foldl (fun k n => k + if !d.dmaReady n then 0 else if (d.dma n).phase = 2 then descFrags (d.dma n).desc - (d.dma n).pos else 1) 0

/-- The engine runs until channel `n` has served `stop` fragments or all it has, and the outstanding ones are done. -/
def dmaRun (n stop : Nat) (r : Dev × List Host.Cell) : Dev × List Host.Cell := dmaFlush (dmaServe n stop r.1.dmaLeft r)

/-- STATUS and MISMATCH_OFS are written back where WB = 1, never into the device region (R381, R384 step 4, R386). -/
def dmaBack (n : Nat) (status : Nat) (miss : Option Nat) (r : Dev × List Host.Cell) : Dev × List Host.Cell :=
  let b := (r.1.dma n).desc
  if !bit (descCtrl b) 9 || !below (r.1.dmaCur n) 64 r.1.devRegion then r
  else dmaRun n 0 (r.1.dmaUpd n (fun t => { t with phase := 4, back := status, miss := miss }), r.2)

/-! ### Steps of a chain (R384, R389, R390, R395) -/

/-- Issue the read of a phase, 1 or 3: the engine serves it at once where its channel is the next (R393). -/
def dmaIssue (n phase : Nat) (r : Dev × List Host.Cell) : Dev × List Host.Cell :=
  let d := r.1.dmaUpd n (fun t => { t with phase := phase, served := false, read := [], bad := false })
  if d.dmaNext = some n then dmaTurn n (d, r.2) else (d, r.2)

/-- Fetch the descriptor at an offset: until it is read, the channel has none. -/
def dmaFetch (n a : Nat) (r : Dev × List Host.Cell) : Dev × List Host.Cell :=
  let d := (r.1.p2 (F.dma_CUR_LO n) (F.dma_CUR_HI n) a).p (F.dma_CH_STAT_STATE n) 1
  dmaIssue n 1 (d.dmaUpd n (fun t => { t with desc := [], status := 0, miss := none, done := 0 }), r.2)

/-- The LINK read of step 6, which clears DB_PEND. -/
def dmaLink (n : Nat) (r : Dev × List Host.Cell) : Dev × List Host.Cell := dmaIssue n 3 (r.1.p (F.dma_CH_STAT_DB_PEND n) 0, r.2)

/-- The engine serves the read that a channel has issued, if it has not yet. -/
def dmaAwait (n : Nat) (r : Dev × List Host.Cell) : Dev × List Host.Cell := dmaServe n 0 r.1.dmaLeft r

/-- The channel halts (R390): the event's record gives TAG (R381) and the descriptor's offset. -/
def Dev.dmaHalt (d : Dev) (n code : Nat) : Dev :=
  let cur := d.dmaCur n
  let d := ((d.p (F.dma_CH_STAT_STATE n) 4).p (F.dma_CH_STAT_ERR_CODE n) code).dmaUpd n (fun t => { t with phase := 0, read := [] })
  (d.err (dmaPage n) code 0 (cur % 2 ^ 32)).raise (dmaPage n) 4 (descTag (d.dma n).desc ++ [cur % 2 ^ 32, cur / 2 ^ 32])

/-- A trigger arises at every channel with a source that satisfies `p` (R388). -/
def Dev.dmaFire (d : Dev) (p : Nat → Bool) : Dev :=
  forN 32 (fun n d => when (p n) (fun d => d.dmaUpd n (fun t => { t with due := t.due + 1 })) d) d

/-- DONE of a channel, which may trigger others. -/
def Dev.dmaDone (d : Dev) (n : Nat) : Dev :=
  (d.raise (dmaPage n) 0 (descTag (d.dma n).desc)).dmaFire (fun k => d.g (F.dma_CH_CTRL_TRIG_SRC k) == 2 && d.g (F.dma_TRIG_CH k) == n && k != n)

/-- A trigger that is neither consumed nor latched (R389). -/
def Dev.dmaMiss (d : Dev) (n : Nat) : Dev :=
  ((d.bump (F.dma_TRIG_MISSED n)).flag (F.dma_CH_FLAGS_TRIG_MISSED n)).raise (dmaPage n) 5

/-- The ranges of a COPY overlap (R387). -/
def descOverlap (b : List Nat) : Bool :=
  decide (descCtrl b % 16 = 1 ∧ descSrc b < descDst b + descLen b ∧ descDst b < descSrc b + descLen b)

/-- OVERLAP is reported (R387). -/
def Dev.dmaOverlap (d : Dev) (n : Nat) : Dev :=
  let b := (d.dma n).desc
  when (descOverlap b) (fun d => (d.flag (F.dma_CH_FLAGS_OVERLAP n)).raise (dmaPage n) 3 (descTag b)) d

/-- A descriptor's operation has ended, on a bad read, on a mismatch or with its last fragment (R383, R384 steps 4 to 6, R390). -/
def dmaEnd (n : Nat) (r : Dev × List Host.Cell) : Dev × List Host.Cell :=
  let (d, m) := r
  let res := d.dma n
  let b := res.desc
  let c := descCtrl b
  let d := d.dmaOverlap n
  let d := when (c % 16 == 3) (fun d => d.p2 (F.dma_MISMATCH_LO n) (F.dma_MISMATCH_HI n) (res.miss.getD (2 ^ 64 - 1))) d
  let d := when res.miss.isSome (fun d => (d.flag (F.dma_CH_FLAGS_MISMATCH n)).raise (dmaPage n) 2 (descTag b)) d
  let d := d.p (F.dma_BYTES_LEFT n) (if descSrc b = descDst b ∧ c % 16 = 1 then 0 else descLen b - res.done)
  let code := if res.err ≠ 0 then res.err else if res.miss.isSome && bit c 10 then 8 else 0
  let bits_ := b2n res.miss.isSome * 2 ^ 30 + b2n (descOverlap b) * 2 ^ 29
  let d := d.dmaUpd n (fun t => { t with phase := 0, status := if code ≠ 0 then bits_ else bits_ + 2 ^ 31 })
  if code ≠ 0 then
    let (d, m) := dmaBack n (bits_ + 2 ^ 27 + code * 256) res.miss (d, m)
    (d.dmaHalt n code, m)
  else
    let (d, m) := dmaBack n (bits_ + 2 ^ 31) res.miss (d.p (F.dma_BYTES_LEFT n) 0, m)
    let d := when (bit c 8) (fun d => d.dmaDone n) d
    dmaLink n (d.bumpW (F.dma_DONE_COUNT n), m)

/-- STOP (R391, R392): in execution a free number of fragments is done first (log 28); where they end the operation, it ends as always, and what is cut short
writes ABORTED. -/
def dmaStop (n : Nat) (r : Dev × List Host.Cell) : Dev × List Host.Cell :=
  let (d, m) := r
  let st := d.dmaSt n
  if st = 0 then r
  else
    let t := d.dma n
    let (d, m) :=
      if t.phase = 2 ∧ st = 1 then
        let (x, d) := d.draw
        let (d, m) := dmaRun n (t.pos + x % (descFrags t.desc - t.pos + 1)) (d, m)
        let t := d.dma n
        if t.err ≠ 0 ∨ t.miss.isSome ∨ descFrags t.desc ≤ t.pos then dmaEnd n (d, m)
        else dmaBack n (2 ^ 28 + b2n (descOverlap t.desc) * 2 ^ 29) none (d.dmaOverlap n, m)
      else if st = 2 then dmaBack n (2 ^ 28) none (d, m)
      else (d, m)
    let d := ((d.p (F.dma_CH_STAT_STATE n) 0).p (F.dma_CH_STAT_TRIG_PEND n) 0).p (F.dma_CH_STAT_DB_PEND n) 0
    let d := (d.p (F.dma_CH_STAT_ERR_CODE n) 0).p (F.dma_BYTES_LEFT n) 0
    ((d.dmaUpd n (fun t => { t with phase := 0, read := [] })).raise (dmaPage n) 6 (descTag t.desc), m)

/-- A write of CH_CMD with one OP (R392): `k` answers the result. -/
def dmaCmd (n op : Nat) (v : Word) (k : Dev × List Host.Cell → Nat × Dev × List Host.Cell) (r : Dev × List Host.Cell) : Dev × List Host.Cell :=
  if Word.f v 31 16 ≠ 0x444D then (r.1.p (F.dma_CH_STAT_CMD_RESULT n) 1, r.2)
  else if Word.f v 2 0 ≠ op then r
  else let (x, d, m) := k r; (d.p (F.dma_CH_STAT_CMD_RESULT n) x, m)

/-- START (R392). -/
def dmaStartCmd (n : Nat) (v : Word) : Dev × List Host.Cell → Dev × List Host.Cell :=
  dmaCmd n 1 v (fun (d, m) =>
    if d.dmaSt n ≠ 0 ∨ !d.enabled (dmaPage n) then (2, d, m)
    else if d.st < 5 then (3, d, m)
    else
      let d := (d.p (F.dma_CH_STAT_TRIG_PEND n) 0).dmaUpd n (fun t => { t with timer := some (d.now + 500 * d.g (F.dma_TIMER_US n)) })
      (0, dmaFetch n (d.g (F.dma_CHAIN_LO n) * 64 + d.g (F.dma_CHAIN_HI n) * 2 ^ 32) (d, m)))
/-- STOP. -/
def dmaStopCmd (n : Nat) (v : Word) : Dev × List Host.Cell → Dev × List Host.Cell :=
  dmaCmd n 2 v (fun r => if r.1.dmaSt n = 0 then (2, r) else (0, dmaStop n r))
/-- RESUME. -/
def dmaResumeCmd (n : Nat) (v : Word) : Dev × List Host.Cell → Dev × List Host.Cell :=
  dmaCmd n 3 v (fun (d, m) =>
    if d.dmaSt n ≠ 4 then (2, d, m) else (0, dmaFetch n (d.dmaCur n) (d.p (F.dma_CH_STAT_ERR_CODE n) 0, m)))
/-- SKIP. -/
def dmaSkipCmd (n : Nat) (v : Word) : Dev × List Host.Cell → Dev × List Host.Cell :=
  dmaCmd n 4 v (fun (d, m) =>
    if d.dmaSt n ≠ 4 then (2, d, m)
    else (0, dmaLink n ((d.p (F.dma_CH_STAT_ERR_CODE n) 0).p (F.dma_CH_STAT_STATE n) 1, m)))
/-- A write of CH_CMD with any OP: an OP that names no command does nothing. -/
def dmaCmdWrite (n : Nat) (v : Word) (r : Dev × List Host.Cell) : Dev × List Host.Cell :=
  match Word.f v 2 0 with
  | 1 => dmaStartCmd n v r | 2 => dmaStopCmd n v r | 3 => dmaResumeCmd n v r | 4 => dmaSkipCmd n v r
  | _ => dmaCmd n 0 v (fun r => (2, r)) r

/-- A write of DOORBELL (R395). -/
def doorbell (n : Nat) (r : Dev × List Host.Cell) : Dev × List Host.Cell :=
  let d := r.1
  match d.dmaSt n with
  | 3 => dmaLink n (d.p2 (F.dma_CUR_LO n) (F.dma_CUR_HI n) (d.g2 (F.dma_TAIL_LO n) (F.dma_TAIL_HI n)), r.2)
  | 1 | 2 => (d.p (F.dma_CH_STAT_DB_PEND n) 1, r.2)
  | _ => r

/-! ### Meanings -/

/-- DMA_START (R392). -/
def execDmaStart (chan : Fin 32) (val : Word) (s : State) : Host.Outcome State Fault Refusal :=
  hosted (F.dma_CH_CMD_OP chan.val).addr (onMem (dmaStartCmd chan.val val)) s
/-- DMA_STOP (R392). -/
def execDmaStop (chan : Fin 32) (val : Word) (s : State) : Host.Outcome State Fault Refusal :=
  hosted (F.dma_CH_CMD_OP chan.val).addr (onMem (dmaStopCmd chan.val val)) s
/-- RESUME (R392). -/
def execResume (chan : Fin 32) (val : Word) (s : State) : Host.Outcome State Fault Refusal :=
  hosted (F.dma_CH_CMD_OP chan.val).addr (onMem (dmaResumeCmd chan.val val)) s
/-- SKIP (R392). -/
def execSkip (chan : Fin 32) (val : Word) (s : State) : Host.Outcome State Fault Refusal :=
  hosted (F.dma_CH_CMD_OP chan.val).addr (onMem (dmaSkipCmd chan.val val)) s
/-- DOORBELL (R395): any value. -/
def execDoorbell (chan : Fin 32) (_val : Word) (s : State) : Host.Outcome State Fault Refusal :=
  hosted (F.dma_DOORBELL chan.val).addr (onMem (doorbell chan.val)) s

/-- DESCRIPTOR_FETCH_DONE (R384 steps 1 and 2, R386, R390). -/
def execDescriptorFetchDone (chan : Fin 32) (s : State) : Host.Outcome State Fault Refusal :=
  onMem (fun r =>
    let n := chan.val
    if (r.1.dma n).phase ≠ 1 then r
    else
      let (d, m) := dmaAwait n r
      let t := d.dma n
      if t.bad then (d.dmaHalt n 5, m)
      else
        let b := t.read
        let d := (d.dmaUpd n (fun t => { t with desc := b, phase := 0, read := [] })).p (F.dma_BYTES_LEFT n) (descLen b)
        match d.descCheck n (d.dmaCur n) b with
        | 0 =>
          if !bit (descCtrl b) 7 then (d.dmaBegin n, m)
          else if d.on (F.dma_CH_STAT_TRIG_PEND n) then ((d.p (F.dma_CH_STAT_TRIG_PEND n) 0).dmaBegin n, m)
          else (d.p (F.dma_CH_STAT_STATE n) 2, m)
        | c => (d.dmaHalt n c, m)) s

/-- DESCRIPTOR_COMPLETE (R383, R384 steps 3 to 6, R385, R387, R390). -/
def execDescriptorComplete (chan : Fin 32) (s : State) : Host.Outcome State Fault Refusal :=
  onMem (fun (d, m) =>
    let n := chan.val
    let t := d.dma n
    if t.phase ≠ 2 ∨ d.dmaSt n ≠ 1 then (d, m)
    else dmaEnd n (dmaRun n (descFrags t.desc) (d, m))) s

/-- LINK_READ_DONE (R384 step 6, R386, R390, R395). -/
def execLinkReadDone (chan : Fin 32) (s : State) : Host.Outcome State Fault Refusal :=
  onMem (fun r =>
    let n := chan.val
    if (r.1.dma n).phase ≠ 3 then r
    else
      let (d, m) := dmaAwait n r
      let t := d.dma n
      let w := descF t.read 0 8
      let next := w / 64 * 64
      let d := d.dmaUpd n (fun t => { t with phase := 0, read := [] })
      let code := if t.bad then 5 else if d.devRegion ≤ next then 7 else 0
      if code ≠ 0 then
        let (d, m) := dmaBack n (t.status + 2 ^ 27 + code * 256) t.miss (d, m)
        (d.dmaHalt n code, m)
      else if w % 2 = 1 then
        let d := (d.p (F.dma_CH_STAT_STATE n) 3).p2 (F.dma_TAIL_LO n) (F.dma_TAIL_HI n) (d.dmaCur n)
        if d.on (F.dma_CH_STAT_DB_PEND n) then dmaLink n (d, m) else (d.raise (dmaPage n) 1 (descTag t.desc), m)
      else dmaFetch n next (d, m)) s

/-- DMA_TRIGGER (R389): a trigger that has arisen reaches its channel. -/
def execDmaTrigger (chan : Fin 32) (s : State) : Host.Outcome State Fault Refusal :=
  onDev (fun d =>
    let n := chan.val
    if (d.dma n).due = 0 then d
    else
      let d := d.dmaUpd n (fun t => { t with due := t.due - 1 })
      if !d.enabled (dmaPage n) then d
      else if d.dmaSt n = 2 then (d.p (F.dma_CH_STAT_STATE n) 1).dmaBegin n
      else if d.on (F.dma_CH_CTRL_TRIG_LATCH n) && !d.on (F.dma_CH_STAT_TRIG_PEND n) then d.p (F.dma_CH_STAT_TRIG_PEND n) 1
      else d.dmaMiss n) s

/-- DMA_TIMER (R388): the channel timer expires, counted from the START that last left IDLE. -/
def execDmaTimer (chan : Fin 32) (s : State) : Host.Outcome State Fault Refusal :=
  onDev (fun d =>
    let n := chan.val
    match (d.dma n).timer with
    | none => d
    | some t =>
      if d.g (F.dma_CH_CTRL_TRIG_SRC n) = 1 ∧ t ≤ d.now then
        d.dmaUpd n (fun x => { x with timer := some (t + 500 * max 1 (d.g (F.dma_TIMER_US n))), due := x.due + 1 })
      else d) s

end Sys2Proof.Machine
end

