-- ==== Sys2Proof/Machine/IsoDie.lean ====
section
/-!
DEFINITION. The isolated die and the barrier link (17): permit vote, laser enables, inputs and outputs, the mirror pages, and the LED
matrix with its diagnosis and derating (11).
-/
namespace Sys2Proof.Machine

/-- The ISO page and the LED page. -/
def isoPage : Nat := 0x120000
def ledPage : Nat := 0xC0000
/-- A number with bit `i` set to `b`. -/
def setBitN (n i : Nat) (b : Bool) : Nat := n - n / 2 ^ i % 2 * 2 ^ i + b2n b * 2 ^ i

/-! ### The die (R478 to R489) -/

/-- A register of the ISO or LED page as the die received it. -/
def IsoSt.f (t : IsoSt) (x : Fld) : Nat := bits (Tab.get resetWord t.regs x.addr).toNat x.hi x.lo
/-- A field as signed. -/
def IsoSt.fi (t : IsoSt) (x : Fld) : Int := sx (x.hi + 1 - x.lo) (t.f x)
/-- The vote of the levels and faults (R479). -/
def IsoSt.votes (t : IsoSt) : Bool :=
  decide (2 ≤ ((List.range 3).filter (fun c => bit t.level c && !bit t.faulted c)).length)
/-- The LE outputs: both switches closed, no overload, no undervoltage (R482, R483, R489); a stuck one reads on. -/
def IsoSt.leOut (t : IsoSt) (n : Nat) : Bool := (t.vote && bit t.leCmd n && !bit t.ovl n && !t.uv) || bit t.stuck n
/-- The DO outputs (R486, R489). -/
def IsoSt.doOut (t : IsoSt) (n : Nat) : Bool := bit t.doCmd n && !bit t.doFault n && !t.uv
/-- Bits of a property of outputs. -/
def bitsOf (n : Nat) (p : Nat → Bool) : Nat := (List.range n).foldl (fun v i => v + b2n (p i) * 2 ^ i) 0

/-- Change the die's state. -/
def Iso.upd (x : Iso) (f : IsoSt → IsoSt) : Iso := { x with st := f x.st }
/-- An event that the next report carries. -/
def Iso.tell (x : Iso) (page b : Nat) (payload : List Nat := []) : Iso := { x with evts := x.evts ++ [(page, b, payload)] }
/-- Change the matrix. -/
def Iso.led (x : Iso) (f : LedSt → LedSt) : Iso := x.upd (fun t => { t with led := f t.led })

/-- The vote is formed again (R479). -/
def IsoSt.revote (t : IsoSt) : IsoSt := { t with vote := t.votes }

/-- Of the overloads met last those that fall in the CLK_ISO cycle, 7.8125 ns, of a write that arrives at cycle `now` (00 R14). -/
def freshAt (now : Nat) (e : Nat × Nat) : Nat := if now ≤ e.1 + 3 then e.2 else 0

/-- A write of an ISO or LED register or of the LED frame memory arrives (R490, 11 R345, R346), or a SOFT_RESET of one of the pages (02 R54). `keep`: the
LE and DO overloads of the same cycle, which a clearing write leaves set (00 R14). -/
def Iso.arrive (keep : Nat × Nat) (x : Iso) (a v : Nat) : Iso :=
  let w : Word := BitVec.ofNat 32 v
  if 0x10A0000 ≤ a then
    let i := (a - 0x10A0000) / 4
    let l := x.st.led
    if i / 512 = l.front ∨ l.armed then x.tell ledPage 8 [a]
    else x.led (fun l => { l with mem := Tab.set 0 l.mem i w })
  else if a = isoPage + 0x4C then
    if v / 65536 = 0x5043 then
      x.upd (fun t => ({ t with faulted := t.faulted - (t.faulted &&& t.clearable), clearable := 0,
                                falseSeen := t.falseSeen - (t.falseSeen &&& t.clearable) } : IsoSt).revote)
    else x
  else if a = isoPage + 0x68 then x.upd (fun t => { t with ovl := t.ovl - (t.ovl &&& v) ||| keep.1 &&& t.ovl })
  else if a = isoPage + 0x6C then x.upd (fun t => { t with ovl := t.ovl - (t.ovl &&& (v % 65536 * 2 ^ 32)) ||| keep.1 &&& t.ovl })
  else if a = isoPage + 0x88 then x.upd (fun t => { t with doFault := t.doFault - (t.doFault &&& (v / 65536)) ||| keep.2 &&& t.doFault })
  else if a = ledPage + 0x4C then
    if bit v 1 then x.led (fun l => { l with armed := false, synced := false }) else if bit v 0 then x.led (fun l => { l with armed := true }) else x
  else if a = ledPage + 0x1C0 then x.led (fun l => { l with diag := [], short := [], lastRes := [], agree := [] })
  else if a = ledPage + 0x8 then
    let x := x.led (fun l => if bit v 0 then { l with en := true } else { l with en := false, running := false, begun := false, checks := [] })
    if bit v 1 then x.upd (fun t => { t with regs := t.regs.filter (fun e => pageBase e.1 != ledPage), led := { en := t.led.en, mem := t.led.mem } }) else x
  else if a = isoPage + 0x8 then
    if bit v 1 then x.upd (fun t => { t with regs := t.regs.filter (fun e => pageBase e.1 != isoPage), ovl := 0, doFault := 0 }) else x
  else x.upd (fun t => { t with regs := Tab.put resetWord t.regs a w })

/-- What of the die's state DEV_RESET keeps (R490, 11 R352): the permit channels, FAULTED with what it has seen, LE_STUCK, the inputs and the CRIT latch. -/
def IsoSt.devReset (t : IsoSt) : IsoSt :=
  { level := t.level, vote := t.vote, faulted := t.faulted, falseSeen := t.falseSeen, since := t.since,
    stuck := t.stuck, di := t.di, uv := t.uv, hot := t.hot, crit := t.crit }
/-- DEV_RESET on the die: the report of the frame shows what the reset leaves. -/
def Iso.devReset (x : Iso) : Iso := { st := x.st.devReset, rep := x.rep.devReset }

/-! ### The matrix (11 R341 to R351) -/

/-- A field of LED_CTRL in force. -/
def LedSt.cf (l : LedSt) (x : Fld) : Nat := bits l.ctl.toNat x.hi x.lo
/-- A field of the LED page in force (R347, R353), and one as signed. -/
def LedSt.hf (l : LedSt) (x : Fld) : Nat := bits (Tab.get resetWord l.held x.addr).toNat x.hi x.lo
def LedSt.hfi (l : LedSt) (x : Fld) : Int := sx (x.hi + 1 - x.lo) (l.hf x)

/-- The displayed intensity of an LED (R343, R350). -/
def IsoSt.shown (t : IsoSt) (led : Nat) : Nat :=
  let l := t.led
  if bit l.ctl.toNat 1 && decide (led ∈ l.short) then 0
  else min (bits (Tab.at 0 l.mem (l.front * 512 + led)).toNat 11 0 * l.scale / 256) 4064

/-- The pulses that drive an LED in its row slot, as (start, width) in counts (R342, R343). -/
def LedSt.drive (l : LedSt) (led : Nat) : List (Nat × Nat) :=
  let i := Tab.at 0 l.disp led
  if i = 0 then []
  else if i < 32 then (if led ∈ l.fire then [(32, 32)] else [])
  else
    let n := max 1 (min (l.cf F.led_LED_CTRL_SUBP_MAX) (i / 32))
    let off := 4064 - i
    ((List.range n).foldl (fun (r : List (Nat × Nat) × Nat) k =>
      let w := i / n + b2n (decide (k < i % n))
      (r.1 ++ [(r.2, w)], r.2 + w + off / n + b2n (decide (k < off % n)))) ([], 32)).1

/-- Has the LED's drive given no pulse of 52 counts in 64 matrix frames (R349). -/
def LedSt.lowDuty (l : LedSt) (led : Nat) : Bool := decide (Tab.at 0 l.wide led + 64 ≤ l.mf)

/-- Does the LED need a stretched pulse for its check (R349). -/
def LedSt.wantsStretch (l : LedSt) (led : Nat) : Bool :=
  let i := Tab.at 0 l.disp led
  bit l.ctl.toNat 0 && l.lowDuty led && decide (i < 52) && (decide (i ≠ 0) || bit l.ctl.toNat 5)

/-- A lamp result is counted (R348): when CONFIRM checks in different matrix frames agree, the field changes. -/
def Iso.result (x : Iso) (led res : Nat) : Iso :=
  let l := x.st.led
  if Tab.at 0 l.resAt led = l.mf + 1 then x
  else
    let n := if Tab.at 0 l.lastRes led = res then Tab.at 0 l.agree led + 1 else 1
    let hit := decide (l.hf F.led_DIAG_CFG_CONFIRM ≤ n) && Tab.at 0 l.diag led != res
    let x := x.led (fun l => { l with resAt := Tab.set 0 l.resAt led (l.mf + 1), lastRes := Tab.set 0 l.lastRes led res,
                                      agree := Tab.set 0 l.agree led n, diag := if hit then Tab.set 0 l.diag led res else l.diag,
                                      unavail := l.unavail.filter (· != led) })
    if hit && res != 1 then x.tell ledPage res [led] else x

/-- The checks of the row slot that ends are counted, up to a cut at `cut` counts (R346, R348). -/
def Iso.endSlot (x : Iso) (cut : Nat) : Iso :=
  let x := (x.st.led.checks.filter (fun c => decide (c.2.2 ≤ cut))).foldl (fun x c => x.result c.1 c.2.1) x
  x.led (fun l => { l with checks := [], begun := false })

/-- The settings take over at the start of a matrix frame (R347, R353), and with SHORT_ACT the LEDs with a confirmed SHORT go dark (R350). -/
def LedSt.takeOver (l : LedSt) (regs : Tab Word) : LedSt :=
  let ctl := Tab.get resetWord regs (ledPage + 0x40)
  { l with held := regs.filter (fun e => pageBase e.1 == ledPage), ctl := ctl, cur := Tab.get resetWord regs (ledPage + 0x44),
           short := if bit ctl.toNat 1 then l.short ++ ((l.diag.filter (fun e => e.2 == 3 && !decide (e.1 ∈ l.short))).map (·.1)) else l.short }

/-- A matrix frame starts at row 0 (R343, R346, R347): settings, an armed swap where `swap`, intensities and accumulators. -/
def Iso.startFrame (x : Iso) (swap : Bool) : Iso :=
  let x := x.led (fun l => { (l.takeOver x.st.regs) with mf := if l.running then l.mf + 1 else l.mf, running := true, row := 0, begun := false })
  let x := if swap && x.st.led.armed then
      (x.led (fun l => { l with front := 1 - l.front, armed := false, swaps := l.swaps + 1 })).tell ledPage 0 else x
  let x := x.led (fun l => { l with synced := false, edged := false })
  let disp := (List.range 512).foldl (fun t i => Tab.set 0 t i (x.st.shown i)) []
  let low := disp.filter (fun e => decide (e.2 < 32))
  let acc (i v : Nat) : Nat := Tab.at 0 x.st.led.acc i + v
  x.led (fun l => { l with disp := disp, dark := decide (l.scale = 0), fire := (low.filter (fun e => decide (32 ≤ acc e.1 e.2))).map (·.1),
                           acc := low.foldl (fun t e => Tab.set 0 t e.1 (acc e.1 e.2 % 32)) l.acc })

/-- MATRIX_FRAME_START (R341, R346): after row 15, or when the matrix begins to run. -/
def execMatrixFrameStart (s : State) : Host.Outcome State Fault Refusal :=
  onDevIso (fun (d, x) =>
    let l := x.st.led
    if !l.en || decide (d.st ≤ 1) || !(!l.running || (decide (l.row = 15) && l.begun)) then (d, x)
    else
      let x := x.endSlot 4096
      let src := x.st.f F.led_LED_CTRL_SYNC_SRC
      (d, x.startFrame (decide (src = 0) || l.synced))) s

/-- ROW_SLOT_START (R341, R342, R348, R349): the next row is lit. `blankNs`: time since the sync input's blanking began, none while it is
active; `sinkUa`, `sinkMv`: what the 32 sinks read 400 ns into a pulse. -/
def execRowSlotStart (blankNs : Option Nat) (sinkUa : List Nat) (sinkMv : List Nat) (s : State) : Host.Outcome State Fault Refusal :=
  onDevIso (fun (d, x) =>
    let l := x.st.led
    if !l.en || !l.running || (l.begun && decide (l.row = 15)) then (d, x)
    else
      let x := if l.begun then (x.endSlot 4096).led (fun l => { l with row := l.row + 1 }) else x
      let x := x.led (fun l => { l with begun := true })
      if x.st.lost || x.st.hot then (d, x)
      else
        let l := x.st.led
        let diag := bit l.ctl.toNat 0
        let blk := l.mf / 256 + 1
        let quiet := decide (l.cf F.led_LED_CTRL_SYNC_SRC = 1) && (match blankNs with
          | some t => decide (l.hf F.led_BLANK_MIN ≠ 0 ∧ t + 1000 ≤ 1000 * l.hf F.led_BLANK_MIN) | none => false)
        let x := (List.range 32).foldl (fun x c =>
          let l := x.st.led
          let led := 32 * l.row + c
          let i := Tab.at 0 l.disp led
          let mine := diag && l.lowDuty led && decide (l.mf % 16 = l.row) && Tab.at 0 l.blk led != blk
          let merge := mine && decide (52 ≤ i)
          let stretch := mine && !l.dark && decide (i < 52) && (decide (i ≠ 0) || bit l.ctl.toNat 5) && quiet
          let wants := l.wantsStretch led
          let normal := l.drive led
          let pulses := if merge then [(32, i)] else if stretch then [(32, 52)] else normal
          let x := x.led (fun l =>
            { l with wide := if normal.any (fun p => decide (52 ≤ p.2)) then Tab.set 0 l.wide led (l.mf + 1) else l.wide,
                     blk := if merge || stretch then Tab.set 0 l.blk led blk else l.blk,
                     due := if !wants || stretch then Tab.set 0 l.due led l.mf else l.due })
          match pulses.find? (fun p => decide (52 ≤ p.2)) with
          | none => x
          | some p =>
            if !diag then x
            else
              let icol := bits l.cur.toNat 7 0
              let res := if nth sinkUa c < icol * 10 * l.hf F.led_DIAG_CFG_OPEN_PCT then 2
                else if l.hf F.led_DIAG_CFG_SHORT_MV < nth sinkMv c then 3 else 1
              x.led (fun l => { l with checks := l.checks ++ [(led, res, p.1 + p.2)] })) x
        (d, x)) s

/-- DIAG_UNAVAILABLE (R349): an LED that needs a stretched pulse found no qualifying slot in 256 matrix frames. -/
def execDiagUnavailable (led : Fin 512) (s : State) : Host.Outcome State Fault Refusal :=
  onDevIso (fun (d, x) =>
    let l := x.st.led
    if l.en && l.wantsStretch led.val && decide (Tab.at 0 l.due led.val + 256 ≤ l.mf) then
      (d, (x.led (fun l => { l with unavail := if led.val ∈ l.unavail then l.unavail else led.val :: l.unavail,
                                    due := Tab.set 0 l.due led.val l.mf })).tell ledPage 4 [led.val])
    else (d, x)) s

/-- SYNC_EDGE (R346, R347): with the settings in force, an edge of the sync input, towards active or towards blanking, at a count of the row slot in progress.
In NEXT mode a further edge in the same matrix frame counts in SYNC_COUNT and does nothing else. -/
def execSyncEdge (active : Bool) (count : Fin 4096) (s : State) : Host.Outcome State Fault Refusal :=
  onDevIso (fun (d, x) =>
    let l := x.st.led
    let src := l.cf F.led_LED_CTRL_SYNC_SRC
    if !l.en || !(decide (src = 1 ∨ src = 2)) || bit l.ctl.toNat 3 != active then (d, x)
    else
      let x := x.led (fun l => { l with syncs := l.syncs + 1 })
      if bit l.ctl.toNat 4 then (d, ((if l.armed then x else x.tell ledPage 1).endSlot count.val).startFrame true)
      else if l.edged then (d, x)
      else
        let x := x.led (fun l => { l with edged := true })
        (d, if l.armed then x.led (fun l => { l with synced := true }) else x.tell ledPage 1)) s

/-- SCALE of a reading (R351), with the limits in force (R347, R353). -/
def LedSt.scaleOf (l : LedSt) (x : Int) : Nat :=
  let t0 := l.hfi F.led_DER_T0
  let t1 := l.hfi F.led_DER_T1
  let m := l.hf F.led_DER_MIN
  if l.hfi F.led_T_OFF ≤ x then 0
  else if x < t0 then 256
  else if x < t1 then ((256 : Int) - (256 - (m : Int)) * (x - t0) / (t1 - t0)).toNat
  else m

/-- LAMP_TEMP_MEASURE (R351): the thermistor's reading in 1/16 °C, once every 64 matrix frames. -/
def execLampTempMeasure (temp : BitVec 16) (s : State) : Host.Outcome State Fault Refusal :=
  onDevIso (fun (d, x) =>
    let l := x.st.led
    if !l.en || l.measAt.any (fun f => decide (l.mf < f + 64)) then (d, x)
    else
      let t := temp.toInt
      let ok := decide (-640 ≤ t ∧ t ≤ 2400)
      let was := l.scale
      let sc := l.scaleOf t
      let new := if !ok then l.hf F.led_DER_MIN
        else if l.therm ∨ sc < was ∨ t + 32 ≤ l.setT then sc else was
      let hot := if !ok then l.hot else if l.hfi F.led_T_OFF ≤ t then true else l.hot && !decide (t < l.hfi F.led_T_OFF - 32)
      let x := x.led (fun l => { l with tLamp := t, scale := new, setT := if new = was ∧ !(ok && l.therm) then l.setT else t, hot := hot, therm := !ok, measAt := some l.mf })
      let x := if new = was then x else x.tell ledPage 5
      let x := if hot && !l.hot then x.tell ledPage 6 else x
      (d, if !ok && !l.therm then x.tell ledPage 7 else x)) s

/-! ### Writes from the logic die (R48, R490, 11 R345, R346) -/

/-- A write joins the next command frame. -/
def Dev.isoSend (d : Dev) (a v : Nat) : Dev := { d with link := { d.link with queue := d.link.queue ++ [(a, v)] } }

/-- LE_MASK as the real-time plane has it (R482). -/
def Dev.leMaskPut (d : Dev) (a : Nat) (w : Word) : Dev :=
  let m := d.link.leMask
  if a = F.iso_LE_MASK_LO.addr then { d with link := { d.link with leMask := m / 2 ^ 32 * 2 ^ 32 + w.toNat } }
  else if a = F.iso_LE_MASK_HI.addr then { d with link := { d.link with leMask := w.toNat * 2 ^ 32 + m % 2 ^ 32 } }
  else d

/-- A write of an ISO or LED register that the die is to receive; the page goes on showing what the die reported last (01 R34). -/
def Dev.isoWrite (d : Dev) (a : Nat) (v : Word) : Dev :=
  match pageOf a with
  | none => d
  | some (p, _) =>
    let rows := rowsAt p.pg (a % 0x1000)
    let w := v &&& BitVec.ofNat 32 (accMask rows (fun x => x == .rw || x == .w1c))
    d.guarded a v rows (fun d => (d.leMaskPut a w).isoSend a w.toNat)

/-- LED_FRAME_WRITE (R345): accepted for the back buffer while nothing is armed. -/
def Dev.ledWindowWrite (d : Dev) (ofs : Nat) (v : Word) : Dev :=
  let i := ofs / 4
  if i / 512 = d.g F.led_LED_STAT_FRONT ∨ d.on F.led_LED_STAT_ARMED ∨ d.link.ledArm ≠ 0 then
    (d.err ledPage 0x82 (ofs % 4096) (0x10A0000 + ofs)).raise ledPage 8
  else
    let w := v &&& 0xFFF
    ({ d with link := { d.link with ledWin := Tab.set 0 d.link.ledWin i w } }).isoSend (0x10A0000 + 4 * i) w.toNat

/-- LED_SWAP (R346, R353). -/
def Dev.ledSwapWrite (d : Dev) (v : Word) : Dev :=
  let d := { d with link := { d.link with ledArm := if Word.f v 1 1 = 1 then 0 else if Word.f v 0 0 = 1 then 1 else d.link.ledArm } }
  d.isoSend (ledPage + 0x4C) v.toNat

/-- DO_OUT (R486): an OUT_SET of the same frame wins on the bits it names. -/
def Dev.doOutWrite (d : Dev) (v : Word) : Dev :=
  d.guarded (isoPage + 0x80) v (rowsAt .iso 0x80) (fun d =>
    let o := d.link.outSet
    let w := v.toNat % 65536
    d.p F.iso_DO_OUT (if o.1 = d.time.frame then (w - (w &&& o.2.1)) + (o.2.2 &&& o.2.1) else w))

/-- PERMIT_CLEAR (R480): in IDLE, with a channel that can be cleared, it goes to the die; at any other time, and with a
wrong key (02 R55), it is ignored and counted. -/
def Dev.permitClear (d : Dev) (v : Word) : Dev :=
  if !d.isSt .idle || decide (d.g F.iso_PERMIT_STAT_CLEARABLE = 0) then d.errAt 0x82 (isoPage + 0x4C)
  else if Word.f v 31 16 ≠ 0x5043 then d.errAt 0x87 (isoPage + 0x4C)
  else d.isoSend (isoPage + 0x4C) v.toNat

/-- LED_FRAME_WRITE (R345). -/
def execLedFrameWrite (ofs : BitVec 12) (val : Word) (s : State) : Host.Outcome State Fault Refusal :=
  hosted (0x10A0000 + ofs.toNat) (onDev (fun d => d.ledWindowWrite ofs.toNat val)) s
/-- LED_ARM (R346): LED_SWAP with ARM. -/
def execLedArm (val : Word) (s : State) : Host.Outcome State Fault Refusal :=
  hosted F.led_LED_SWAP_ARM.addr (onDev (fun d => when (decide (Word.f val 0 0 = 1 ∧ Word.f val 1 1 = 0)) (fun d => d.ledSwapWrite val) d)) s
/-- LED_DISARM (R353): LED_SWAP with DISARM. -/
def execLedDisarm (val : Word) (s : State) : Host.Outcome State Fault Refusal :=
  hosted F.led_LED_SWAP_ARM.addr (onDev (fun d => when (decide (Word.f val 1 1 = 1)) (fun d => d.ledSwapWrite val) d)) s
/-- DIAG_CLEAR (R353). -/
def execDiagClear (val : Word) (s : State) : Host.Outcome State Fault Refusal :=
  hosted F.led_DIAG_CLEAR.addr (onDev (fun d => d.isoSend (ledPage + 0x1C0) val.toNat)) s
/-- DO_OUT_WRITE (R486). -/
def execDoOutWrite (val : Word) (s : State) : Host.Outcome State Fault Refusal :=
  hosted F.iso_DO_OUT.addr (onDev (fun d => d.doOutWrite val)) s
/-- PERMIT_CLEAR (R480). -/
def execPermitClear (val : Word) (s : State) : Host.Outcome State Fault Refusal :=
  hosted F.iso_PERMIT_CLEAR_KEY.addr (onDev (fun d => d.permitClear val)) s

/-- OUT_SET (R84, R486): the masked bits of DO_OUT. -/
def execOutSet (s : State) : Host.Outcome State Fault Refusal :=
  onDev (fun d => when (d.fresh 0x07) (fun d =>
    let m := d.entA1 d.pc % 65536
    let v := d.entA2 d.pc % 65536 &&& m
    let w := d.g F.iso_DO_OUT
    let d := d.p F.iso_DO_OUT ((w - (w &&& m)) + v)
    ({ d with link := { d.link with outSet := (d.time.frame, m, v) } }).complete (d.pc + 1)) d) s

/-! ### The barrier link (R475 to R477, R482) -/

/-- The LE command of a head that the present frame sends, for the boundary behind it (R482): that of a head failed at boundary B falls at B + 2. -/
def Dev.leCommand (d : Dev) (h : Nat) : Bool :=
  d.armedOrRunning && d.ctl.stop.isNone && !d.link.crit && bit d.link.leMask h && d.laneSt h == 3
    && (!d.on (F.hd_FAIL_FAILED h) || decide (d.time.frame < (d.hd h).failB + 1))

/-- The overloads that may fall in the cycle in which the writes of a command frame arrive, at the boundary: a free part of them (00 R14; log 71). -/
def Dev.isoKeep (d : Dev) (t : IsoSt) : (Nat × Nat) × Dev :=
  let now := (d.time.frame + 1) * 1250
  let (a, b) := (freshAt now t.ovlAt, freshAt now t.doAt)
  if a = 0 ∧ b = 0 then ((0, 0), d) else let (r, d) := d.draw; ((a &&& r, b &&& (r / 2 ^ 48)), d)

/-- The command frame of the frame that ends reaches the die, or is missing there (R475, R477, R490). -/
def isoCommand (cmdOk : Bool) (d : Dev) (x : Iso) : Dev × Iso :=
  if cmdOk then
    let x := { x with missed := 0 }.upd (fun t => { t with leCmd := bitsOf 48 d.leCommand, doCmd := d.g F.iso_DO_OUT, crit := t.crit || d.link.crit, lost := false })
    let (keep, d) := d.isoKeep x.st
    ({ d with link := { d.link with queue := [], cmdRun := 0, ledArm := if d.link.ledArm = 1 then 2 else d.link.ledArm } },
      d.link.queue.foldl (fun x w => x.arrive keep w.1 w.2) x)
  else
    let n := d.link.cmdRun + 1
    let d := (({ d with link := { d.link with cmdRun := n } }).bump F.iso_CNT_LINK_ERR).raise isoPage 8
    (when (n == 2) (fun d => (d.bump F.iso_CNT_LINK_LOSS).raise isoPage 9) d, { x with missed := x.missed + 1 })

/-- A report frame is missing (R475, R476): counted once in a frame. -/
def Dev.reportMissing (d : Dev) : Dev :=
  if d.link.rxFrame = d.time.frame + 1 then d
  else
    let n := d.link.missRun + 1
    let d := { d with link := { d.link with rxFrame := d.time.frame + 1, missRun := n } }
    let d := ((d.bump F.iso_ISO_STAT_AGE).bump F.iso_CNT_LINK_ERR).raise isoPage 8
    when (n == 2) (fun d => ((d.bump F.iso_CNT_LINK_LOSS).p F.iso_ISO_STAT_LINK_OK 0).raise isoPage 9) d

/-- The die samples its state at a boundary for the report of the frame that begins (R476). Events of a report that went missing go with the next. -/
def Iso.sample (x : Iso) : Iso := { x with rep := x.st, repEvts := x.repEvts ++ x.evts, evts := [] }

/-- The registers of the ISO page and of the LED page that the host writes and the die holds; DO_OUT is the logic die's (R486). -/
def mirrored : List Nat :=
  ([0x48, 0x50, 0x54, 0x84] ++ (List.range 12).map (fun k => 0xC0 + 4 * k)).map (isoPage + ·) ++ [0x40, 0x44, 0x48, 0x54, 0x58, 0x60].map (ledPage + ·)

/-- The LED page mirrors the report (11 R353). -/
def Dev.ledMirror (d : Dev) (l : LedSt) : Dev :=
  let d := (((d.p F.led_LED_STAT_FRONT l.front).p F.led_LED_STAT_ARMED (b2n l.armed)).p F.led_LED_STAT_ROW l.row).p F.led_LED_STAT_MFRAMES (l.mf % 65536)
  let d := ((d.pi F.led_LAMP_STAT_T_LAMP l.tLamp).p F.led_LAMP_STAT_HOT (b2n l.hot)).p F.led_LAMP_STAT_THERM_FAULT (b2n l.therm)
  let d := ((d.p F.led_LAMP_STAT_SCALE l.scale).p F.led_SWAP_COUNT (l.swaps % 65536)).p F.led_SYNC_COUNT (l.syncs % 65536)
  let word (i : Nat) : Nat := (List.range 16).foldl (fun v j => v + Tab.at 0 l.diag (32 * (i / 2) + 16 * (i % 2) + j) * 4 ^ j) 0
  let d := forN 32 (fun i d => d.p (F.led_LED_DIAG i) (word i)) d
  forN 16 (fun r d => d.p (F.led_DIAG_UNAVAIL r) (bitsOf 32 (fun c => decide (32 * r + c ∈ l.unavail)))) d

/-- The ISO page mirrors the report (R490). -/
def Dev.isoMirror (d : Dev) (t : IsoSt) : Dev :=
  let lo (n : Nat) : Nat := n % 2 ^ 32
  let hi (n : Nat) : Nat := n / 2 ^ 32 % 65536
  let le := bitsOf 48 t.leOut
  let d := ((d.p F.iso_ISO_STAT_VSYS_UV (b2n t.uv)).p F.iso_ISO_STAT_ISO_HOT (b2n t.hot)).p F.iso_ISO_STAT_CRIT_LATCH (b2n t.crit)
  let d := (((d.p F.iso_PERMIT_STAT_VOTE (b2n t.vote)).p F.iso_PERMIT_STAT_LEVEL t.level).p F.iso_PERMIT_STAT_FAULTED t.faulted).p F.iso_PERMIT_STAT_CLEARABLE t.clearable
  let d := (((d.p F.iso_LE_CMD_LO (lo t.leCmd)).p F.iso_LE_CMD_HI (hi t.leCmd)).p F.iso_LE_OUT_LO (lo le)).p F.iso_LE_OUT_HI (hi le)
  let d := (((d.p F.iso_LE_OVL_LO (lo t.ovl)).p F.iso_LE_OVL_HI (hi t.ovl)).p F.iso_LE_STUCK_LO (lo t.stuck)).p F.iso_LE_STUCK_HI (hi t.stuck)
  let d := ((d.p F.iso_DI_LO (lo t.di)).p F.iso_DI_HI (hi t.di)).p F.iso_DO_STAT_FAULT t.doFault
  let d := mirrored.foldl (fun d a => d.setReg a (Tab.get resetWord t.regs a)) d
  (d.p F.iso_DO_STAT_OUT (bitsOf 16 t.doOut)).ledMirror t.led

/-- An event that a report carries is raised; a write of the LED frame memory that the die refused is counted as well (11 R345). -/
def Dev.isoEvent (d : Dev) (e : Nat × Nat × List Nat) : Dev :=
  if e.1 = ledPage ∧ e.2.1 = 8 then
    let a := nth e.2.2 0
    (d.err ledPage 0x82 (a % 4096) a).raise ledPage 8
  else d.raise (if e.1 = ledPage then ledPage else isoPage) e.2.1 e.2.2

/-- ISO_REPORT_RX (R326, R476): the report of this frame reaches the real-time plane and the mirror, with the events it carries. -/
def execIsoReportRx (s : State) : Host.Outcome State Fault Refusal :=
  onDevIso (fun (d, x) =>
    if d.link.rxFrame = d.time.frame + 1 ∨ !d.ctl.pllLocked then (d, x)
    else
      let t := x.rep
      let was := d.link.vote
      let d := { d with link := { d.link with rxFrame := d.time.frame + 1, everRx := true, missRun := 0, vote := t.vote, ledArm := if d.link.ledArm = 2 then 0 else d.link.ledArm,
                                                permitTold := d.link.permitTold && !t.vote },
                        aux := { d.aux with samples := d.aux.samples ++ [(d.time.frame, t.di, d.time.bSec, d.time.bNs)], diFrame := d.time.frame } }
      let d := ((d.isoMirror t).p F.iso_ISO_STAT_AGE 0).p F.iso_ISO_STAT_LINK_OK 1
      let d := x.repEvts.foldl (fun d e => d.isoEvent e) d
      let d := when (t.vote && !was) (fun d => d.raise isoPage 1) d
      (d, { x with repEvts := [] })) s

/-- ISO_REPORT_MISSING (R475). -/
def execIsoReportMissing (s : State) : Host.Outcome State Fault Refusal :=
  onDev (fun d => when d.ctl.pllLocked Dev.reportMissing d) s

/-- COMMAND_LOSS (R477): no valid command frame for 2 frames. -/
def execCommandLoss (s : State) : Host.Outcome State Fault Refusal :=
  onDevIso (fun (d, x) =>
    if x.missed < 2 ∨ x.st.lost then (d, x)
    else (d, x.upd (fun t => { t with leCmd := 0, doCmd := t.doCmd &&& t.f F.iso_DO_SAFE, lost := true }))) s

/-! ### Channels, outputs and protection (R478 to R489) -/

/-- Cycles in DISC_MS as the die has it. -/
def IsoSt.disc (t : IsoSt) : Nat := 500000 * t.f F.iso_PERMIT_CFG_DISC_MS

/-- PERMIT_CHANNEL_CHANGE (R478, R479): a channel has held a new level for FILT_US. -/
def execPermitChannelChange (ch : Fin 3) (on : Bool) (s : State) : Host.Outcome State Fault Refusal :=
  onDevIso (fun (d, x) =>
    if bit x.st.level ch.val = on then (d, x)
    else (d, x.upd (fun t =>
      ({ t with level := setBitN t.level ch.val on, since := d.now,
                falseSeen := if t.level = 0 ∧ t.since + t.disc ≤ d.now then t.faulted else t.falseSeen } : IsoSt).revote))) s

/-- PERMIT_LOST (R481): a vote that a report shows false in ARMED or RUNNING is recorded, and acts as ABORT at the next boundary unless one is to come
or a controlled stop runs. -/
def execPermitLost (s : State) : Host.Outcome State Fault Refusal :=
  onDev (fun d =>
    when (d.link.everRx && !d.on F.iso_PERMIT_STAT_VOTE && d.armedOrRunning && !d.link.permitTold) (fun d =>
      let d := { d with link := { d.link with permitTold := true } }
      (when (d.ctl.abortInt.isNone && d.ctl.stop.isNone) (fun d => { d with ctl := { d.ctl with abortInt := some false, abortFrame := d.time.frame } }) d).raise isoPage 0) d) s

/-- PERMIT_DISCREPANCY (R480): a channel differs from both others for DISC_MS. -/
def execPermitDiscrepancy (ch : Fin 3) (s : State) : Host.Outcome State Fault Refusal :=
  onDevIso (fun (d, x) =>
    let t := x.st
    let c := ch.val
    let o1 := bit t.level ((c + 1) % 3)
    let o2 := bit t.level ((c + 2) % 3)
    if o1 = o2 ∧ bit t.level c ≠ o1 ∧ t.since + t.disc ≤ d.now ∧ !bit t.faulted c then
      (d, (x.upd (fun t => ({ t with faulted := setBitN t.faulted c true, falseSeen := setBitN t.falseSeen c false,
                                     clearable := setBitN t.clearable c false } : IsoSt).revote)).tell isoPage 2 [c])
    else (d, x)) s

/-- PERMIT_CLEARABLE (R480): all three false together for DISC_MS since the fault, then all three true together for DISC_MS. -/
def execPermitClearable (s : State) : Host.Outcome State Fault Refusal :=
  onDevIso (fun (d, x) =>
    let t := x.st
    if t.level = 7 ∧ t.since + t.disc ≤ d.now then (d, x.upd (fun t => { t with clearable := t.clearable ||| (t.faulted &&& t.falseSeen) }))
    else (d, x)) s

/-- LE_OVERLOAD (R483): an output that is on exceeds its current limit for 1 ms and is switched off. -/
def execLeOverload (n : Fin 48) (s : State) : Host.Outcome State Fault Refusal :=
  onDevIso (fun (d, x) =>
    if x.st.leOut n.val && !bit x.st.ovl n.val then
      (d, (x.upd (fun t => { t with ovl := setBitN t.ovl n.val true, ovlAt := (d.now, freshAt d.now t.ovlAt ||| 2 ^ n.val) })).tell isoPage 3 [n.val])
    else (d, x)) s

/-- LE_STUCK (R483): an output reads on for 1 ms while one of its switches is commanded open, by vote, command, overload or undervoltage. -/
def execLeStuck (n : Fin 48) (s : State) : Host.Outcome State Fault Refusal :=
  onDevIso (fun (d, x) =>
    if (!x.st.vote || !bit x.st.leCmd n.val || bit x.st.ovl n.val || x.st.uv) && !bit x.st.stuck n.val then
      (d, (x.upd (fun t => { t with stuck := setBitN t.stuck n.val true })).tell isoPage 4 [n.val])
    else (d, x)) s

/-- DO_FAULT (R486): an output that is on is in overload. -/
def execDoFault (n : Fin 16) (s : State) : Host.Outcome State Fault Refusal :=
  onDevIso (fun (d, x) =>
    if x.st.doOut n.val then 
      (d, (x.upd (fun t => { t with doFault := setBitN t.doFault n.val true, doAt := (d.now, freshAt d.now t.doAt ||| 2 ^ n.val) })).tell isoPage 5 [n.val]) else (d, x)) s

/-- DI_CHANGE (R485): an input has held a new level for its filter time. -/
def execDiChange (n : Fin 48) (on : Bool) (s : State) : Host.Outcome State Fault Refusal :=
  onDevIso (fun (d, x) => (d, x.upd (fun t => { t with di := setBitN t.di n.val on }))) s

/-- VSYS_UV (R489). -/
def execVsysUv (s : State) : Host.Outcome State Fault Refusal :=
  onDevIso (fun (d, x) => if x.st.uv then (d, x) else (d, (x.upd (fun t => { t with uv := true })).tell isoPage 6)) s

/-- VSYS_RESTORE (R489). -/
def execVsysRestore (s : State) : Host.Outcome State Fault Refusal :=
  onDevIso (fun (d, x) => (d, x.upd (fun t => { t with uv := false }))) s

/-- ISO_HOT (R489). -/
def execIsoHot (s : State) : Host.Outcome State Fault Refusal :=
  onDevIso (fun (d, x) => if x.st.hot then (d, x) else (d, (x.upd (fun t => { t with hot := true })).tell isoPage 7)) s

/-- ISO_COOL (R489). -/
def execIsoCool (s : State) : Host.Outcome State Fault Refusal :=
  onDevIso (fun (d, x) => (d, x.upd (fun t => { t with hot := false }))) s

/-- ISO_DIE_POWER_UP (20 R523): the die comes out of its own power-on reset, with all outputs off and its latches clear. -/
def execIsoDiePowerUp (s : State) : Host.Outcome State Fault Refusal :=
  onDevIso (fun (d, _) => (d, { st := { since := d.now } })) s

/-- ISO.CNT_CLEAR (R490). -/
def Dev.isoCntClear (d : Dev) : Dev := d.setReg (isoPage + 0x8C) 0

end Sys2Proof.Machine
end

