-- ==== Sys2Proof/Machine/Sc.lean ====
section
/-!
DEFINITION. SC-12 compatibility mode (18): the personality, the legacy window's lists, the translation into hidden streams, contexts and descriptors,
and the legacy commands. The mark clock (R500, R501) is fired with the other edges (Stream, Firing, PLoop).
-/
namespace Sys2Proof.Machine

/-- An SC-12 channel. -/
def Dev.scc (d : Dev) (c : Nat) : ScCh := Tab.at {} d.sc.chans c
/-- Change an SC-12 channel. -/
def Dev.sccUpd (d : Dev) (c : Nat) (f : ScCh → ScCh) : Dev := { d with sc := { d.sc with chans := Tab.upd {} d.sc.chans c f } }

/-! ### The personality (R491, R492) -/

/-- Bytes of the personality as an unsigned and a signed number. -/
def Dev.pn (d : Dev) (o n : Nat) : Nat := leAt d.sc.pers o n
def Dev.pi32 (d : Dev) (o : Nat) : Int := sx 32 (d.pn o 4)
/-- Channel entry `c`: its offset, its head when it is mapped. -/
def scEnt (c : Nat) : Nat := 0x10 + 32 * c
def Dev.scHead (d : Dev) (c : Nat) : Option Nat :=
  let b := d.pn (scEnt c) 1
  if d.sc.ok && decide (c < 12) && bit b 7 then some (b % 64) else none
/-- The hidden spare heads. -/
def Dev.scSpares (d : Dev) : List Nat := (List.range 12).filterMap (fun i => let b := d.pn (0x190 + i) 1; if bit b 7 then some (b % 64) else none)
/-- TILE_DIM of the personality: NX and NY, and the size of the tile map. -/
def scDim (b : List Nat) : Nat × Nat := let w := leAt b 0x1AC 4; (bits w F.ibex_TILE_DIM_NX.hi F.ibex_TILE_DIM_NX.lo, bits w F.ibex_TILE_DIM_NY.hi F.ibex_TILE_DIM_NY.lo)

/-- The checks of R492. A head that an entry with EN = 0 carries is not named by it (log 119). -/
def scPersOk (b : List Nat) : Bool :=
  let n := nth b 8
  let k := nth b 9
  let pc := leAt b 0x0C 4
  let tiles := (scDim b).1 * (scDim b).2
  let chan (c : Nat) : Bool :=
    let o := scEnt c
    if n ≤ c then leAt b o 32 == 0
    else decide (nth b o / 64 % 2 = 0 ∧ nth b (o + 1) < 8 ∧ leAt b (o + 2) 2 = 0)
  let heads := (List.range n).filterMap (fun c => if bit (nth b (scEnt c)) 7 then some (nth b (scEnt c) % 64) else none)
    ++ (List.range k).filterMap (fun i => if bit (nth b (0x190 + i)) 7 then some (nth b (0x190 + i) % 64) else none)
  let tile (i : Nat) : Bool := (List.range 5).all (fun j => let e := nth b (0x1B0 + 8 * i + j); decide (e / 64 % 2 = 0) && (!bit e 7 || decide (e % 64 < 48)))
    && decide (leAt b (0x1B0 + 8 * i + 5) 3 = 0)
  decide (leAt b 0 4 = 0x53433132 ∧ leAt b 4 2 = 1 ∧ 1 ≤ n ∧ n ≤ 12 ∧ k ≤ 12 ∧ leAt b 0x0A 2 < 2 ∧ pc ≤ 4096 ∧ leAt b 0x19C 4 = 0)
    && (List.range 12).all chan
    && (List.range 12).all (fun i => if k ≤ i then nth b (0x190 + i) == 0 else nth b (0x190 + i) / 64 % 2 == 0)
    && heads.all (fun h => decide (h < 48)) && decide (heads.eraseDups.length = heads.length)
    && decide (tiles ≤ 32768 ∧ b.length = 0x1B0 + 8 * tiles + 8 * pc) && (List.range tiles).all tile

/-- The preset writes as BAR0 offset and value (R491). -/
def scPresets (b : List Nat) : List (Nat × Nat) :=
  let o := 0x1B0 + 8 * ((scDim b).1 * (scDim b).2)
  (List.range (leAt b 0x0C 4)).map (fun i => (leAt b (o + 8 * i) 4, leAt b (o + 8 * i + 4) 4))

/-! ### Errors and the vector (R495, R503) -/

/-- SC_ERR takes a code; of errors in one frame the lowest is kept, and an error of a later frame replaces it (log 119). -/
def Dev.scErr (d : Dev) (code chan : Nat) : Dev :=
  let old := d.g F.sc_SC_ERR_CODE
  if old ≠ 0 ∧ d.sc.errFrame = d.time.frame ∧ old ≤ code then d
  else
    let d := (d.p F.sc_SC_ERR_CODE code).p F.sc_SC_ERR_CHANNEL chan
    ({ d with sc := { d.sc with errFrame := d.time.frame } }).vecSync 0 false

/-- CH_STATE of a channel, with its bits in SC_BUSY. -/
def Dev.scState (d : Dev) (c st : Nat) : Dev :=
  let d := d.p (F.scc_CH_STATE c) st
  (d.p (F.sc_SC_BUSY_RUN.bitAt c) (b2n (st == 2))).p (F.sc_SC_BUSY_LOADED.bitAt c) (b2n (st == 1))

/-- The personality is taken at the end of CAL_LOAD (R492): geometry, tile map and the window's identity; the presets follow as host writes. -/
def Dev.scLoad (d : Dev) : Dev :=
  let b := d.ctl.image.sc
  let ok := scPersOk b
  let d := { d with sc := { d.sc with pers := b, ok := ok } }
  let d := d.p F.sc_SC_ID_REV (leAt b 6 2)
  if !ok then d.scErr 5 0
  else
    let d := [F.ibex_TILE_X0.addr, F.ibex_TILE_Y0.addr, F.ibex_TILE_SIZE.addr, F.ibex_TILE_DIM_NX.addr].zipIdx.foldl (fun d e =>
      d.setReg e.1 (BitVec.ofNat 32 (leAt b (0x1A0 + 4 * e.2) 4))) d
    let n := (scDim b).1 * (scDim b).2
    let d := { d with tiles := (List.range n).foldl (fun t i => Tab.set 0 t i (BitVec.ofNat 64 (leAt b (0x1B0 + 8 * i) 8))) d.tiles }
    forN 12 (fun c d => match d.scHead c with
      | some h => (d.p (F.sc_X_MAP_VALID.bitAt c) 1).p (F.sc_X_MAPc_HEAD c) h
      | none => d) d

/-! ### Segment lists (R495, R496) -/

/-- A word for CH_LIST_PORT (R496): the fourth one appends the segment; behind 65,536 segments every word is discarded with code 1 (R502). -/
def Dev.listPort (d : Dev) (c : Nat) (v : Word) : Dev :=
  if !d.scMode then d
  else
    let ch := d.scc c
    let w := ch.part ++ [v.toNat]
    if 65536 ≤ ch.segs.length then d.scErr 1 c
    else if w.length < 4 then d.sccUpd c (fun ch => { ch with part := w })
    else (d.sccUpd c (fun ch => { ch with part := [], segs := w :: ch.segs })).p (F.scc_CH_LIST_FREE c) (65536 - (ch.segs.length + 1))
/-- CH_LIST_PORT_WRITE (R496). -/
def execChListPortWrite (chan : Fin 12) (val : Word) (s : State) : Host.Outcome State Fault Refusal :=
  hosted (F.scc_CH_LIST_PORT chan.val).addr (onDev (fun d => d.listPort chan.val val)) s

/-- CH_LIST_RESET (R495, R496): refused while the channel runs. -/
def Dev.listReset (d : Dev) (c : Nat) : Dev :=
  if !d.scMode ∨ d.g (F.scc_CH_STATE c) = 2 then d
  else (d.sccUpd c (fun ch => { ch with part := [], segs := [] })).p (F.scc_CH_LIST_FREE c) 65536
/-- CH_LIST_RESET (R495). -/
def execChListReset (chan : Fin 12) (_val : Word) (s : State) : Host.Outcome State Fault Refusal :=
  hosted (F.scc_CH_LIST_RESET chan.val).addr (onDev (fun d => d.listReset chan.val)) s

/-! ### Translation (R497, R498) -/

/-- Is a parameter in its range (R497). -/
def scParOk (i v : Nat) : Bool :=
  match i with
  | 0 | 1 => decide (1 ≤ v)
  | 2 | 3 => decide (-20000 ≤ sx 32 v ∧ sx 32 v ≤ 20000)
  | 4 | 5 | 6 | 7 => decide (v ≤ 65535)
  | 8 => decide (1000000 ≤ v ∧ v ≤ 10000000)
  | 9 => decide (1 ≤ v ∧ v ≤ 65535)
  | _ => true

/-- A speed in UQ16.8 nm per frame (R497). -/
def Dev.scSpeed (d : Dev) (c v : Nat) : Nat := (rdiv (v * d.pn (scEnt c + 16) 4 : Nat) 102400).toNat

/-- The hidden context of a parameter set, with the mark clock's period and pulse width in codes (R498, R500); none when a conversion or a value is out
of range. -/
def Dev.scCtx (d : Dev) (c : Nat) (p : List Nat) : Option (List Nat × Nat × Nat) :=
  let o := scEnt c
  let ms := d.scSpeed c (nth p 0)
  let js := d.scSpeed c (nth p 1)
  let pw := (rdiv (nth p 7 * d.pn (o + 20) 4 : Nat) 65535).toNat
  let on := ux 32 (2 * sx 32 (nth p 2))
  let off := ux 32 (2 * sx 32 (nth p 3))
  let acc := d.pn (o + 24) 4 % 2 ^ 24
  let jerk := d.pn (o + 28) 4 % 2 ^ 24
  if ms = 0 ∨ js = 0 ∨ 2 ^ 24 ≤ ms ∨ 2 ^ 24 ≤ js ∨ 2 ^ 24 ≤ pw then none
  else some ([2 ^ 31 + d.pn 0x0A 2 % 2 * 256 + 128, pw, pw, pw, 0, ms, js, acc, acc, jerk, jerk, on, off, on, off] ++ List.replicate 8 0,
    (rdiv 2000000000 (nth p 8)).toNat, 2 * nth p 9)

/-- A legacy coordinate clamped to ±524,287 (R502). -/
def scClamp (v : Int) : Int := clampI (-524287) 524287 v

/-- A legacy point in the machine frame (R498): mirrored, rotated counter-clockwise, scaled, moved to the origin. -/
def Dev.scPoint (d : Dev) (c : Nat) (x y z : Int) : Int × Int × Int :=
  let o := scEnt c
  let r := d.pn (o + 1) 1
  let x := if bit r 2 then -x else x
  let (x, y) : Int × Int := match r % 4 with | 0 => (x, y) | 1 => (-y, x) | 2 => (-x, -y) | _ => (y, -x)
  let m (v : Int) : Int := rdiv (d.pn (o + 16) 4 * v) 65536
  (d.pi32 (o + 4) + m x, d.pi32 (o + 8) + m y, d.pi32 (o + 12) + m z)

/-- A translation in progress: position, parameters, records and their segments (latest first), contexts, what the last record was (1 mark), its context,
MARK_DELAY and POLY_DELAY as they stood at it, clamped coordinates, unknown parameters, the stream's DEF_CTX, and the segment and code that failed. -/
structure ScTr where
  pos : Int × Int × Int := (0, 0, 0)
  par : List Nat := []
  recs : List (List Nat) := []
  segOf : List Nat := []
  ctxs : List (List Nat × Nat × Nat) := []
  last : Nat := 0
  lastCtx : Nat := 0
  markDelay : Nat := 0
  poly : Nat := 0
  clamped : Nat := 0
  ign : Nat := 0
  defCtx : Nat := 0
  /-- The motion context behind the last record with a CTX, 0 before the first (03 R90). -/
  mctx : Nat := 0
  ended : Bool := false
  err : Option (Nat × Nat) := none

/-- Append a record: its first word and PARAM. -/
def ScTr.put (t : ScTr) (seg head : Nat) (p : Int × Int × Int) (param : Nat) : ScTr :=
  { t with recs := [head, ux 32 p.1, ux 32 p.2.1, ux 32 p.2.2, param, 0, 0, 0] :: t.recs, segOf := seg :: t.segOf, pos := p }

/-- The number of the context of the present parameters: an equal one, or a new one. -/
def Dev.scCtxNo (d : Dev) (c seg : Nat) (t : ScTr) : ScTr × Nat :=
  match d.scCtx c t.par with
  | none => ({ t with err := some (seg, 2) }, 1)
  | some x =>
    let k := t.ctxs.findIdx (fun y => y == x)
    let t := if k < t.ctxs.length then t else { t with ctxs := t.ctxs ++ [x] }
    let t := if 255 < t.ctxs.length then { t with err := some (seg, 4) } else t
    ({ t with defCtx := if t.defCtx = 0 then k + 1 else t.defCtx }, k + 1)

/-- A jump moves at the limits of its motion context, that of the record with a CTX before it (03 R90). Where JUMP_SPEED has another value by now (R497), a
marking record of no length, which exposes nothing and draws no start (03 R91), brings the context `k` of the present parameters (log 119). -/
def ScTr.jumpCtx (t : ScTr) (seg k : Nat) : ScTr :=
  let m := if t.mctx = 0 then t.defCtx else t.mctx
  let speed (n : Nat) : Nat := nth (t.ctxs.getD (n - 1) ([], 0, 0)).1 6
  if speed m = speed k then t else { t.put seg (1 + k * 256) t.pos 0 with mctx := k }

/-- Rests at a point, at most 2 times 65,535 µs a record (R498). -/
def ScTr.rest (t : ScTr) (seg us : Nat) : ScTr :=
  let t := (List.range (us / 131070)).foldl (fun t _ => t.put seg 1 t.pos 0xFFFFFFFF) t
  let r := us % 131070
  if r = 0 then t else t.put seg 1 t.pos ((r - min r 65535) * 65536 + min r 65535)

/-- One segment (R496 to R498, R502). A laser-on time beyond what PARAM of a DWELL record holds is out of range (log 119). -/
def Dev.scSeg (d : Dev) (c : Nat) (t : ScTr) (seg : Nat) (w : List Nat) : ScTr :=
  if t.ended || t.err.isSome then t
  else
    let op := bits (nth w 0) 31 28
    let low := nth w 0 % 2 ^ 28
    let x := nth w 1
    let y := nth w 2
    let z := nth w 3
    let bad : ScTr := { t with err := some (seg, 2) }
    match op with
    | 1 | 2 =>
      if low ≠ 0 then bad
      else
        let v := [sx 32 x, sx 32 y, sx 32 z]
        let p := d.scPoint c (scClamp (nthI v 0)) (scClamp (nthI v 1)) (scClamp (nthI v 2))
        let t := { t with clamped := t.clamped + (v.filter (fun a => scClamp a != a)).length }
        let fits (a : Int) : Bool := decide (-(2 ^ 31) ≤ a ∧ a < 2 ^ 31)
        if !(fits p.1 && fits p.2.1 && fits p.2.2) then { t with err := some (seg, 2) }
        else
          let (t, k) := d.scCtxNo c seg t
          if op = 1 then
            let t := t.jumpCtx seg k
            { (t.put seg 1 p ((if t.last = 1 then t.markDelay else 0) * 65536 + nth t.par 4)) with last := 0 }
          else
            let corner := t.last = 1 && decide (0 < t.poly)
            let t := if corner then t.put (seg - 1) (3 + t.lastCtx * 256) t.pos (t.poly * 2000) else t
            let cont := t.last = 1 && !corner
            { (t.put seg (1 + k * 256 + b2n cont * 2 ^ 17) p 0) with last := 1, lastCtx := k, mctx := k, markDelay := nth t.par 5, poly := nth t.par 6 }
    | 3 =>
      let i := low
      if 255 < low ∨ x ≠ 0 ∨ y ≠ 0 then bad
      else if 9 < i then { t with ign := t.ign + 1 }
      else if !scParOk i z then bad
      else
        let par := t.par.set i z
        if (d.scCtx c par).isNone then bad else { t with par := par }
    | 4 =>
      let laser := bit (nth w 0) 24
      if low % 2 ^ 24 ≠ 0 ∨ 2 ^ 25 ≤ low ∨ x ≠ 0 ∨ y ≠ 0 ∨ z = 0 then bad
      else if laser then
        if 2 ^ 32 ≤ z * 2000 then bad
        else
          let (t, k) := d.scCtxNo c seg t
          { (t.put seg (3 + k * 256) t.pos (z * 2000)) with last := 2, mctx := k }
      else { (t.rest seg z) with last := 0 }
    | 15 => if low ≠ 0 ∨ x ≠ 0 ∨ y ≠ 0 ∨ z ≠ 0 then bad else { t with ended := true }
    | _ => bad

/-- A list that has been read: a clock context where no mark named one, and the END record; more than 2^19 records is code 2 (log 119). -/
def Dev.scEndList (d : Dev) (c : Nat) (t : ScTr) : ScTr :=
  let t : ScTr := if t.defCtx = 0 ∧ t.err = none then (d.scCtxNo c 0 t).1 else t
  let t : ScTr := { t with recs := [0x1F, 0, 0, 0, 0, 0, 0, 0] :: t.recs, segOf := (t.segOf.headD 0) :: t.segOf }
  if 2 ^ 19 < t.recs.length ∧ t.err = none then { t with err := some (0, 2) } else t

/-- A channel's list at its GO (R498): the records end with END. -/
def Dev.scTranslate (d : Dev) (c : Nat) (ctxs : List (List Nat × Nat × Nat)) : ScTr :=
  let ch := d.scc c
  let p := (d.hd ((d.scHead c).getD 0)).point (d.time.frame * frameT)
  let good := (List.range 10).all (fun i => scParOk i (nth ch.par i)) && (d.scCtx c ch.par).isSome
  let t : ScTr := { pos := (nm p.x, nm p.y, nm p.f), par := ch.par, ctxs := ctxs, err := if good then none else some (0, 2) }
  d.scEndList c (ch.src.zipIdx.foldl (fun (t : ScTr) (e : List Nat × Nat) => d.scSeg c t e.2 e.1) t)

/-- Where a channel's hidden stream and the hidden layer queue lie in the device region (log 36). -/
def Dev.scStream (d : Dev) (c : Nat) : Nat := d.devRegion + 2 ^ 24 * (c + 1)
def Dev.scQueue (d : Dev) : Nat := d.devRegion

/-- The contexts of the layer that waits are put in force, when no layer is open (R498). -/
def Dev.scInstall (d : Dev) : Dev :=
  if d.on F.seq_LAYER_STAT_OPEN ∨ d.sc.ctxs = [] then d
  else
    let d := d.sc.ctxs.zipIdx.foldl (fun d e => e.1.1.zipIdx.foldl (fun d w =>
      let o := (e.2 + 1) * 0x80 + 4 * w.2
      let v := BitVec.ofNat 32 w.1
      { d with ctxWin := Tab.set 0 d.ctxWin o v, ctxCrossed := Tab.set 0 d.ctxCrossed o v, ctxLive := Tab.set 0 d.ctxLive o v }) d) d
    { d with scClk := d.sc.ctxs.zipIdx.map (fun e => (e.2 + 1, (e.1.2.1, e.1.2.2))) }

/-- The streams and the descriptor of the layer that waits go to DRAM (R498). -/
def scPublish (ts : List (Nat × ScTr)) (r : Dev × List Host.Cell) : Dev × List Host.Cell :=
  let d := r.1
  let heads := ts.map (fun e => ((d.scHead e.1).getD 0, e.1, e.2))
  let r := heads.foldl (fun (r : Dev × List Host.Cell) (e : Nat × Nat × ScTr) => dramWrite 3 (d.scStream e.2.1) (e.2.2.recs.reverse.flatMap (fun w => w.flatMap (leBytes 4))) r) r
  let idx := (d.g F.seq_LQ_RD + d.g F.seq_LAYER_STAT_OPEN) % 2
  let num := (d.g F.seq_LAYER_NUM + 1) % 2 ^ 32
  let mask := heads.foldl (fun (m : Nat) (e : Nat × Nat × ScTr) => m ||| 2 ^ e.1) 0
  let ent (h : Nat) : List Nat := match heads.find? (fun e => e.1 == h) with
    | some e => let a := d.scStream e.2.1; [a % 2 ^ 32, a / 2 ^ 32, e.2.2.recs.length, e.2.2.defCtx]
    | none => [0, 0, 0, 0]
  let w := [readyWord num, num, 0, mask % 2 ^ 32, mask / 2 ^ 32] ++ List.replicate 11 0 ++ (List.range 48).flatMap ent ++ List.replicate 48 0
  dramWrite 3 (d.scQueue + 1024 * idx) (w.flatMap (leBytes 4)) r

/-- The channels that are loaded. -/
def Dev.scLoaded (d : Dev) : List Nat := idxs 12 (fun c => d.g (F.scc_CH_STATE c) == 1)

/-- The lists of channels, translated one after another over one set of hidden contexts. -/
def Dev.scRun (d : Dev) (cs : List Nat) : List (Nat × ScTr) :=
  (cs.foldl (fun (r : List (Nat × ScTr) × List (List Nat × Nat × Nat)) (c : Nat) =>
    let t := d.scTranslate c r.2; (r.1 ++ [(c, t)], t.ctxs)) ([], [])).1

/-- A GO that fails: the channels it named are idle again, and the segment is reported (R498). -/
def Dev.scGoFails (d : Dev) (mask c : Nat) (t : ScTr) : Dev :=
  let d : Dev := (idxs 12 (fun c => bit mask c)).foldl (fun (d : Dev) (c : Nat) => d.scState c 0) d
  let e := t.err.getD (0, 0)
  ((d.p F.sc_X_REFUSE_CHANNEL c).p F.sc_X_REFUSE_SEG e.1).scErr e.2 c

/-- A GO that succeeds: the counters of the channels it named, and every loaded channel's map from records to segments (R498). -/
def Dev.scGoReady (d : Dev) (mask : Nat) (all : List (Nat × ScTr)) : Dev :=
  let d : Dev := all.foldl (fun (d : Dev) (e : Nat × ScTr) => d.sccUpd e.1 (fun ch => { ch with recSeg := e.2.segOf.reverse, fault := false })) d
  let d : Dev := (all.filter (fun (e : Nat × ScTr) => bit mask e.1)).foldl (fun (d : Dev) (e : Nat × ScTr) =>
    (d.bumpW F.sc_X_CLAMPED e.2.clamped).bump F.sc_X_PARAM_IGN e.2.ign) d
  let ctxs : List (List Nat × Nat × Nat) := match all.getLast? with | some e => e.2.ctxs | none => []
  Dev.scInstall { d with sc := { d.sc with ctxs := ctxs } }

/-- SC_TRANSLATE_DONE (R498): the GO fails at the first failing segment of a channel, or the loaded channels' streams, contexts and
descriptor stand ready. -/
def execScTranslateDone (s : State) : Host.Outcome State Fault Refusal :=
  onMem (fun (r : Dev × List Host.Cell) =>
    match r.1.sc.trans with
    | none => r
    | some mask =>
      let d : Dev := { r.1 with sc := { r.1.sc with trans := none } }
      let all := d.scRun d.scLoaded
      match all.find? (fun (e : Nat × ScTr) => e.2.err.isSome) with
      | some e => (d.scGoFails mask e.1 e.2, r.2)
      | none => scPublish all (d.scGoReady mask all, r.2)) s

/-! ### Commands (R499) -/

/-- A device command of its own to the control (R499): it waits for its boundary as a host's does. -/
def Dev.scCmd (d : Dev) (cmd phase : Nat) : Dev :=
  { d with ctl := { d.ctl with cmd := cmd, cmdFrame := d.time.frame }, sc := { d.sc with phase := phase } }

/-- The sequencer table and the layer queue that the device drives (R493): LAYER_OPEN, EXPOSE, LAYER_CLOSE, BR_MORE 0, END (log 36). -/
def Dev.scTable (d : Dev) : Dev :=
  let d := { d with seqTab := [0x01, 0x02, 0x03, 0x0B, 0x0D].zipIdx.foldl (fun (t : Tab Word) (e : Nat × Nat) =>
    Tab.set 0 t (16 * e.2) (BitVec.ofNat 32 (e.1 * 2 ^ 24))) [] }
  let q := d.scQueue
  ((d.p F.seq_TBL_LEN 5).p F.seq_LQ_ENTRIES 2).pipe (fun d => (d.p F.seq_LQ_BASE_LO (q % 2 ^ 32 / 1024)).p F.seq_LQ_BASE_HI (q / 2 ^ 32))

/-- A write of SC_CTRL (R499): ENABLE 0 to 1 in IDLE arms and starts, 1 to 0 stops and disarms. -/
def Dev.scCtrl (d : Dev) (v : Word) : Dev :=
  let en := Word.f v 0 0
  if !d.scMode ∨ en = d.g F.sc_SC_CTRL_ENABLE then d
  else if en = 1 then
    if !d.sc.ok then d.scErr 5 0
    else if !d.isSt .idle ∨ d.ctl.cmd ≠ 0 then d.scErr 3 0
    else (d.scTable.p F.sc_SC_CTRL_ENABLE 1).scCmd 1 1
  else
    let d := d.p F.sc_SC_CTRL_ENABLE 0
    if d.isSt .running then d.scCmd 3 3 else if d.isSt .armed then d.scCmd 5 4
    else if d.sc.phase = 1 then { d with sc := { d.sc with phase := 3 } } else d
/-- SC_ENABLE (R499). -/
def execScEnable (val : Word) (s : State) : Host.Outcome State Fault Refusal :=
  hosted F.sc_SC_CTRL_ENABLE.addr (onDev (fun d => if Word.f val 0 0 = 1 then d.scCtrl val else d)) s
/-- SC_DISABLE (R499). -/
def execScDisable (val : Word) (s : State) : Host.Outcome State Fault Refusal :=
  hosted F.sc_SC_CTRL_ENABLE.addr (onDev (fun d => if Word.f val 0 0 = 0 then d.scCtrl val else d)) s

/-- ARM or START of the device was refused (R499): ENABLE reads 0, channels that a GO had already loaded are idle again, and the error is code 3. -/
def Dev.scRefused (d : Dev) : Dev :=
  let d := d.scLoaded.foldl (fun (d : Dev) (c : Nat) => d.scState c 0) d
  ({ (d.p F.sc_SC_CTRL_ENABLE 0) with sc := { d.sc with phase := 0, trans := none, ctxs := [] } }).scErr 3 0

/-- After a device command of SC-12 mode took effect: START follows ARM, DISARM follows STOP; a refused ARM or START is code 3 (R499). DISARM also
follows an ARM whose ENABLE was cleared before it took effect (log 99). -/
def Dev.scFollow (d : Dev) (ok : Bool) : Dev :=
  match d.sc.phase with
  | 1 => if ok then d.scCmd 2 2 else d.scRefused
  | 2 => if ok then { d with sc := { d.sc with phase := 0 } } else d.scRefused
  | 3 => if d.isSt .armed then d.scCmd 5 4 else if d.isSt .idle then { d with sc := { d.sc with phase := 0 } } else d
  | 4 => { d with sc := { d.sc with phase := 0 } }
  | _ => d

/-- A write of SC_GO (R496, R499, R502): named channels that are mapped, and neither loaded nor running, take their lists and parameters as they stand.
A GO is taken from the write of ENABLE on, while ARM and START are still on their way (log 99). -/
def Dev.scGo (d : Dev) (v : Word) : Dev :=
  if !d.scMode then d
  else
    let named := idxs 12 (fun c => v.getLsbD c)
    let d := named.foldl (fun d c => d.sccUpd c (fun ch => { ch with part := [] })) d
    if !(d.isSt .running || decide (d.sc.phase = 1 ∨ d.sc.phase = 2)) ∨ !d.on F.sc_SC_CTRL_ENABLE then (match named with | c :: _ => d.scErr 3 c | [] => d)
    else
      let d := named.foldl (fun d c => if (d.scHead c).isNone then d.scErr 5 c else d) d
      let go := named.filter (fun c => (d.scHead c).isSome && d.g (F.scc_CH_STATE c) != 1 && d.g (F.scc_CH_STATE c) != 2)
      let d := go.foldl (fun d c =>
        (d.sccUpd c (fun ch => { ch with src := ch.segs.reverse, par := (List.range 10).map (fun i => d.g (F.scc_CH_PARAMi c i)) })).scState c 1) d
      if go = [] then d
      else { d with sc := { d.sc with trans := some (d.sc.trans.getD 0 ||| go.foldl (fun m c => m ||| 2 ^ c) 0) } }
/-- SC_GO (R499). -/
def execScGo (val : Word) (s : State) : Host.Outcome State Fault Refusal :=
  hosted F.sc_SC_GO.addr (onDev (fun d => d.scGo val)) s

/-- Running and loaded channels go to error with code 6 (R499, R503). -/
def Dev.scAbort (d : Dev) : Dev :=
  if !d.scMode then d
  else
    let hit := idxs 12 (fun c => d.g (F.scc_CH_STATE c) == 1 || d.g (F.scc_CH_STATE c) == 2)
    let d := hit.foldl (fun d c => d.scState c 4) d
    let d := { d with sc := { d.sc with trans := none, ctxs := [], phase := 0 } }
    match hit with | c :: _ => d.scErr 6 c | [] => d

/-- A write of SC_STOP (R496, R499): ABORT. -/
def Dev.scStop (d : Dev) : Dev :=
  if !d.scMode then d
  else
    let d := (List.range 12).foldl (fun d c => d.sccUpd c (fun ch => { ch with part := [] })) d
    if d.armedOrRunning then d.scAbort.scCmd 4 0 else d.scAbort
/-- SC_STOP (R499). -/
def execScStop (_val : Word) (s : State) : Host.Outcome State Fault Refusal :=
  hosted F.sc_SC_STOP.addr (onDev (fun d => d.scStop)) s

/-- A write of SC_DONE_CLR (R495): every SC_DONE bit and SC_ERR; it counts as a write to EVT_RAW for vector 0. -/
def Dev.scDoneClr (d : Dev) : Dev :=
  if !d.scMode then d
  else (((d.p F.sc_SC_DONE 0).p F.sc_SC_ERR_CODE 0).p F.sc_SC_ERR_CHANNEL 0).vecSync 0 true
/-- SC_DONE_CLR (R495). -/
def execScDoneClr (_val : Word) (s : State) : Host.Outcome State Fault Refusal :=
  hosted F.sc_SC_DONE_CLR.addr (onDev (fun d => d.scDoneClr)) s

/-- A write inside the legacy window (R494, R495). -/
def Dev.scWrite (d : Dev) (ofs : Nat) (v : Word) : Dev :=
  let a := 0x3F00000 + ofs
  let c := ofs / 0x1000 - 1
  let o := ofs % 0x1000
  if !d.scMode then d
  else match ofs with
    | 0x04 => d.scCtrl v
    | 0x0C => d.scDoneClr
    | 0x14 => d.scGo v
    | 0x18 => d.scStop
    | 0x1C => (d.setReg a (v &&& 0x80000FFF)).vecSync 0 false
    | _ =>
      if 0x1000 ≤ ofs ∧ c < 12 then
        if o = 0 then d.listPort c v
        else if o = 8 then d.listReset c
        else if 0x100 ≤ o ∧ o < 0x200 then (if d.g (F.scc_CH_STATE c) = 1 ∨ d.g (F.scc_CH_STATE c) = 2 then d else d.setReg a v)
        else if 0x800 ≤ o then d.setReg a v
        else d
      else d

/-! ### What frames and layers do (R499, R503, R504) -/

/-- Is the work of a head's stream exposed: its stream has ended, and no item, span or reader of it is left (R499). -/
def Dev.streamExposed (d : Dev) (h : Nat) : Bool :=
  let f := d.time.frame
  let hd := d.hd h
  (!hd.active || (hd.p.done && hd.segs.all (fun g => decide (g.t1 ≤ f * frameT)) && hd.p.start.isNone)) && !hd.dropOpen && !hd.litIn f && hd.failPend.isNone
    && d.hand.items.all (fun e => e.2.kind == 0 || e.2.src != h) && d.hand.readers.all (fun r => r.head != h) && d.hand.spans.all (fun s => s.2.who.src != h)

/-- SC_CHANNEL_DONE (R499). -/
def execScChannelDone (chan : Fin 12) (s : State) : Host.Outcome State Fault Refusal :=
  onDev (fun d =>
    let c := chan.val
    match d.scHead c with
    | none => d
    | some h =>
      if d.scMode && d.g (F.scc_CH_STATE c) == 2 && d.on F.seq_LAYER_STAT_OPEN && decide (d.g F.seq_LAYER_FRAMES > 17) && d.streamExposed h then
        ((d.scState c 3).p (F.sc_SC_DONE.bitAt c) 1).vecSync 0 false
      else d) s

/-- SC_SCANNER_FAULT (R503): an orphan item of the channel has existed for 400,000 frames. -/
def execScScannerFault (chan : Fin 12) (s : State) : Host.Outcome State Fault Refusal :=
  onDev (fun d =>
    let c := chan.val
    let old := d.sc.orphans.any (fun e => decide (400000 ≤ e.2) && (Tab.at {} d.hand.items e.1).orphan && d.scHead c == some (Tab.at {} d.hand.items e.1).src)
    if d.scMode && old && !(d.scc c).fault then (d.sccUpd c (fun ch => { ch with fault := true })).scErr 7 c else d) s

/-- The layer that waits has opened: its channels run (R499). -/
def Dev.scOpen (d : Dev) : Dev :=
  if !d.scMode then d
  else
    let d := d.scLoaded.foldl (fun d c => d.scState c 2) d
    let d := ((d.p F.sc_X_CTX_USED (min 255 d.sc.ctxs.length)).p F.sc_X_HO_MAPPED 0).p F.sc_X_HO_SPARE 0
    { d with sc := { d.sc with ctxs := [] } }

/-- The window's view of a frame (R495): positions and segments of the running channels, items of the layer, ages of orphans. -/
def Dev.scFrame (d : Dev) : Dev :=
  if !d.scMode then d
  else
    let f := d.time.frame
    let d := forN 12 (fun c d =>
      match d.scHead c with
      | none => d
      | some h =>
        let hd := d.hd h
        let o := scEnt c
        let lsb := d.pn (o + 16) 4
        if !hd.placed || decide (lsb = 0) then d
        else
          let p := hd.point (f * frameT)
          let u (v : Int) (org : Int) : Int := satS 32 (rdiv ((v - 256 * org) * 256) lsb)
          let x := u p.x (d.pi32 (o + 4))
          let y := u p.y (d.pi32 (o + 8))
          let r := d.pn (o + 1) 1
          let (x, y) : Int × Int := match r % 4 with | 0 => (x, y) | 1 => (y, -x) | 2 => (-x, -y) | _ => (-y, x)
          let d := (d.p (F.scc_CH_POS_X c) (ux 32 (if bit r 2 then -x else x))).p (F.scc_CH_POS_Y c) (ux 32 y)
          match hd.segAt f with
          | some g => if g.who.src = h ∧ d.g (F.scc_CH_STATE c) = 2 then d.p (F.scc_CH_SEG c) (nth (d.scc c).recSeg g.who.idx) else d
          | none => d) d
    let sum (hs : List Nat) : Nat := hs.foldl (fun n h => n + d.g (F.hd_HO_ITEMS h)) 0
    let d := (d.p F.sc_X_HO_MAPPED (satU 16 (sum ((List.range 12).filterMap d.scHead)))).p F.sc_X_HO_SPARE (satU 16 (sum d.scSpares))
    let age (n : Nat) : Nat := ((d.sc.orphans.find? (fun e => e.1 == n)).elim 0 (·.2)) + 1
    { d with sc := { d.sc with orphans := (d.hand.items.filter (fun e => e.2.orphan)).map (fun e => (e.1, age e.1)) } }

end Sys2Proof.Machine
end

