-- ==== Sys2Proof/Machine/Control.lean ====
section
/-!
DEFINITION. Device states: SYS_CMD, the controlled stop, faults, the host watchdog, POR, DEV_RESET and ROM (02 R62, R63, R69 to R74).
-/
namespace Sys2Proof.Machine

/-! ### Commands of SYS_CMD (R71, R72) -/

/-- A written command reaches a final result (R72). In SC-12 mode the device's own commands report none (18 R493). -/
def Dev.cmdResult (d : Dev) (c r : Nat) : Dev :=
  if d.scMode then d else ((d.p F.sys_CMD_STAT_CMD c).p F.sys_CMD_STAT_RESULT r).raise 0 1

/-- No command is pending. -/
def Dev.cmdNone (d : Dev) : Dev := { d with ctl := { d.ctl with cmd := 0 } }

/-- The pending command reaches its final result. -/
def Dev.cmdFinish (d : Dev) (r : Nat) : Dev := (d.cmdResult d.ctl.cmd r).cmdNone

/-- The pending command, if any, is refused (R72); a command of the device in SC-12 mode fails (18 R499). -/
def Dev.cmdRefuse (d : Dev) (r : Nat) : Dev := if d.ctl.cmd = 0 then d else (d.cmdFinish r).scFollow false

/-- Is a command accepted in the present state (R71). No command but ABORT is, while a controlled stop runs: the state is on its way. DEDUCED. -/
def Dev.cmdState (d : Dev) (c : Nat) : Bool :=
  match c with
  | 1 => d.isSt .idle && d.ctl.stop.isNone
  | 2 | 5 => d.isSt .armed && d.ctl.stop.isNone
  | 3 => d.isSt .running && d.ctl.stop.isNone
  | 4 => d.armedOrRunning
  | _ => false

/-- A command is accepted and waits for its boundary (R71, R72). -/
def Dev.cmdAccept (d : Dev) (c : Nat) : Dev :=
  let d := (d.p F.sys_CMD_STAT_CMD c).p F.sys_CMD_STAT_RESULT 1
  { d with ctl := { d.ctl with cmd := c, cmdFrame := d.time.frame } }

/-- A STOP meets a sequencer that already waits in LAYER_OPEN (03 R88). -/
def Dev.stopNow (d : Dev) : Dev :=
  when (d.waiting 0x01 && !d.on F.seq_LAYER_STAT_OPEN && d.seq.endFrame.isNone) Dev.stopAtOpen d

/-- A write of SYS_CMD (R71, R72). An ABORT accepted while another ABORT is pending replaces it too (log 74). A command written in the last 300 ns
before a boundary counts at that boundary (log 72). -/
def Dev.sysCmdWrite (d : Dev) (v : Word) : Dev :=
  let c := Word.f v 3 0
  if Word.f v 31 16 ≠ 0x4B4D ∨ c = 0 ∨ 5 < c then d.cmdResult c 4
  else if c = 4 then
    if d.armedOrRunning then (if d.ctl.cmd = 0 then d else d.cmdFinish 1).cmdAccept 4 else d.cmdResult 4 2
  else if d.ctl.cmd ≠ 0 then d.cmdResult c 1
  else if !d.cmdState c then d.cmdResult c 2
  else if c = 3 then (d.cmdAccept 3).stopNow
  else d.cmdAccept c

/-- A write of SYS_CMD whose CMD is the row's. -/
def sysCmdRow (c : Nat) (v : Word) (s : State) : Host.Outcome State Fault Refusal :=
  hosted 0x44 (onDev (fun d => when (decide (Word.f v 3 0 = c)) (fun d => d.sysCmdWrite v) d)) s
/-- ARM (R71). -/
def execArm (val : Word) (s : State) : Host.Outcome State Fault Refusal := sysCmdRow 1 val s
/-- START (R71). -/
def execStart (val : Word) (s : State) : Host.Outcome State Fault Refusal := sysCmdRow 2 val s
/-- STOP (R71). -/
def execStop (val : Word) (s : State) : Host.Outcome State Fault Refusal := sysCmdRow 3 val s
/-- ABORT (R71). -/
def execAbort (val : Word) (s : State) : Host.Outcome State Fault Refusal := sysCmdRow 4 val s
/-- DISARM (R71). -/
def execDisarm (val : Word) (s : State) : Host.Outcome State Fault Refusal := sysCmdRow 5 val s

/-! ### The controlled stop (R63) -/

/-- The work of a head's vector engine ends; what it has emitted stands. -/
def Head.clear (hd : Head) : Head :=
  { hd with active := false, buf := [], base := 0, fetched := 0, req := false, absent := false, markDone := 0, under := false, bad := false,
            p := { hd.p with start := none, join := none, out := none, chain := none, done := true, pv := 0, next := 0, prevMark := false, prevSkyOut := false,
                             broken := false, motion := 0, recCnt := 0, lens := [] },
            cps := [], segs := [], edges := [], reserved := [], grants := [], spent := [], susp := none, hwm := 0,
            clkNext := none, dense := none, clipNow := [], clip := none, clipRun := 0, dark := 0, darkAt := none, dropOpen := false,
            dropQ := 0, dropFail := none, holdNext := none, holdLong := false, cut := none, released := false }

/-- The spans that are open when a head's work is cut off are logged (03 R109, 05 R169, R175, R184). -/
def Dev.stopSpans (d : Dev) (h : Nat) : Dev :=
  let t := (d.time.frame + 1) * frameT
  (((d.closeReversal h d.time.frame).closeDrop h t true).endClip h t).flushDense h

/-- A head at the boundary of a controlled stop: it receives no edge and a power set-point of 0 from the downstream frame that leaves now, its
plan ends, and its slots park (R63, 04 R137). Blanking the frame that leaves at this boundary is DEDUCED from "at the first frame boundary". -/
def Dev.stopHead (d : Dev) (h : Nat) : Dev :=
  let d := d.hdUpd h (fun hd =>
    let hd := (hd.lists.filter (fun l => decide (d.time.frame < l.frame))).foldl Head.unspend hd
    { hd.clear with level := false, onWho := none, owedOff := none, lists := hd.lists.filter (fun l => decide (l.frame ≤ d.time.frame)) })
  let d := d.laneUpd h (fun q => { q with dsEdges := [], dsPwr := 0, dsFlags := q.dsFlags - q.dsFlags / 8 % 4 * 8 })
  (d.unhold h).enterParking h

/-- The open layer ends as ABORTED (03 R81): STATUS and READY of its descriptor, LAYER_ABORTED; LQ_RD stays. -/
def abortLayer (r : Dev × List Host.Cell) : Dev × List Host.Cell :=
  if !r.1.on F.seq_LAYER_STAT_OPEN then r
  else
    let a := r.1.lqAddr (r.1.g F.seq_LQ_RD)
    let r := dramWrite 0 a (leBytes 4 0) (dramWrite 0 (a + 0x2C) (leBytes 4 2) r)
    let d := (r.1.p F.seq_LAYER_STAT_OPEN 0).raise 0x8000 11 [r.1.g F.seq_LAYER_NUM, r.1.seq.tag]
    (Dev.hoStat { d with hand := { d.hand with items := [], waiting := [], readers := [], spans := [], expo := [], slots := [], storeFull := false, breach := [] } }, r.2)

/-- A controlled stop begins at the present boundary (R63). ABORT also ends the open layer (R71). -/
def beginStop (c : StopCause) (r : Dev × List Host.Cell) : Dev × List Host.Cell :=
  let ab : Bool := c == .abort || c == .abortFault
  let r := (forN 48 (fun h d => d.stopSpans h) r.1, r.2)
  let r := if ab then abortLayer r else r
  let d := forN 48 (fun h d => d.stopHead h) r.1
  let d := { d with ctl := { d.ctl with stop := some c, stopLeft := 400, stopInt := false, abortInt := none },
                    seq := { d.seq with exposed := false, endFrame := none } }
  let d := (d.seqStop.calEnd).scAbort
  (when (ab || c == .fault) Dev.auxAbort d, r.2)

/-- Entry to IDLE (R69): LAYER_STAT.LAST is cleared (03 R111). -/
def Dev.goIdle (d : Dev) : Dev := (d.p F.seq_LAYER_STAT_LAST 0).goSt .idle

/-- A watchdog that runs, restarted (R74). -/
def Dev.kick (d : Dev) : Dev := { d with ctl := { d.ctl with wdogFrames := 0, wdogExpired := false } }

/-- Do the preconditions of ARM hold at this boundary (R71, R86, 08 R263, R266, 17 R481, 20 R524). -/
def Dev.armOk (d : Dev) : Bool :=
  d.on F.seq_TBL_STAT_VALID && decide (2 ≤ d.g F.seq_LQ_ENTRIES ∧ d.g F.seq_LQ_ENTRIES ≤ 4096) && !d.exposureSet.isEmpty
    && decide (d.camRefused = ([], [])) && !d.on F.cal_RUN_STAT_STATE && d.on F.iso_PERMIT_STAT_VOTE && d.on F.iso_ISO_STAT_LINK_OK

/-- ARM takes effect or is refused (R71, R86; 08 R263). -/
def Dev.armTake (d : Dev) : Dev :=
  let d := (d.tblCheck).camMark
  if d.armOk then
    let d := { d with seq := { d.seq with closedSince := false, resumeArmed := false, endFrame := none } }
    (((d.p F.seq_SEQ_STAT_RESUMED 0).kick.goSt .armed).pdLeave.cmdFinish 0).scFollow true
  else (d.cmdFinish 3).scFollow false

/-- START takes effect (R71, 03 R84, R86, 05 R181): the sequencer starts at entry 0. -/
def Dev.startTake (d : Dev) : Dev :=
  let d := (d.p F.seq_SEQ_STAT_RESUMED (b2n d.seq.resumeArmed)).goSt .running
  ((((Dev.take { d with seq := { d.seq with resumeArmed := false, endFrame := none } } 0).dutyFill).cmdFinish 0)).scFollow true

/-- Is anything decided for this boundary that wins over a host command (R72). -/
def Dev.overruled (d : Dev) : Bool :=
  (!d.ctl.faults.isEmpty && decide (d.ctl.faultFrame < d.time.frame)) || (d.ctl.abortInt.isSome && decide (d.ctl.abortFrame < d.time.frame))

/-- SYS_CMD_EFFECT (R71, R72): a command accepted in an earlier frame takes effect. STOP acts at its layer boundary, or in LAYER_OPEN. -/
def execSysCmdEffect (s : State) : Host.Outcome State Fault Refusal :=
  onMem (fun r =>
    let d := r.1
    if d.ctl.cmd = 0 ∨ d.time.frame ≤ d.ctl.cmdFrame then r
    else if d.overruled then (d.cmdRefuse 2, r.2)
    else match d.ctl.cmd with
      | 1 => (d.armTake, r.2)
      | 2 => (d.startTake, r.2)
      | 4 => if d.ctl.stop.isSome then ((d.cmdFinish 0).auxAbort, r.2) else beginStop .abort (d.cmdFinish 0, r.2)
      | 5 => ((d.goIdle.cmdFinish 0).scFollow true, r.2)
      | _ => r) s

/-- A run ends in ARMED (R71, R72, 03 R88): a STOP that waits is done; `stopped` tells whether the run ended by it. -/
def Dev.runEnds (d : Dev) (stopped : Bool) : Dev :=
  let d := d.seqStop
  let d := { d with seq := { d.seq with endFrame := none, resumeArmed := stopped }, ctl := { d.ctl with stopInt := false } }
  let d := d.goSt .armed
  if d.ctl.cmd = 3 then (d.cmdFinish 0).scFollow true else d

/-- CONTROLLED_STOP (R63): a DEV_RESET, or an internal ABORT, begins its controlled stop at the first frame boundary after it arose. A host command
that waits is refused (R72), also where a DEV_RESET begins its stop (log 76). A stop already in progress serves. -/
def execControlledStop (s : State) : Host.Outcome State Fault Refusal :=
  onMem (fun r =>
    let d := r.1
    if d.ctl.resetPend && decide (d.ctl.resetFrame < d.time.frame) then
      let d := d.cmdRefuse 2
      let d := { d with ctl := { d.ctl with resetPend := false, abortInt := none } }
      if d.ctl.stop.isSome then ({ d with ctl := { d.ctl with stop := some .devReset } }, r.2) else beginStop .devReset (d, r.2)
    else match d.ctl.abortInt with
      | some w =>
        if d.time.frame ≤ d.ctl.abortFrame ∨ d.ctl.stop.isSome then r
        else beginStop (if w then .abortFault else .abort) (d.cmdRefuse 2, r.2)
      | none => r) s

/-! ### Faults (R73, R74) -/

/-- A fault is latched: its cause, the state, and the SYS event FAULT. -/
def Dev.latch (d : Dev) (code : Nat) : Dev :=
  let d := { d with ctl := { d.ctl with faults := [], abortInt := none, stopInt := false } }
  (((d.p F.sys_SYS_STATE_FAULT_CAUSE code).pipe (when (!d.isSt .faultLatched) (fun d => d.goSt .faultLatched))).raise 0 3)

/-- FAULT_LATCH_ENTRY (R63, R72, R73): at the boundary after a cause arose; the lowest code of the frame is recorded. In ROM only a failed training
latches; other causes wait for its end. -/
def execFaultLatchEntry (s : State) : Host.Outcome State Fault Refusal :=
  onMem (fun r =>
    let d := r.1
    let inRom := decide (d.st ≤ 1)
    let l := if inRom then d.ctl.faults.filter (· == 3) else d.ctl.faults
    match l with
    | [] => r
    | c :: cs =>
      if d.time.frame ≤ d.ctl.faultFrame then r
      else
        let code := cs.foldl min c
        let d := (d.cmdRefuse 2).latch code
        let d := if code = 1 then { d with ctl := { d.ctl with resetPend := false } } else d
        match d.ctl.stop with
        | none => beginStop .fault (d, r.2)
        | some c => 
          let stop : StopCause := if code ≠ 1 ∧ (c = .devReset ∨ c = .devRest) then c else .fault
          (Dev.auxAbort { d with ctl := { d.ctl with stop := some stop } }, r.2)) s

/-- MP_LOCKSTEP (R73). -/
def execMpLockstep (s : State) : Host.Outcome State Fault Refusal := onDev (fun d => d.faultCause 2) s

/-- ISO_LOST (R73, 20 R524): 8 frames without a report, counted after the first valid one since POR. -/
def execIsoLost (s : State) : Host.Outcome State Fault Refusal :=
  onDev (fun d => when (d.link.everRx && decide (8 ≤ d.link.missRun)) (fun d => d.faultCause 5) d) s

/-- HOST_KICK (R74). -/
def execHostKick (_val : Word) (s : State) : Host.Outcome State Fault Refusal := hosted 0x54 (onDev Dev.kick) s

/-- A write of HOST_WDOG (R74); one that the page's LOCK refuses restarts nothing. -/
def Dev.wdogWrite (d : Dev) (v : Word) : Dev :=
  if d.lockRefuses 0x50 v (rowsAt .sys 0x50) then d.errAt 0x81 0x50 else (d.plainWrite 0x50 v).kick
/-- HOST_WDOG_WRITE (R74). -/
def execHostWdogWrite (val : Word) (s : State) : Host.Outcome State Fault Refusal := hosted 0x50 (onDev (fun d => d.wdogWrite val)) s

/-- Does the host watchdog count (R74). -/
def Dev.wdogCounts (d : Dev) : Bool := d.armedOrRunning && d.on F.sys_HOST_WDOG_TIMEOUT && !d.ctl.wdogExpired

/-- One frame of the host watchdog. -/
def Dev.wdogFrame (d : Dev) : Dev :=
  if d.wdogCounts then { d with ctl := { d.ctl with wdogFrames := d.ctl.wdogFrames + 1 } }
  else if d.on F.sys_HOST_WDOG_TIMEOUT then d else { d with ctl := { d.ctl with wdogFrames := 0 } }

/-- WDOG (R74): the watchdog expires, and acts as STOP in RUNNING or as ABORT followed by FAULT_LATCHED. -/
def execWdog (s : State) : Host.Outcome State Fault Refusal :=
  onDev (fun d => when (d.wdogCounts && decide (msFrames (d.g F.sys_HOST_WDOG_TIMEOUT) ≤ d.ctl.wdogFrames)) (fun d =>
    let d := Dev.raise { d with ctl := { d.ctl with wdogExpired := true } } 0 2
    if d.on F.sys_HOST_WDOG_ACTION then
      { d with ctl := { d.ctl with abortInt := some true, abortFrame := if d.ctl.abortInt.isSome then d.ctl.abortFrame else d.time.frame,
                                   stop := if d.ctl.stop = some .abort then some .abortFault else d.ctl.stop } }
    else if d.isSt .running then Dev.stopNow { d with ctl := { d.ctl with stopInt := true } }
    else d) d) s

/-! ### Power-on and ROM (R62, R69, 12 R355, 14 R398, 15 R430, R445) -/

/-- The key slots and the lowest security version as BOOT shows them (R68). -/
def Dev.slotView (d : Dev) (o : Otp) : Dev :=
  (d.p F.boot_SLOT_STATE (o.slots.zipIdx.foldl (fun v e => v + e.1.1 % 4 * 4 ^ e.2) 0)).p F.boot_SEC_VER_MIN o.secVerMin

/-- What the logic die shows of OTP (R43, R68, R74; 16 R456). -/
def Dev.otpView (d : Dev) (o : Otp) : Dev :=
  let d := (d.p F.sys_DEV_ID_GRADE o.grade).slotView o
  let d := { d with pcie := { d.pcie with ids := { d.pcie.ids with subsystem := if o.grade = 0x58 then 2 else 1 } } }
  (gradeThr o.grade).zipIdx.foldl (fun d e => d.pi (thrFld e.2) e.1) d

/-- The records that open the log after a reset (15 R443, R445): BOOT with its cause, the state before and the boot count, and TIME_MARK. -/
def bootRecords (cause st count : Nat) : List EvRec :=
  [⟨0x103, srcOf 0x5000 false, 0, 0, [cause, st, count]⟩, ⟨0x102, srcOf 0x5000 false, 0, 0, []⟩]

/-- Both dies at power-on reset: all state lost except OTP, and the NOR is not part of either die (R62). The queue of commands and the counter of free
values are the model's own. -/
def State.por (s : State) : State := { s with mem := [], iso := {}, dev := { freeCtr := s.dev.freeCtr } }
/-- POWER_ON_RESET (R62). -/
def execPowerOnReset (s : State) : Host.Outcome State Fault Refusal := .next s.por
/-- BROWN_OUT (R62, 20 R522): acts as POR. -/
def execBrownOut (s : State) : Host.Outcome State Fault Refusal := .next s.por

/-- PLL_LOCK (R69, 15 R430): the time base starts and the device enters ROM. -/
def execPllLock (s : State) : Host.Outcome State Fault Refusal :=
  if s.dev.isSt .por && !s.dev.ctl.pllLocked then
    let d := { s.dev with ctl := { s.dev.ctl with pllLocked := true, bootCount := 1, bootCause := 0 },
                          evr := { s.dev.evr with front := bootRecords 0 0 1 } }
    .next { s with dev := (d.otpView s.otp).goSt .rom }
  else .next s

/-- ROM_SELF_TEST_DONE (14 R398, R421): the full pass of a unit in ROM, with the tests that failed. A finding makes it FAILED at the first frame boundary;
one of a slot or of an SRAM row queues its remap. -/
def execRomSelfTestDone (unit : Fin 2) (fails : List KatFail) (s : State) : Host.Outcome State Fault Refusal :=
  onDev (fun d => when (d.isSt .rom) (fun d =>
    fails.foldl (fun d k => d.katFail unit.val k) (d.bumpW (if unit.val = 0 then F.unit_A_PASSES else F.unit_B_PASSES))) d) s

/-- DDR_TRAINING_DONE (12 R355, R373, R378): the CFG fields take their values together, the devices tell whether they require refresh management, their
RAAIMT, the repair resources left by device and bank group, and, as free values, whether they take directed refresh management (R372) and their RAAMMT, not
below RAAIMT (log 105). A failure is DDR_TRAIN. -/
def execDdrTrainingDone (ok : Bool) (density : Fin 2) (rfmReq : Bool) (raaimt : BitVec 8) (res : List (BitVec 8)) (s : State) :
    Host.Outcome State Fault Refusal :=
  onDev (fun d => when (d.isSt .rom && !d.on F.ddr_CFG_TRAINED) (fun d =>
    if !ok then d.faultCause 3
    else
      let d := ((d.p F.ddr_CFG_TRAINED 1).p F.ddr_CFG_CAP_GB (if density.val = 0 then 32 else 48)).p F.ddr_CFG_DENSITY (density.val + 1)
      let d := d.p F.ddr_NR_CTRL_RFM_REQ (b2n rfmReq)
      let at_ (i : Nat) : Nat := (res.getD i 0).toNat
      let d := { d with ddr := { d.ddr with raaimt := raaimt.toNat, res := (List.range 160).foldl (fun (t : Tab Nat) i => Tab.set 0 t i (at_ i)) [] } }
      let (r, d) := d.draw
      let d := { d with ddr := { d.ddr with drfm := decide (r % 2 = 1), raammt := raaimt.toNat + r / 2 } }
      d.p F.ddr_PPR_RES ((List.range 160).foldl (fun m i => min m (at_ i)) 255)) d) s

/-- Does a row wait for its hard repair in ROM (12 R379). -/
def Dev.hardenWaits (d : Dev) : Bool := (List.range 8).any (fun i => d.g (F.ddr_PPR_LOGi_STATE i) == 3)

/-- DRAM_ZERO_DONE (R69, 12 R355): the memory stands ready, after POR written with zeros, and the device enters WAIT_IMAGE. The mode ends there. -/
def execDramZeroDone (s : State) : Host.Outcome State Fault Refusal :=
  onMem (fun r =>
    let d := r.1
    if d.isSt .rom && d.on F.ddr_CFG_TRAINED && !d.hardenWaits then
      let zero := decide (d.ctl.bootCause = 0)
      let d := if zero then { d with ddr := { d.ddr with bursts := [] } } else d
      let d := d.p2 F.evr_REGION_LO F.evr_REGION_HI (d.capacity - 4 * 2 ^ 20)
      ((d.p F.sys_SYS_STATE_MODE 0).goSt .waitImage, if zero then [] else r.2)
    else r) s

/-! ### DEV_RESET (R62, R73) -/

/-- A write of DEV_RESET: the key starts the reset; THERMAL_CRIT ignores it (R73). -/
def Dev.devResetWrite (d : Dev) (v : Word) : Dev :=
  if v.toNat ≠ 0xDE125E70 ∨ (d.isSt .faultLatched ∧ d.g F.sys_SYS_STATE_FAULT_CAUSE = 1) ∨ d.ctl.resetPend
      ∨ d.ctl.stop = some .devReset ∨ d.ctl.stop = some .devRest then d
  else { d with ctl := { d.ctl with resetPend := true, resetFrame := d.time.frame } }
/-- DEV_RESET (R62). -/
def execDevReset (val : Word) (s : State) : Host.Outcome State Fault Refusal := hosted 0x4C (onDev (fun d => d.devResetWrite val)) s

/-- The registers that a DEV_RESET keeps: the PCIE page (R62), the recorder's block registers (15 R445, R447), the increment (15 R430), values counted or
known since POR (14 R428, 16 R471, 05 R195), and the repair log (12 R356, R379). -/
def keptReg (a : Nat) : Bool :=
  pageBase a == 0x100000 || decide (0x5040 ≤ a ∧ a < 0x6000) || a ∈ [0x4040, 0x4044, 0x3068, 0x306C, 0x605C, 0x70060, 0xD00B8]
    || decide (0xD0100 ≤ a ∧ a < 0xD0180) || a ∈ [F.iso_LE_STUCK_LO.addr, F.iso_LE_STUCK_HI.addr]

/-- The logic die after DEV_RESET: what it keeps (R62; 05 R187, R188; 09 R309; 12 R356; 13 R388; 15 R430, R445; 17 R490), all else at reset. The queue of
the recorder has been written, and it takes no record until BOOT is written. -/
def Dev.resetDie (d : Dev) (o : Otp) : Dev :=
  let n := d.ctl.bootCount + 1
  let old := d.st
  let e : Dev :=
    { regs := { cur := d.regs.cur.filter (fun e => keptReg e.1) },
      ctl := { pllLocked := true, bootCount := n, bootCause := 1 },
      pcie := d.pcie,
      time := { d.time with step := none, capPend := false, tcmp := [] },
      evr := { d.evr with front := bootRecords 1 old n, queue := [], closed := true },
      lanes := (List.range 48).foldl (fun (t : Tab Lane) h => Tab.set {} t h { serial := (d.lane h).serial }) [],
      hand := { casKey := d.hand.casKey, casLoaded := d.hand.casLoaded, casHist := d.hand.casHist },
      ddr := { bursts := d.ddr.bursts, logAt := d.ddr.logAt, committed := d.ddr.committed },
      aux := { tick := d.aux.tick },
      link := { everRx := d.link.everRx, crit := d.link.crit, rxFrame := d.link.rxFrame },
      freeCtr := d.freeCtr }
  let e := (e.p F.iso_PERMIT_STAT_FAULTED (d.g F.iso_PERMIT_STAT_FAULTED)).p F.sys_SYS_STATE_MODE (d.g F.sys_SYS_STATE_MODE)
  let v := e.g (F.hdr_EVT_ROUTE_VECTOR 0x100000)
  let e := when (e.requests 0x100000) (fun e => e.p (pendFld v) 1) e
  (e.otpView o).goSt .rom

/-- Fragments that the memory controller has accepted are executed before self-refresh (12 R356): writes reach DRAM; a read's data has no taker left. -/
def flushWrites (r : Dev × List Host.Cell) : Dev × List Host.Cell :=
  let t := r.1.ddr
  let all := t.run0.toList ++ t.run1.toList ++ t.frags
  let r := all.foldl (fun (r : Dev × List Host.Cell) (x : Frag) => match x.wr with
    | some (o, bs) => dramPut x.cls (64 * x.burst + o) bs r
    | none => r) r
  ({ r.1 with ddr := { r.1.ddr with frags := [], run0 := none, run1 := none } }, r.2)

/-- Is an axis still in motion (10 R337). -/
def Dev.axesMove (d : Dev) : Bool := (List.range 16).any (fun n => d.axState n == 2 || d.axState n == 3 || d.axState n == 4)

/-- Has the controlled stop ended: every head that has a slot in service reports parked, or 400 frames have passed (R63). -/
def Dev.stopOver (d : Dev) : Bool :=
  d.ctl.stopLeft == 0 || (List.range 48).all (fun h => (d.headSlots h).all (fun n => d.mode n == 0) || d.reportsParked h)

/-- The device resets: the recorder has been drained, and the axes are at rest. A DMA channel started since the stop's end stops too (13 R392). -/
def State.devReset (s : State) : State :=
  let r := flushWrites (forN 32 (fun n r => dmaStop n r) (s.dev, s.mem))
  { s with dev := r.1.resetDie s.otp, mem := r.2, iso := s.iso.devReset }

/-- The end of the controlled stop of a DEV_RESET: every channel stops (13 R394), the recorder writes what is queued and closes (15 R445), and moving axes
ramp to rest (10 R338). -/
def State.resetStopEnds (s : State) : State :=
  let r := forN 32 (fun n r => dmaStop n r) (s.dev, s.mem)
  let r := evrDrain 2048 r
  let d := { r.1 with evr := { r.1.evr with closed := true } }
  let s := { s with dev := d, mem := r.2 }
  if d.axesMove then
    let d := d.auxAbort
    { s with dev := { d with ctl := { d.ctl with stop := some .devRest, stopLeft := 400000 } } }
  else s.devReset

/-- CONTROLLED_STOP_END (R63). -/
def execControlledStopEnd (s : State) : Host.Outcome State Fault Refusal :=
  let d := s.dev
  let none_ (d : Dev) : Dev := { d with ctl := { d.ctl with stop := none } }
  match d.ctl.stop with
  | none => .next s
  | some .devRest => .next (if d.ctl.stopLeft = 0 ∨ !d.axesMove then s.devReset else s)
  | some c =>
    if !d.stopOver then .next s
    else match c with
      | .abort => .next { s with dev := (none_ d).goIdle }
      | .fault => .next { s with dev := none_ d }
      | .abortFault => .next { s with dev := ((none_ d).latch 6).auxAbort }
      | _ => .next s.resetStopEnds

end Sys2Proof.Machine
end

