-- ==== Sys2Proof/Machine/Boot.lean ====
section
/-!
DEFINITION. The PCIe endpoint, the DRAM window, and the Baviaris image: download, verification, key slots (02 R43 to R50, R60, R61, R64 to R68, R537).
-/
namespace Sys2Proof.Machine

/-! ### The endpoint (R43, R49, R50, R60) -/

/-- A doubleword of configuration space that holds identifiers (R43), by its offset: Vendor and Device ID, Revision ID and class code, subsystem. -/
def Dev.cfgIdWord (d : Dev) (ofs : Nat) : Word :=
  let i := d.pcie.ids
  if ofs = 0x00 then BitVec.ofNat 32 (i.device * 65536 + i.vendor)
  else if ofs = 0x08 then BitVec.ofNat 32 (i.classCode * 256 + Config.stepping.toNat)
  else if ofs = 0x2C then BitVec.ofNat 32 (i.subsystem * 65536 + i.subVendor)
  else 0

/-- A doubleword of the Device Serial Number (R43), low first. -/
def cfgSerialWord (hi : Bool) : Word := Config.deviceSerial.extractLsb' (if hi then 32 else 0) 32

/-- A message held back by masking is sent when its vector is no longer masked (R60). -/
def Dev.msiFlush (d : Dev) : Dev :=
  d.pcie.pba.foldl (fun d v =>
    if d.vecMasked v || !d.pcie.msixEn then d
    else Dev.msgDue { d with pcie := { d.pcie with pba := d.pcie.pba.filter (· != v) } } v) d

/-- PCIE_LINK_DOWN (R49, R537): the endpoint alone is reset; events and LOCK of the page stay, and the loss is recorded. -/
def Dev.linkDown (d : Dev) : Dev :=
  let v := d.g (F.hdr_EVT_ROUTE_VECTOR 0x100000)
  let d := d.resetPage 0x100000
  let d := ((d.setReg 0x100014 0).setReg 0x10001C 0).errClr 0x100000
  let d := { d with pcie := { ids := d.pcie.ids, sent := d.pcie.sent, rdata := d.pcie.rdata,
                              hold := d.pcie.hold.map (fun (e : Nat × Holdoff) => (e.1, { e.2 with deferred := false })) } }
  (d.vecSync v false).raise 0x100000 1
/-- PCIE_LINK_DOWN (R49). -/
def execPcieLinkDown (s : State) : Host.Outcome State Fault Refusal :=
  onDev (fun d => when (!d.isSt .por) Dev.linkDown d) s

/-- PCIE_LINK_UP (R49, R537): the negotiated lanes (1, 2, 4 or 8) and speed (1 to 4). -/
def execPcieLinkUp (width : Fin 9) (speed : Fin 5) (s : State) : Host.Outcome State Fault Refusal :=
  onDev (fun d => when (!d.isSt .por && !d.on F.pcie_LINK_STAT_UP && [1, 2, 4, 8].contains width.val && decide (speed.val ≠ 0)) (fun d =>
    (((d.p F.pcie_LINK_STAT_UP 1).p F.pcie_LINK_STAT_WIDTH width.val).p F.pcie_LINK_STAT_SPEED speed.val).raise 0x100000 2) d) s

/-- MSIX_ENABLE (R49, R60): the host sets MSI-X Enable, with the function mask as given. Once newly enabled, every asserted vector counts as having just become
asserted. -/
def execMsixEnable (fnMask : Bool) (s : State) : Host.Outcome State Fault Refusal :=
  onDev (fun d => when (d.on F.pcie_LINK_STAT_UP) (fun d =>
    let new := !d.pcie.msixEn
    let d := { d with pcie := { d.pcie with msixEn := true, fnMask := fnMask } }
    if new then forN 64 (fun v d => when (d.on (pendFld v)) (fun d => d.msgDue v) d) d else d.msiFlush) d) s

/-- A write of the MSI-X table (R44): an entry's Vector Control unmasks it when bit 0 is cleared. The pending-bit array is read-only. -/
def Dev.msixWrite (d : Dev) (o : Nat) (v : Word) : Dev :=
  if 0x400 ≤ o then d
  else
    let k := o / 4
    Dev.msiFlush { d with pcie := { d.pcie with msix := Tab.put (fun k => if k % 4 = 3 then 1 else 0) d.pcie.msix k v } }

/-- MSIX_UNMASK (R60): the mask bit of a vector's table entry is cleared. -/
def execMsixUnmask (vector : Fin 64) (s : State) : Host.Outcome State Fault Refusal :=
  hosted (0x101000 + 16 * vector.val + 12) (onDev (fun d =>
    let w := Tab.get (fun k => if k % 4 = 3 then 1 else 0) d.pcie.msix (4 * vector.val + 3)
    d.msixWrite (16 * vector.val + 12) (w &&& 0xFFFFFFFE))) s

/-- HOLDOFF_EXPIRE (R61): the interval of a vector ends, and a message that fell due in it is sent once. -/
def execHoldoffExpire (vector : Fin 64) (s : State) : Host.Outcome State Fault Refusal :=
  onDev (fun d =>
    let v := vector.val
    let h := Tab.at {} d.pcie.hold v
    when (h.deferred && decide (h.until_ ≤ d.now)) (fun d =>
      Dev.msgDue { d with pcie := { d.pcie with hold := Tab.set {} d.pcie.hold v { h with deferred := false } } } v) d) s

/-- D3HOT_ENTRY (R50, R73). -/
def execD3hotEntry (s : State) : Host.Outcome State Fault Refusal :=
  onDev (fun d => when (!d.isSt .por && !d.pcie.d3) (fun d =>
    let d := Dev.raise { d with pcie := { d.pcie with d3 := true } } 0x100000 3
    if d.armedOrRunning then d.faultCause 7 else d) d) s

/-- D0_RETURN (R50): all state is kept. -/
def execD0Return (s : State) : Host.Outcome State Fault Refusal :=
  onDev (fun d => { d with pcie := { d.pcie with d3 := false } }) s

/-! ### The DRAM window (R47, R48) -/

/-- Does BAR2 reach DRAM: from WAIT_IMAGE on, and not from a DEV_RESET until WAIT_IMAGE (R47). -/
def Dev.bar2Live (d : Dev) : Bool :=
  decide (2 ≤ d.st) && d.on F.ddr_CFG_TRAINED && !d.ctl.resetPend && d.ctl.stop != some .devReset && d.ctl.stop != some .devRest

/-- BAR2_WRITE (R47): byte by byte; bytes in the device region or beyond capacity are discarded, with one BAD_ACCESS at the first of them. -/
def execBar2Write (ofs : BitVec 36) (data : List Byte) (s : State) : Host.Outcome State Fault Refusal :=
  onMem (fun r =>
    let d := r.1
    let a := ofs.toNat
    if !d.bar2Live then r
    else
      let good := d.devRegion - a
      let r := if good = 0 then r else dramWrite 2 a (data.take good) r
      if good < data.length then (r.1.badAcc 1 (max a d.devRegion), r.2) else r) s

/-- BAR2_READ (R47, 12 R363): bytes below the capacity read DRAM, the device region included; bytes at or above it read 0xFF, with one BAD_ACCESS. A read that
meets a bad burst completes poisoned, which AER shows as an uncorrectable, non-fatal error. -/
def execBar2Read (ofs : BitVec 36) (len : Nat) (s : State) : Host.Outcome State Fault Refusal :=
  onRead (fun d => if d.bar2Live then [(ofs.toNat, min len (d.capacity - ofs.toNat))] else []) (fun m d =>
    let a := ofs.toNat
    let ans (d : Dev) (l : List Nat) (ep : Bool) : Dev := { d with pcie := { d.pcie with rdata := l, ep := ep, aerNonFatal := d.pcie.aerNonFatal || ep } }
    if !d.bar2Live then ans d (List.replicate len 0xFF) false
    else
      let n := min len (d.capacity - a)
      let (bad, d) := if n = 0 then (false, d) else d.dramRead 2 a n
      let d := ans d (memBytes m a n ++ List.replicate (len - n) 0xFF) bad
      if n < len then d.badAcc 1 (max a d.capacity) else d) s

/-! ### The image (R64 to R67) -/

/-- Where the copy of the image lies in the device region (log 36). -/
def Dev.imgCopy (d : Dev) : Nat := d.devRegion + 188 * 2 ^ 20

/-- Verification ends with a code (R67). -/
def Dev.imgFail (d : Dev) (code sec : Nat) : Dev :=
  (((d.p F.boot_IMG_STATUS_CODE code).p F.boot_IMG_STATUS_SECTION sec).raise 0x1000 0).goSt .waitImage

/-- A write of IMG_GO (R66): the copy into the device region. A read of it that is bad ends with 0x11 at once (R67). The longest image is 64 MiB; of a longer
IMG_LEN no more is copied, since bad_length follows. -/
def imgGo (v : Word) (r : Dev × List Host.Cell) : Dev × List Host.Cell :=
  let d := r.1
  if v.toNat ≠ 0x474F474F then r
  else if !d.isSt .waitImage then (d.errAt 0x82 0x1044, r.2)
  else
    let n := min (d.g F.boot_IMG_LEN) (64 * 2 ^ 20)
    let d := ((d.p F.boot_IMG_STATUS_CODE 1).p F.boot_IMG_STATUS_SECTION 0).goSt .verify
    let (d, m) := dramTurn 0 n (d, r.2)
    let (bad, d) := if n = 0 then (false, d) else d.dramRead 3 0 n
    if bad then (d.imgFail 0x11 0, m)
    else dramWrite 3 d.imgCopy ((List.range n).map (fun i => memByte m i)) (d, m)
/-- IMG_GO (R66). -/
def execImgGo (val : Word) (s : State) : Host.Outcome State Fault Refusal := hosted 0x1044 (onMem (fun r => imgGo val r)) s

/-- A section entry of a header: type, offset, length, digest (R65). -/
structure SecEnt where
  typ : Nat
  ofs : Nat
  len : Nat
  digest : List Nat
  deriving DecidableEq, Repr

/-- Entry `i` of a header. -/
def secEnt (h : List Nat) (i : Nat) : SecEnt :=
  let b := (h.drop (0x40 + 48 * i)).take 48
  ⟨leAt b 0 2, leAt b 4 4, leAt b 8 4, b.drop 16⟩

/-- Are bytes all zero. -/
def zeros (l : List Nat) : Bool := l.all (· == 0)

/-- The section entries (R65). -/
def secsOk (h : List Nat) (imgLen mode : Nat) : Bool :=
  let n := leAt h 0x0C 2
  let es := (List.range n).map (secEnt h)
  let one (e : SecEnt) : Bool := decide (1 ≤ e.typ ∧ e.typ ≤ 3 ∧ e.ofs % 64 = 0 ∧ 0x180 ≤ e.ofs ∧ 1 ≤ e.len ∧ e.ofs + e.len ≤ imgLen)
  let rsv (i : Nat) : Bool := let b := (h.drop (0x40 + 48 * i)).take 48; leAt b 2 2 == 0 && leAt b 12 4 == 0
  let cnt (t : Nat) : Nat := es.countP (fun e => e.typ == t)
  let apart (a b : SecEnt) : Bool := decide (a.ofs + a.len ≤ b.ofs ∨ b.ofs + b.len ≤ a.ofs)
  let pairs := (List.range n).all (fun i => (List.range i).all (fun j => apart (secEnt h i) (secEnt h j)))
  es.all one && (List.range n).all rsv && (List.range 4).all (fun i => decide (i < n) || zeros ((h.drop (0x40 + 48 * i)).take 48))
    && cnt 1 == 1 && cnt 2 == 1 && cnt 3 == (if mode = 2 then 1 else 0) && pairs

/-- The checks of R67 on a header, before the digests: the code of the first that fails. -/
def imgHeader (h : List Nat) (len : Nat) (o : Otp) (rom : List Nat) : Option Nat :=
  let f (a n : Nat) : Nat := leAt h a n
  let slot := f 0x09 1
  let key := (h.drop 0x100).take 64
  let state := (o.slots.getD slot (0, [])).1
  let checks : List (Nat × Bool) :=
    [(0x10, f 0 4 == 0x53525642 && f 4 2 == 1 && f 6 2 == 0x180),
     (0x12, f 0x10 4 == len && decide (0x200 ≤ len ∧ len ≤ 0x4000000 ∧ len % 64 = 0)),
     (0x13, f 0x18 4 == 0x4816),
     (0x14, (f 8 1 == 1 || f 8 1 == 2) && decide (slot ≤ 3) && decide (f 0x0A 2 < 4) && decide (2 ≤ f 0x0C 2 ∧ f 0x0C 2 ≤ 4) && decide (f 0x14 4 ≤ 63)
        && f 0x0E 2 == 0 && f 0x1C 4 == 0 && zeros ((h.drop 0x30).take 16)),
     (0x15, secsOk h len (f 8 1)),
     (0x20, state == 1),
     (0x21, if slot = 0 then zeros key else sha256 key == (o.slots.getD slot (0, [])).2),
     (0x22, ecdsaOk (if slot = 0 then rom else key) ((h.drop 0x140).take 64) (h.take 0x100)),
     (0x23, decide (o.secVerMin ≤ f 0x14 4))]
  (checks.find? (fun c => !c.2)).map (·.1)

/-- The digests of the sections from entry `i` on (R67): the code and section of the first failure, and the state after the reads. -/
def imgDigests (m : List Host.Cell) (h : List Nat) (base : Nat) : List Nat → Dev → Option (Nat × Nat) × Dev
  | [], d => (none, d)
  | i :: is, d =>
    let e := secEnt h i
    let (bad, d) := d.dramRead 3 (base + e.ofs) e.len
    if bad then (some (0x11, 0), d)
    else if sha256 (memBytes m (base + e.ofs) e.len) ≠ e.digest then (some (0x24, i), d)
    else imgDigests m h base is d

/-- The key in ROM as bytes. -/
def romKeyBytes : List Nat := (List.range 64).map (fun k => (Config.romKey k).toNat)

/-- Verification of the copy with a ROM key (R67): the checks in order; on success IMG_INFO shows the image, its mode takes effect and CAL_LOAD begins. -/
def Dev.imageVerify (rom : List Nat) (m : List Host.Cell) (o : Otp) (d : Dev) : Dev :=
  let base := d.imgCopy
  let (bad, d) := d.dramRead 3 base 0x180
  if bad then d.imgFail 0x11 0
  else
    let h := memBytes m base 0x180
    match imgHeader h (d.g F.boot_IMG_LEN) o rom with
    | some c => d.imgFail c 0
    | none =>
      let n := leAt h 0x0C 2
      match imgDigests m h base (List.range n) d with
      | (some (c, i), d) => d.imgFail c i
      | (none, d) =>
        let mode := leAt h 8 1
        let flags := leAt h 0x0A 2
        let sc := match ((List.range n).map (secEnt h)).find? (fun e => e.typ == 3) with
          | some e => memBytes m (base + e.ofs) e.len
          | none => []
        let d := ((d.p F.boot_IMG_INFO_SEC_VER (leAt h 0x14 4)).p F.boot_IMG_INFO_KEY_SLOT (leAt h 9 1)).p F.boot_IMG_INFO_MODE mode
        let d := { d with ctl := { d.ctl with image := ⟨mode, bit flags 0, bit flags 1, leAt h 0x14 4, sc⟩ } }
        (((d.p F.boot_IMG_STATUS_CODE 2).p F.boot_IMG_STATUS_SECTION 0).p F.sys_SYS_STATE_MODE mode).raise 0x1000 0 |>.goSt .calLoad

/-- IMAGE_VERIFY_DONE (R67). -/
def execImageVerifyDone (s : State) : Host.Outcome State Fault Refusal :=
  onRead (fun d => if d.isSt .verify then [(d.imgCopy, min (d.g F.boot_IMG_LEN) (64 * 2 ^ 20))] else [])
    (fun m d => when (d.isSt .verify) (fun d => d.imageVerify romKeyBytes m s.otp) d) s

/-! ### Key slots (R68) -/

/-- ENROLL_STAT reaches done or refused. -/
def Dev.enrollEnd (d : Dev) (st : Nat) : Dev := (d.p F.boot_ENROLL_STAT st).raise 0x1000 1

/-- The state of a slot. -/
def Otp.slotSt (o : Otp) (k : Nat) : Nat := (o.slots.getD k (0, [])).1

/-- May this enrolment or revocation go on (R68). -/
def enrollOk (d : Dev) (o : Otp) (op slot : Nat) : Bool :=
  d.isSt .idle && d.ctl.image.enrollPermit && d.ctl.enroll.isNone &&
    (if op = 1 then slot != 0 && o.slotSt slot == 0
     else slot != 0 || o.slotSt 0 != 1 || [1, 2, 3].any (fun k => o.slotSt k == 1))

/-- A write of ENROLL_CMD (R68): ignored without its key; an OP that names no operation does nothing. The digest is taken now. -/
def Dev.enrollWrite (d : Dev) (o : Otp) (v : Word) : Dev :=
  let op := Word.f v 1 0
  let slot := Word.f v 3 2
  if Word.f v 31 16 ≠ 0x454E ∨ op = 0 ∨ op = 3 then d
  else if !enrollOk d o op slot then d.enrollEnd 3
  else
    let dig := (List.range 8).flatMap (fun i => (leBytes 4 (d.g (F.boot_ENROLL_DIGEST i))).map (·.toNat))
    { (d.p F.boot_ENROLL_STAT 1) with ctl := { d.ctl with enroll := some (op, slot, dig) } }

/-- A write of ENROLL_CMD whose OP is the row's. -/
def enrollRow (op : Nat) (v : Word) (s : State) : Host.Outcome State Fault Refusal :=
  hosted 0x1080 (onDev (fun d => when (decide (Word.f v 1 0 = op)) (fun d => d.enrollWrite s.otp v) d)) s
/-- ENROLL (R68). -/
def execEnroll (val : Word) (s : State) : Host.Outcome State Fault Refusal := enrollRow 1 val s
/-- REVOKE (R68). -/
def execRevoke (val : Word) (s : State) : Host.Outcome State Fault Refusal := enrollRow 2 val s

/-- A slot of OTP after an enrolment or a revocation: a revoked slot stays revoked (R68). -/
def Otp.change (o : Otp) (op slot : Nat) (dig : List Nat) : Otp :=
  { o with slots := o.slots.zipIdx.map (fun e => if e.2 ≠ slot then e.1 else if op = 1 then (if e.1.1 = 0 then (1, dig) else e.1) else (2, e.1.2)) }

/-- ENROLL_DONE (R68): the OTP change completes. -/
def execEnrollDone (s : State) : Host.Outcome State Fault Refusal :=
  match s.dev.ctl.enroll with
  | none => .next s
  | some (op, slot, dig) =>
    let o := s.otp.change op slot dig
    let d := Dev.slotView { s.dev with ctl := { s.dev.ctl with enroll := none } } o
    .next { s with otp := o, dev := d.enrollEnd 2 }

/-- The OTP counter rises to the image's security version once IDLE is reached (R67): it never falls. -/
def Otp.advance (o : Otp) (i : Image) : Otp := if i.advanceSv then { o with secVerMin := max o.secVerMin i.secVer } else o

end Sys2Proof.Machine
end

