-- ==== Sys2Proof/Machine/HostWrite.lean ====
section
/-!
DEFINITION. A host's access to BAR0: PAGE_CTRL and SOFT_RESET, the registers of every page, the table windows, counters, bad accesses
(00 R12, R13; 02 R45, R51 to R60; 19 R505 to R513).
-/
namespace Sys2Proof.Machine

/-! ### SOFT_RESET (02 R54) -/

/-- A page back at its reset values, but for these words of it: mappings that a remap has changed stay (04 R153, 07 R255, 08 R276; log 47). -/
def Dev.resetKeep (d : Dev) (page : Nat) (keep : List Nat) : Dev :=
  keep.foldl (fun e o => e.setReg (page + o) (d.reg (page + o))) (d.resetPage page)

/-- Block state of a page back at reset values (R54). Table windows are no block state (log 47). -/
def Dev.softBlock (d : Dev) (pg : Pg) (n page : Nat) : Dev :=
  match pg with
  | .seq => { (d.resetPage page) with seq := {} }
  | .hd =>
    let e := (((d.resetKeep page [0x1B8, 0x35C]).p (failedFld n) 0).p (heldFld n) 0).hdUpd n (fun _ => {})
    e.laneUpd n (fun l => { serial := l.serial })
  | .loop => forN 16 (fun i d => d.slotUpd (16 * n + i) (fun _ => {})) (d.resetKeep page ((List.range 16).map (fun i => 0x84 + 0xF8 * i)))
  | .ploop => forN 14 (fun i d => d.plUpd (14 * n + i) (fun _ => {})) (d.resetKeep page ((List.range 14).map (fun i => 0x84 + 0x118 * i)))
  | .ibex =>
    { (d.resetPage page) with hand := { d.hand with items := [], waiting := [], readers := [], spans := [], breach := [], edit := none, storeFull := false } }
  | .fire =>
    { (d.resetPage page) with hand := { d.hand with slots := [], groups := [0, 0, 0, 0, 0, 0, 0, 0], casKey := [0, 0, 0, 0, 0, 0, 0, 0], casLoaded := 0 } }
  | .ax => { (d.resetPage page) with axes := Tab.set {} d.axes n {} }
  | .bp => { (d.resetPage page) with bps := Tab.set {} d.bps n {} }
  | .cp => Dev.cpRoles { (d.resetPage page) with cps := Tab.set {} d.cps n {} }
  | .ip => Dev.cpRoles { (d.resetKeep page [0x44]) with ips := Tab.set {} d.ips n {} }
  | .iso =>
    let f := d.g F.iso_PERMIT_STAT_FAULTED
    let e := ((d.resetKeep page [0x70, 0x74]).p F.iso_PERMIT_STAT_FAULTED f).isoSend (isoPage + 0x8) 2
    { e with link := { e.link with leMask := 0 } }
  | .led =>
    let e := (d.resetPage page).isoSend (ledPage + 0x8) (2 + d.g (F.hdr_PAGE_CTRL_ENABLE page))
    { e with link := { e.link with ledArm := 0 } }
  | .eth => { (d.resetPage page) with mdio := 0 }
  | _ => d.resetPage page

/-- A write of SOFT_RESET to a page (R54). -/
def softReset (p : PgInfo) (n page : Nat) (r : Dev × List Host.Cell) : Dev × List Host.Cell :=
  if p.pg ∈ [.unit, .time, .sys, .boot, .irq, .evr, .hk, .cal, .ddr, .pcie] then (r.1.errAt 0x85 (page + 0x8), r.2)
  else if p.pg = .dma then
    let r := if r.1.dmaSt n = 0 then r else dmaStop n r
    ({ (r.1.resetPage page) with dmas := Tab.set {} r.1.dmas n {} }, r.2)
  else if p.pg ≠ .eth ∧ r.1.armedOrRunning then (r.1.errAt 0x85 (page + 0x8), r.2)
  else (r.1.softBlock p.pg n page, r.2)

/-! ### PAGE_CTRL (02 R52, R53, 19 R510) -/

/-- A write that changes ENABLE (R510): pages that reset to 1 refuse 0; IBEX takes it in IDLE (06 R230); 0 stops a DMA channel (13 R396). -/
def enableWrite (p : PgInfo) (n page : Nat) (en : Nat) (r : Dev × List Host.Cell) : Dev × List Host.Cell :=
  let set (d : Dev) : Dev := d.p (F.hdr_PAGE_CTRL_ENABLE page) en
  if p.pg = .ibex then (if r.1.isSt .idle then set r.1 else r.1.errAt 0x82 (page + 0x8), r.2)
  else if p.pg = .dma then
    let r := if en = 0 ∧ r.1.dmaSt n ≠ 0 then dmaStop n r else r
    (set r.1, r.2)
  else if p.en then (r.1.errAt 0x84 (page + 0x8), r.2)
  else if p.pg = .led then ((set r.1).isoSend (ledPage + 0x8) en, r.2)
  else if p.pg = .cp ∧ en = 0 then ((set r.1).cpDisable n, r.2)
  else (set r.1, r.2)

/-- A write of PAGE_CTRL (R53): ERR_CLR first; of a locked page nothing else changes; in SC-12 mode the pages that take every write apart, only ERR_CLR is
accepted (18 R493). -/
def pageCtrl (p : PgInfo) (n page : Nat) (v : Word) (r : Dev × List Host.Cell) : Dev × List Host.Cell :=
  let d := if Word.f v 3 3 = 1 then r.1.errClr page else r.1
  let en := Word.f v 0 0
  let chg : Bool := decide (en ≠ d.g (F.hdr_PAGE_CTRL_ENABLE page))
  if d.scMode ∧ !scWhole page then (if Word.f v 3 3 = 1 then d else d.badAcc 0 (page + 0x8), r.2)
  else if d.locked page then
    (if chg || decide (Word.f v 2 2 = 0 ∨ Word.f v 1 1 = 1) then d.errAt 0x81 (page + 0x8) else d, r.2)
  else
    let d := if Word.f v 2 2 = 1 then d.p (F.hdr_PAGE_CTRL_LOCK page) 1 else d
    let r := if Word.f v 1 1 = 1 then softReset p n page (d, r.2) else (d, r.2)
    if chg then enableWrite p n page en r else r

/-! ### Counters (CNT_CLEAR) -/

/-- CNT_CLEAR of a lane (09 R311). -/
def Dev.laneCntClear (d : Dev) (h : Nat) : Dev :=
  ((d.setReg (hdPage h + 0x38C) 0).setReg (hdPage h + 0x390) 0).setReg (hdPage h + 0x394) 0 |>.p (F.hd_MSG_RX_STAT_LOST h) 0
/-- CNT_CLEAR of an Ethernet port (15 R451). -/
def Dev.ethCntClear (d : Dev) (p : Nat) : Dev :=
  (d.setReg (F.ethp_CNT_RX_FULL p).addr 0).setReg (F.ethp_CNT_TX_BAD p).addr 0

/-! ### The registers of the pages -/

/-- A write of an HD register (R512). -/
def Dev.hdWrite (d : Dev) (h a : Nat) (v : Word) : Dev :=
  match a % 0x1000 with
  | 0x10C => d.streamRetry h
  | 0x1B4 => d.fcAcceptWrite h v
  | 0x1BC => d.parkWrite h v
  | 0x2A0 => d.casRead h
  | 0x314 => d.rejoin h v
  | 0x380 => d.laneCtrlWrite h v
  | 0x398 => d.laneCntClear h
  | 0x3B0 => d.linkAccept h v
  | 0x444 => d.msgTxGo h
  | 0x4C4 => d.msgRxFree h
  | _ => d.plainWrite a v

/-- A write of a DMA register (13 R392, R395, R396): the set-up fields only while the channel is IDLE; a channel never triggers itself (R388). -/
def dmaWrite (n a : Nat) (v : Word) (r : Dev × List Host.Cell) : Dev × List Host.Cell :=
  let d := r.1
  match a % 0x1000 with
  | 0x58 => dmaCmdWrite n v r
  | 0x5C => doorbell n (d, r.2)
  | 0x40 | 0x44 | 0x48 | 0x4C | 0x50 | 0x54 =>
    if d.dmaSt n ≠ 0 then (d.errAt 0x82 a, r.2)
    else
      let src := if a % 0x1000 = 0x40 then Word.f v 2 0 else d.g (F.dma_CH_CTRL_TRIG_SRC n)
      let ch := if a % 0x1000 = 0x44 then Word.f v 4 0 else d.g (F.dma_TRIG_CH n)
      (if src = 2 ∧ ch = n ∧ a % 0x1000 ≤ 0x44 then d.errAt 0x83 a else d.plainWrite a v, r.2)
  | _ => (d.plainWrite a v, r.2)

/-- A write of an ETH register (15 R439, R451). -/
def Dev.ethWrite (d : Dev) (a : Nat) (v : Word) : Dev :=
  let o := a % 0x1000
  let p := (o - 0x80) / 0x40
  if o = 0x40 then d.mdioWrite v
  else if 0x80 ≤ o ∧ o < 0x100 then
    match o % 0x40 with
    | 0x08 | 0x0C | 0x10 | 0x14 | 0x18 =>
      if d.on (F.ethp_PORT_CTRL_RX_EN p) || d.on (F.ethp_PORT_CTRL_TX_EN p) then d.errAt 0x82 a
      else if o % 0x40 = 0x18 then
        d.checked a (decide (4 ≤ Word.f v 11 8 ∧ Word.f v 11 8 ≤ 12 ∧ 4 ≤ Word.f v 3 0 ∧ Word.f v 3 0 ≤ 12)) (fun d => d.plainWrite a v)
      else d.plainWrite a v
    | 0x20 => d.rxRdWrite p v
    | 0x24 => d.txWrWrite p v
    | 0x38 => d.ethCntClear p
    | _ => d.plainWrite a v
  else d.plainWrite a v

/-- A write that goes on to the isolated die, of a word that has a field to write. -/
def Dev.toDie (d : Dev) (pg : Pg) (a : Nat) (v : Word) : Dev :=
  if (rowsAt pg (a % 0x1000)).any (fun r => r.acc == .rw || r.acc == .w1c) then d.isoWrite a v else d

/-- A write of an ISO register (17 R480, R486, R490). -/
def Dev.isoRegWrite (d : Dev) (a : Nat) (v : Word) : Dev :=
  match a % 0x1000 with
  | 0x4C => d.permitClear v
  | 0x48 => d.idleOnly a (fun d => d.isoWrite a v)
  | 0x80 => d.doOutWrite v
  | 0x90 => d.isoCntClear
  | _ => d.toDie .iso a v

/-- A write of an LED register (11 R346, R353). -/
def Dev.ledRegWrite (d : Dev) (a : Nat) (v : Word) : Dev :=
  match a % 0x1000 with
  | 0x4C => d.ledSwapWrite v
  | 0x1C0 => d.isoSend a v.toNat
  | _ => d.toDie .led a v

/-- A write of a UNIT register (14 R416 to R422, R428). -/
def Dev.unitWrite (d : Dev) (a : Nat) (v : Word) : Dev :=
  match a % 0x1000 with
  | 0x48 => d.revDeferWrite v
  | 0x64 => d.unitCmdWrite v
  | 0x7C => d.remapReq v
  | 0x80 => d.remapGo
  | 0x90 | 0x94 | 0x98 | 0x9C => d.mgmtWrite a v
  | _ => d.plainWrite a v

/-- A write of a TIME register (15 R431, R432, R437). -/
def Dev.timeWrite (d : Dev) (a : Nat) (v : Word) : Dev :=
  let o := a % 0x1000
  if o = 0x44 then d.incCommit v
  else if o = 0x5C then d.timeCmd v
  else if 0x100 ≤ o ∧ o < 0x200 ∧ o % 0x20 = 0 then d.tcmpWrite ((o - 0x100) / 0x20) v
  else d.plainWrite a v

/-- A write of an HK register (16 R456, R471). -/
def Dev.hkWrite (d : Dev) (a : Nat) (v : Word) : Dev :=
  match a % 0x1000 with
  | 0x44 => d.thresholdWrite 0 v
  | 0x48 => d.thresholdWrite 1 v
  | 0x4C => d.thresholdWrite 2 v
  | 0x50 => d.riseLimWrite v
  | 0x54 => d.thrMinWrite v
  | _ => d.plainWrite a v

/-- A write of a SYS register (02 R58, R62, R71, R74). -/
def Dev.sysWrite (d : Dev) (a : Nat) (v : Word) : Dev :=
  match a with
  | 0x44 => d.sysCmdWrite v
  | 0x4C => d.devResetWrite v
  | 0x50 => d.wdogWrite v
  | 0x54 => d.kick
  | 0x58 => d.shadowRelease v
  | _ => d.plainWrite a v

/-- A write of an IBEX register (06 R209, R210, R230). -/
def Dev.ibexWrite (d : Dev) (a : Nat) (v : Word) : Dev :=
  match a % 0x1000 with
  | 0x60 | 0x64 | 0x68 | 0x6C => d.idleOnly a (fun d => d.plainWrite a v)
  | 0x7C => d.tileEdit v
  | 0x9C => d.failReq v
  | _ => d.plainWrite a v

/-- A write of an IP register (08 R280): the source in IDLE only, which changes what the ports do. -/
def Dev.ipWrite (d : Dev) (a : Nat) (v : Word) : Dev :=
  match a % 0x1000 with
  | 0x40 => d.idleOnly a (fun d => (d.plainWrite a v).cpRoles)
  | 0x50 | 0x54 | 0x58 | 0x5C | 0x60 => d.idleOnly a (fun d => d.plainWrite a v)
  | _ => d.plainWrite a v

/-- A write of a block register that changes nothing but the logic die. -/
def Dev.blockWrite (d : Dev) (pg : Pg) (n a : Nat) (v : Word) : Dev :=
  let o := a % 0x1000
  match pg with
  | .sys => d.sysWrite a v
  | .unit => d.unitWrite a v
  | .time => d.timeWrite a v
  | .evr => if o = 0x50 then d.evrCmd v else d.plainWrite a v
  | .hk => d.hkWrite a v
  | .seq => d.seqWrite a v
  | .hd => d.hdWrite n a v
  | .loop => (if o = 0x4C then d.traceArm n v else if o = 0x50 then d.traceForce n v else d.plainWrite a v).loopSum n
  | .ploop => (d.plainWrite a v).plSums
  | .ibex => d.ibexWrite a v
  | .fire => if 0x40 ≤ o ∧ o < 0x60 then d.casKeyWrite ((o - 0x40) / 4) v else d.plainWrite a v
  | .cp => if o = 0x64 then d.cpCntClear n else d.plainWrite a v
  | .ip => d.ipWrite a v
  | .ax => if o = 0x7C then d.axCmdWrite n v else d.plainWrite a v
  | .bp => if o = 0x50 then d.bpCntClear n else d.plainWrite a v
  | .led => d.ledRegWrite a v
  | .ddr => if o = 0xB4 then d.pprCmd v else if o = 0xA0 then (d.plainWrite a v).pdLeave else if o = 0xA8 ∨ o = 0xAC then d.idleOnly a (fun d => d.plainWrite a v) else d.plainWrite a v
  | .eth => d.ethWrite a v
  | .iso => d.isoRegWrite a v
  | _ => d.plainWrite a v

/-- A write of a header register (02 R52, R53). -/
def headerWrite (p : PgInfo) (n page o : Nat) (v : Word) (r : Dev × List Host.Cell) : Dev × List Host.Cell :=
  match o with
  | 0x08 => pageCtrl p n page v r
  | 0x10 => (r.1.evtRawWrite page v, r.2)
  | 0x14 => (r.1.evtEnWrite page v, r.2)
  | 0x18 => (r.1.evtForceWrite page v, r.2)
  | 0x1C => (r.1.evtRouteWrite page v, r.2)
  | 0x28 => (r.1.pointWrite page v, r.2)
  | _ => r

/-- A write of a register page. -/
def pageWrite (o : Otp) (p : PgInfo) (n a : Nat) (v : Word) (r : Dev × List Host.Cell) : Dev × List Host.Cell :=
  if a % 0x1000 < 0x40 then headerWrite p n (pageBase a) (a % 0x1000) v r
  else match p.pg with
    | .boot => if a = 0x1044 then imgGo v r else if a = 0x1080 then (r.1.enrollWrite o v, r.2) else (r.1.plainWrite a v, r.2)
    | .cal => if a = 0x7040 then calWrite v r else (r.1.plainWrite a v, r.2)
    | .dma => dmaWrite n a v r
    | pg => (r.1.blockWrite pg n a v, r.2)

/-- The MSI-X region (19 R505): the table, the pending-bit array, and unmapped addresses between them. -/
def Dev.msixRegion (d : Dev) (a : Nat) (v : Word) : Dev :=
  let o := a - 0x101000
  if o < 0x400 ∨ (0x800 ≤ o ∧ o < 0x808) then d.msixWrite o v else d.badAcc 0 a

/-- A write of a table window (19 R511), or of an unmapped address (02 R45). The handoff store is read-only (06 R214). -/
def Dev.windowWrite (d : Dev) (a : Nat) (v : Word) : Dev :=
  if inScWindow a then d.scWrite (a - 0x3F00000) v
  else if 0x101000 ≤ a ∧ a < 0x102000 then d.msixRegion a v
  else if 0x1000000 ≤ a ∧ a < 0x1008000 then d.ctxWindowWrite (a - 0x1000000) v
  else if 0x1010000 ≤ a ∧ a < 0x1020000 then d.seqTableWrite (a - 0x1010000) v
  else if 0x1020000 ≤ a ∧ a < 0x1060000 then d.tileWrite (a - 0x1020000) v
  else if 0x1060000 ≤ a ∧ a < 0x10A0000 then d
  else if 0x10A0000 ≤ a ∧ a < 0x10A1000 then d.ledWindowWrite (a - 0x10A0000) v
  else if 0x1100000 ≤ a ∧ a < 0x1400000 then d.gridWrite (a - 0x1100000) v
  else d.badAcc 0 a

/-- A write of a BAR0 address by its target (R505, R511); a misaligned one is a bad access (02 R45). -/
def bar0Write (o : Otp) (a : Nat) (v : Word) (r : Dev × List Host.Cell) : Dev × List Host.Cell :=
  if a % 4 ≠ 0 then (r.1.badAcc 0 a, r.2)
  else match pageOf a with
    | some (p, n) => pageWrite o p n a v r
    | none => (r.1.windowWrite a v, r.2)

/-- A host's 32-bit write of a BAR0 offset. -/
def hostWrite (a : Nat) (v : Word) (s : State) : Host.Outcome State Fault Refusal :=
  hosted a (onMem (fun r => bar0Write s.otp a v r)) s

/-! ### What a read returns (00 R12, 02 R45, R46, 19 R507) -/

/-- BLOCK_CAP (R507). -/
def Dev.blockCap (d : Dev) (pg : Pg) (n : Nat) : Nat :=
  match pg with
  | .sys => 0x4816 + (if d.g F.sys_DEV_ID_GRADE = 0x58 then 0x10000 else 0)
  | .unit => 16 + 8 * 32 + 1 * 1024
  | .hd => n
  | .loop => 16
  | .ploop => 14
  | .cp => 4096
  | .ip => (if n = 6 then 1 else 0) + 4
  | .ax => 2
  | .bp => 2
  | .ddr => d.g F.ddr_CFG_CAP_GB + 256 * d.g F.ddr_CFG_DENSITY
  | .dma => n
  | .iso => 48
  | .led => 512
  | _ => 0

/-- BLOCK_STAT (R507), copied from the named registers. -/
def Dev.blockStat (d : Dev) (pg : Pg) (n : Nat) : Nat :=
  match pg with
  | .sys => d.g F.sys_SYS_STATE_STATE + 16 * d.g F.sys_SYS_STATE_MODE
  | .unit => d.g F.unit_UNIT_STAT_ACTIVE + 2 * d.g F.unit_UNIT_STAT_REDUNDANT
  | .hd => b2n (d.laneSt n == 3) + 2 * b2n (d.inExpo n)
      + 4 * d.g (F.hd_FAIL_FAILED n) + 8 * d.g (F.hd_IBEX_STAT_HELD n) + 16 * b2n (d.reportsParked n)
  | .loop => (d.reg (F.loop_SUM_FAULT n).addr).toNat
  | .ploop => d.g (F.ploop_SUM_ACTIVE n)
  | .cp => d.g (F.cp_CP_STAT_PCLK_PRESENT n) + 2 * d.g (F.cp_CP_STAT_IN_FRAME n)
  | .ip => d.g (F.ip_IP_STAT_FAILED n) + 2 * d.g (F.ip_IP_FLAGS_REMAPPED n)
  | .ax => d.g (F.ax_AX_STAT_STATE n)
  | .bp => d.g (F.bp_BP_STAT_STATE n)
  | .ddr => d.g F.ddr_CFG_TRAINED + 2 * d.g F.ddr_MARK_M0_EN + 4 * d.g F.ddr_MARK_M1_EN
  | .dma => d.g (F.dma_CH_STAT_STATE n)
  | .iso => d.g F.iso_ISO_STAT_LINK_OK + 2 * d.g F.iso_PERMIT_STAT_VOTE
  | .led => d.g F.led_LED_STAT_ARMED + 2 * d.g F.led_LAMP_STAT_HOT
  | _ => 0

/-- What the silicon fixes of a word: DEV_ID.STEPPING (R74) and the ROM public key in ROM_KEY0 to ROM_KEY15 (R68). -/
def siliconWord (a : Nat) : Word :=
  if a = 0x5C then BitVec.ofNat 32 (Config.stepping.toNat * 256)
  else if 0x10A0 ≤ a ∧ a < 0x10E0 then BitVec.ofNat 32 (ofLE ((List.range 4).map (fun i => (Config.romKey (a - 0x10A0 + i)).toNat)))
  else 0

/-- What a read of a register returns (R46: without any effect): write-only fields read 0, PAGE_CAP and PAGE_STAT copy their sources. -/
def Dev.readReg (d : Dev) (a : Nat) : Word :=
  match pageOf a with
  | none => 0
  | some (p, n) =>
    let page := pageBase a
    match a % 0x1000 with
    | 0x4 => BitVec.ofNat 32 (hdrReset p n 4 + d.blockCap p.pg n)
    | 0xC =>
      BitVec.ofNat 32 (d.blockStat p.pg n % 65536 * 65536 + (if d.g (F.hdr_ERR_INFO_CODE page) = 0 then 0 else 8)
        + b2n (d.locked page) * 4 + b2n (d.regs.pend.any (fun w => pageBase w.addr == page)) * 2
        + d.g (F.hdr_PAGE_CTRL_ENABLE page))
    | o => (d.reg a &&& BitVec.ofNat 32 (accMask (rowsAt p.pg o) (fun x => x != .wo))) ||| siliconWord a

/-- A word of a table window of doublewords. -/
def half (w : DWord) (a : Nat) : Word := BitVec.ofNat 32 (if a / 4 % 2 = 0 then w.toNat % 2 ^ 32 else w.toNat / 2 ^ 32)

/-- What a read of a table window, the MSI-X region or the SC-12 window returns; an unmapped address reads 0 (R45). -/
def Dev.readWindow (d : Dev) (a : Nat) : Word :=
  if inScWindow a then
    (if d.scMode then d.reg a &&& BitVec.ofNat 32 (accMask (rowsAt .sc (a - 0x3F00000)) (fun x => x != .wo)) else 0)
  else if 0x101000 ≤ a ∧ a < 0x101400 then Tab.get (fun k => if k % 4 = 3 then 1 else 0) d.pcie.msix ((a - 0x101000) / 4)
  else if 0x101800 ≤ a ∧ a < 0x101808 then
    BitVec.ofNat 32 (bitsOf 32 (fun i => (8 * (a - 0x101800) + i) ∈ d.pcie.pba))
  else if 0x1000000 ≤ a ∧ a < 0x1008000 then Tab.at 0 d.ctxWin (a - 0x1000000)
  else if 0x1010000 ≤ a ∧ a < 0x1020000 then Tab.at 0 d.seqTab (a - 0x1010000)
  else if 0x1020000 ≤ a ∧ a < 0x1060000 then
    if (a - 0x1020000) / 8 < d.g F.ibex_TILE_DIM_NX * d.g F.ibex_TILE_DIM_NY then half (Tab.at 0 d.tiles ((a - 0x1020000) / 8)) a else 0
  else if 0x1060000 ≤ a ∧ a < 0x10A0000 then
    BitVec.ofNat 32 (nth (d.item ((a - 0x1060000) / 32)).words ((a - 0x1060000) % 32 / 4))
  else if 0x10A0000 ≤ a ∧ a < 0x10A1000 then Tab.at 0 d.link.ledWin ((a - 0x10A0000) / 4)
  else if 0x1100000 ≤ a ∧ a < 0x1400000 then
    let o := a - 0x1100000
    if 4225 * 8 ≤ o % 65536 then 0 else half (Tab.at 0 d.grid (o / 65536 * 8192 + o % 65536 / 8)) a
  else 0

/-- Windows whose 64-bit entries take an aligned 64-bit access (R511). -/
def wideWindow (a : Nat) : Bool := decide (a % 8 = 0 ∧ ((0x1020000 ≤ a ∧ a < 0x10A0000) ∨ (0x1100000 ≤ a ∧ a < 0x1400000)))

/-- Register pairs that take a 64-bit access aligned to their _LO word: those of an HD page (05 R196), of TIME (15 R449) and of a DMA page (13 R396;
log 91). -/
def widePair (a : Nat) : Bool :=
  match pageOf a with
  | some (p, _) =>
    let o := a % 0x1000
    match p.pg with
    | .hd => o ∈ [0x284, 0x28C, 0x294]
    | .time => o ∈ [0x40, 0x4C, 0x68, 0x74] || decide (0x100 ≤ o ∧ o < 0x200 ∧ o % 0x20 = 8)
    | .dma => o ∈ [0x50, 0x64, 0x6C, 0x80]
    | _ => false
  | none => false

/-- A 64-bit write of a window entry: both halves at once (R513). The handoff store is read-only (06 R214). -/
def Dev.windowWrite64 (d : Dev) (a : Nat) (lo hi : Word) : Dev :=
  let w := lo.toNat + hi.toNat * 2 ^ 32
  if a < 0x1060000 then d.tileEntry (a - 0x1020000) w
  else if a < 0x10A0000 then d
  else d.gridEntry (a - 0x1100000) w

/-- A 64-bit write of a register pair: both halves at once (R513), so a refusal discards and counts it whole. -/
def pairWrite (o : Otp) (p : PgInfo) (n a : Nat) (lo hi : Word) (r : Dev × List Host.Cell) : Dev × List Host.Cell :=
  let d := r.1
  if p.pg = .dma ∧ a % 0x1000 = 0x50 ∧ d.dmaSt n ≠ 0 then (d.errAt 0x82 a, r.2)
  else if d.lockRefuses a lo (rowsAt p.pg (a % 0x1000)) || d.lockRefuses (a + 4) hi (rowsAt p.pg (a % 0x1000 + 4)) then (d.errAt 0x81 a, r.2)
  else pageWrite o p n (a + 4) hi (pageWrite o p n a lo r)

/-- A host's 64-bit write of a BAR0 offset: of an entry or a pair that takes one, else a bad access (02 R45). -/
def hostWrite64 (a : Nat) (lo hi : Word) (s : State) : Host.Outcome State Fault Refusal :=
  hosted a (onMem (fun r =>
    match widePair a, pageOf a with
    | true, some (p, n) => pairWrite s.otp p n a lo hi r
    | _, _ => (if wideWindow a then r.1.windowWrite64 a lo hi else r.1.badAcc 0 a, r.2))) s

/-- What a read of the word at a BAR0 address returns. -/
def Dev.readWord (d : Dev) (a : Nat) : Word := if (pageOf a).isSome then d.readReg a else d.readWindow a

/-- Is a BAR0 address mapped (R505, R511); the SC-12 window is in SC-12 mode only (18 R494). -/
def Dev.mapped (d : Dev) (a : Nat) : Bool :=
  (pageOf a).isSome || (inScWindow a && d.scMode)
    || decide ((0x101000 ≤ a ∧ a < 0x101400) ∨ (0x101800 ≤ a ∧ a < 0x101808) ∨ (0x1000000 ≤ a ∧ a < 0x1008000) ∨ (0x1010000 ≤ a ∧ a < 0x10A1000)
        ∨ (0x1100000 ≤ a ∧ a < 0x1400000))

/-- Is an access of `len` bytes a good one (R45). -/
def Dev.goodAccess (d : Dev) (a len : Nat) : Bool :=
  d.mapped a && ((decide (len = 4 ∧ a % 4 = 0)) || (decide (len = 8) && (widePair a || wideWindow a)))

/-- The bytes that a bad read returns (R45): those of the enclosing registers, 0 where unmapped. -/
def Dev.readBytes (d : Dev) (a len : Nat) : List Nat :=
  (List.range len).map (fun i => bits (d.readWord ((a + i) / 4 * 4)).toNat ((a + i) % 4 * 8 + 7) ((a + i) % 4 * 8))

/-! ### Meanings -/

/-- BAD_ACCESS (R45): a misaligned, wrongly sized or unmapped access of BAR0 completes and is recorded; a bad write is discarded. A read answers the
bytes, those of a good access too, both halves of a pair as of one cycle (19 R513). -/
def execBadAccess (addr : BitVec 26) (write : Bool) (len : Nat) (s : State) : Host.Outcome State Fault Refusal :=
  onDev (fun d =>
    let a := addr.toNat
    if d.isSt .por then d
    else
      let e := when (!d.goodAccess a len) (fun d => d.badAcc 0 a) d
      if write then e else { e with pcie := { e.pcie with rdata := d.readBytes a len } }) s

/-- REGISTER_WRITE (00 R12, R13): a host's write of any BAR0 word, by its field's access code or the behaviour its chapter gives it, or a
64-bit write (19 R513). -/
def execRegisterWrite (addr : BitVec 26) (val : RegData) (s : State) : Host.Outcome State Fault Refusal :=
  match val with
  | .word v => hostWrite addr.toNat v s
  | .pair lo hi => hostWrite64 addr.toNat lo hi s

/-- A write of a header register at an offset of a page. -/
def headerRow (page : BitVec 26) (o : Nat) (val : Word) (s : State) : Host.Outcome State Fault Refusal := hostWrite (pageBase page.toNat + o) val s

/-- ERR_CLR (02 R53): a write of PAGE_CTRL with ERR_CLR. -/
def execErrClr (page : BitVec 26) (val : Word) (s : State) : Host.Outcome State Fault Refusal :=
  if Word.f val 3 3 = 1 then headerRow page 0x8 val s else .next s
/-- SOFT_RESET (R54): a write of PAGE_CTRL with SOFT_RESET. -/
def execSoftReset (page : BitVec 26) (val : Word) (s : State) : Host.Outcome State Fault Refusal :=
  if Word.f val 1 1 = 1 then headerRow page 0x8 val s else .next s
/-- PAGE_LOCK (R53): a write of PAGE_CTRL with LOCK. -/
def execPageLock (page : BitVec 26) (val : Word) (s : State) : Host.Outcome State Fault Refusal :=
  if Word.f val 2 2 = 1 then headerRow page 0x8 val s else .next s
/-- PAGE_ENABLE (19 R510): a write of PAGE_CTRL. -/
def execPageEnable (page : BitVec 26) (val : Word) (s : State) : Host.Outcome State Fault Refusal := headerRow page 0x8 val s
/-- EVT_FORCE (R52). -/
def execEvtForce (page : BitVec 26) (val : Word) (s : State) : Host.Outcome State Fault Refusal := headerRow page 0x18 val s
/-- EVT_RAW_CLEAR (R60). -/
def execEvtRawClear (page : BitVec 26) (val : Word) (s : State) : Host.Outcome State Fault Refusal := headerRow page 0x10 val s
/-- EVT_EN_WRITE (R60). -/
def execEvtEnWrite (page : BitVec 26) (val : Word) (s : State) : Host.Outcome State Fault Refusal := headerRow page 0x14 val s
/-- SHADOW_POINT_WRITE (R57). -/
def execShadowPointWrite (page : BitVec 26) (val : Word) (s : State) : Host.Outcome State Fault Refusal := headerRow page 0x28 val s
/-- SHADOW_RELEASE (R58). -/
def execShadowRelease (val : Word) (s : State) : Host.Outcome State Fault Refusal := hosted 0x58 (onDev (fun d => d.shadowRelease val)) s

/-- The CNT_CLEAR registers: HD 0x398, CP 0x064, BP 0x050, ETH port +0x38, ISO 0x090. -/
def isCntClear (a : Nat) : Bool :=
  match pageOf a with
  | some (p, _) =>
    let o := a % 0x1000
    (p.pg == .hd && o == 0x398) || (p.pg == .cp && o == 0x64) || (p.pg == .bp && o == 0x50) || (p.pg == .eth && (o == 0xB8 || o == 0xF8))
      || (p.pg == .iso && o == 0x90)
  | none => false
/-- CNT_CLEAR (08 R279, 09 R311, 10 R340, 15 R451, 17 R490). -/
def execCntClear (addr : BitVec 26) (val : Word) (s : State) : Host.Outcome State Fault Refusal :=
  if isCntClear addr.toNat then hostWrite addr.toNat val s else .next s

end Sys2Proof.Machine
end

