-- ==== Sys2Proof/Machine/CalLoad.lean ====
section
/-!
DEFINITION. The end of CAL_LOAD: calibration of every head, the SC-12 personality with its preset writes, the security version (02 R67, R69; 16 R464;
18 R492).
-/
namespace Sys2Proof.Machine

/-- Errors that the pages have counted. -/
def Dev.errSum (d : Dev) : Nat := pageBases.foldl (fun n p => n + d.g (F.hdr_ERR_INFO_COUNT p)) 0

/-- Does a page refuse a preset write (18 R492): seen on a copy of the device whose error counts are 0. -/
def presetRefused (o : Otp) (a : Nat) (v : Word) (r : Dev × List Host.Cell) : Bool :=
  let d := pageBases.foldl (fun d p => d.errClr p) r.1
  decide ((bar0Write o a v (d, r.2)).1.errSum ≠ 0)

/-- One preset write, as a host's (18 R492); refused ones are counted. -/
def preset (o : Otp) (r : Dev × List Host.Cell) (e : Nat × Nat) : Dev × List Host.Cell :=
  let v := BitVec.ofNat 32 e.2
  let bad := presetRefused o e.1 v r
  let r := bar0Write o e.1 v r
  if bad then (r.1.bump F.sc_X_PRESET_REJ, r.2) else r

/-- The preset writes in order, with the native write rules, not those of SC-12 mode (18 R493; log 44). -/
def presets (o : Otp) (r : Dev × List Host.Cell) : Dev × List Host.Cell :=
  if !r.1.sc.ok then r
  else
    let r := (scPresets r.1.sc.pers).foldl (preset o) (r.1.p F.sys_SYS_STATE_MODE 0, r.2)
    (r.1.p F.sys_SYS_STATE_MODE 2, r.2)

/-- Calibration of every head is loaded and the device is IDLE (16 R464, 02 R69). -/
def Dev.calLoaded (d : Dev) (nor : Tab Byte) : Dev :=
  (((List.range 48).foldl (fun d h => d.calLoadHead nor h) d).raise calPage 0).goIdle

/-- The security version that the image raises, once the device is IDLE (02 R67). -/
def State.secAdvance (s : State) : State :=
  let o := s.otp.advance s.dev.ctl.image
  { s with otp := o, dev := s.dev.slotView o }

/-- CAL_LOAD_DONE (16 R464, 18 R492). -/
def execCalLoadDone (s : State) : Host.Outcome State Fault Refusal :=
  if !s.dev.isSt .calLoad then .next s
  else
    let d := s.dev.calLoaded s.nor
    let r := if d.scMode then presets s.otp (d.scLoad, s.mem) else (d, s.mem)
    .next (State.secAdvance { s with dev := r.1, mem := r.2 })

end Sys2Proof.Machine
end

