-- ==== Sys2Proof/Machine/Layer.lean ====
section
/-!
DEFINITION. Layers: opening, exposing and closing one (01 R39 to R42, 03 R80 to R82, R539, 06 R213), and the commits of a boundary (02 R56, 01 R38).
-/
namespace Sys2Proof.Machine

/-! ### Commits (02 R56, R57; 01 R38 step 4) -/

/-- Did the commit change a word of a range. -/
def Dev.liveChanged (old d : Dev) (base n : Nat) : Bool := (List.range n).any (fun i => old.liveReg (base + 4 * i) != d.liveReg (base + 4 * i))

/-- A commit that changes a field of the set in force of a loop slot, or of any write of one of a power-loop slot: its states are initialised anew
(04 R128, 07 R251). `done`: the writes committed. -/
def Dev.setsChanged (old : Dev) (done : List WPend) (d : Dev) : Dev :=
  let d := forN 160 (fun s d =>
    let a := (sfi F.slot_SETk_B0 s (d.g (sf F.slot_SLOT_STAT_SET s))).addr
    when (old.liveChanged d a 8) (fun d => d.slotUpd s (fun sl => { sl with reinit := true })) d) d
  forN 56 (fun s d =>
    let a := (pfi F.pl_SETk_TARGET s (d.g (pf F.pl_PL_STAT_SET s))).addr
    when (done.any (fun w => decide (a ≤ w.addr ∧ w.addr < a + 28))) (fun d => d.plUpd s (fun ps => { ps with reinit := true })) d) d

/-- The commits of a boundary with what they start or refuse (06 R200, 08 R266, R271), and the context commits (03 R97). -/
def Dev.commits (d : Dev) (layer : Bool) : Dev :=
  let e := d.commit layer
  let done := d.regs.pend.filter (fun w => !e.regs.pend.contains w)
  let e := if done = [] then e else d.setsChanged done (d.dpcCommit (d.cpCommit (e.flowCheck d)))
  e.ctxCommit layer

/-! ### Opening (R42, R80, R82) -/

/-- A head's stream as its descriptor gives it (03 R78); planning waits for EXPOSE. -/
def Dev.streamOpen (d : Dev) (w : List Nat) (h : Nat) : Dev :=
  let c := nth w (19 + 4 * h) % 256
  d.hdUpd h (fun hd =>
    { hd with addr := nth w (16 + 4 * h) + nth w (17 + 4 * h) * 2 ^ 32, count := nth w (18 + 4 * h), defCtx := c, active := true,
              p := { hd.p with motion := c, done := false } })

/-- A head at layer open: no work of an earlier layer is left, and its counters of the layer are cleared. -/
def Dev.headOpen (d : Dev) (h : Nat) : Dev :=
  let d := d.hdUpd h (fun hd => let c := hd.clear; { c with p := { c.p with ps := 0 }, count := 0, fetched := 0, base := 0, entered := false })
  ((([F.hd_CLIP_COUNT h, F.hd_STRETCH_COUNT h, F.hd_FC_STAT_OOF_COUNT h, F.hd_DROP_COUNT h, F.hd_UNDER_DENSE_COUNT h, F.hd_START_WAITS h,
      F.hd_REVERSAL_COUNT h, F.hd_SPLIT_COUNT h, F.hd_HOLD_COUNT h, F.hd_PD_STAT_SAT_COUNT h].foldl (fun d f => d.p f 0) d)).p
    (F.hd_REC_INDEX h) 0)

/-- A head of the exposure set leaves PARKED for the law it had (04 R136); one that enters FALLBACK reports it (04 R155). -/
def Dev.unpark (d : Dev) (h : Nat) : Dev :=
  forL (d.headSlots h) (fun n d => when (decide (d.mode n = 5)) (fun d =>
    let d := if (d.slot n).lawFb then (d.setMode n 2).raise (loopPage n) 1 else d.setMode n 1
    d.loopSum (n / 16)) d) d

/-- A head of the head mask that is not in the exposure set: its whole stream is handed off from the first record (R82), and HEAD_FAIL is recorded with cause
NOT_IN_SET. One that is still failed keeps its first cause, by which it rejoins (06 R210, R213). -/
def Dev.notInSet (d : Dev) (h : Nat) : Dev :=
  let hd := d.hd h
  let (x, y, f) := if hd.placed then (hd.p.px, hd.p.py, hd.p.pf) else d.startPos h
  let d := d.hdUpd h (fun hd => { hd with p := { hd.p with rx := x, ry := y, rf := f } })
  if !d.on (F.hd_FAIL_FAILED h) then d.headFail h 9 0
  else
    let d := d.hdUpd h (fun hd => { hd with active := false, p := { hd.p with done := true } })
    let r : Reader := { head := h, cause := 9, x := x, y := y, f := f, motion := hd.defCtx, frame := d.time.frame }
    let d := { d with hand := { d.hand with readers := d.hand.readers ++ [r] } }
    d.failRecord h 9 0 { x := x, y := y, f := f } { x := x, y := y, f := f }

/-- May the layer open at this boundary (R42, R80, R88; 12 R377: not while a repair runs). -/
def Dev.mayOpen (d : Dev) : Bool :=
  d.waiting 0x01 && (d.seq.okFrame.any (fun k => decide (k < d.time.frame))) && d.seq.endFrame.isNone && d.ctl.stop.isNone && !d.stopPending
    && !d.on F.seq_LAYER_STAT_OPEN && d.ddr.committed.isEmpty && !d.overruled
    && !(decide (d.ctl.cmd = 4 ∧ d.ctl.cmdFrame < d.time.frame)) && !(d.ctl.resetPend && decide (d.ctl.resetFrame < d.time.frame))
    && decide (d.time.cycle = 0)

/-- A layer opens (R42, R78, R80, R82). -/
def Dev.layerOpen (d : Dev) : Dev :=
  let w := d.seq.desc
  let mask := descHeads w
  let expo := d.exposureSet
  let d := ((((d.p F.seq_LAYER_NUM (nth w 1)).p F.seq_LAYER_STAT_OPEN 1).p F.seq_LAYER_STAT_LAST (nth w 2 % 2)).p F.seq_LAYER_FRAMES 0)
  let d := { d with seq := { d.seq with okFrame := none, badLogged := false, thick := nth w 5, tag := nth w 6, clips := 0, stretches := 0, exposed := false },
                    hand := { d.hand with slots := [], breach := [], expo := expo, items := [], waiting := [], readers := [], spans := [], storeFull := false } }
  let d := (d.p F.ibex_HO_COUNT_HANDOFFS 0).p F.ibex_HO_COUNT_REPAIRS 0
  let d := forN 48 (fun h d => d.headOpen h) d
  let d := forL mask (fun h d => d.streamOpen w h) d
  let d := forL expo (fun h d => d.unpark h) d
  let d := forL (mask.filter (fun h => !expo.contains h)) (fun h d => d.notInSet h) d
  let d := forN 56 (fun n d => d.plUpd n (fun ps => { ps with openLogged := false })) d
  let d := d.raise 0x8000 0 [nth w 1, nth w 6]
  let d := d.dmaFire (fun n => d.g (F.dma_CH_CTRL_TRIG_SRC n) == 4)
  let d := forN 48 (fun h d => d.casRead h) d
  ((d.scOpen).hoStat).pass (d.pc + 1)

/-- OPEN_LAYER (01 R42). -/
def execOpenLayer (s : State) : Host.Outcome State Fault Refusal :=
  onDev (fun d => when d.mayOpen Dev.layerOpen d) s

/-- EXPOSE (03 R84, R539): every head of the mask is placed at rest, and planning begins with plan entry F + 16. DESIGN CHOICE (log 117): one that is taken
again in the same open layer completes with no effect. -/
def execExpose (s : State) : Host.Outcome State Fault Refusal :=
  onDev (fun d => when (d.fresh 0x02) (fun d =>
    let t := (d.time.frame + 16) * frameT
    let d := if d.on F.seq_LAYER_STAT_OPEN && !d.seq.exposed then
        forN 48 (fun h d => when (d.hd h).active (fun d => (d.placeHead h t).fetchRequest h) d) { d with seq := { d.seq with exposed := true, firstEntry := d.time.frame + 16 } }
      else d
    d.complete (d.pc + 1)) d) s

/-! ### The layer boundary (R39 to R41, R81) -/

/-- Have the slots of a head come back from a fault or CURRENT_PARK (04 R144). -/
def Dev.slotsBack (d : Dev) (h : Nat) : Bool := (d.headSlots h).all (fun n => !(d.slot n).faulted && decide (d.mode n ≠ 4 ∧ d.mode n ≠ 6 ∧ d.mode n ≠ 7))

/-- Does a failed head rejoin at this layer boundary (06 R213; 04 R144, 05 R188, 09 R309). -/
def Dev.rejoins (d : Dev) (h : Nat) : Bool :=
  match d.g (F.hd_FAIL_CAUSE h) with
  | 1 | 2 | 3 => d.slotsBack h
  | 4 => d.laneSt h == 3 && !(d.lane h).changed && d.slotsBack h && d.servoFit h && d.fireFit h
  | 6 => decide (d.g (F.hd_CAS_STAT_STATE h) = 2) && !(d.hd h).cas.failed && d.slotsBack h
  | _ => (d.hd h).rejoinReq && d.servoFit h && d.fireFit h

/-- Failed heads that meet their conditions rejoin. -/
def Dev.rejoinStep (d : Dev) : Dev :=
  forN 48 (fun h d => when (d.on (F.hd_FAIL_FAILED h) && d.rejoins h) (fun d =>
    (((d.p (F.hd_FAIL_FAILED h) 0).p (F.hd_FAIL_CAUSE h) 0).p (failedFld h) 0).hdUpd h (fun hd => { hd with rejoinReq := false })) d) d

/-- Is this the layer boundary (R39), always cycle 0 of a frame; the sequencer took the layer-close entry in an earlier frame; in SC-12 mode no channel
runs any more (18 R499). -/
def Dev.atLayerEnd (d : Dev) : Bool :=
  decide (d.time.cycle = 0 ∧ d.seq.takenFrame < d.time.frame) && d.waiting 0x03 && d.on F.seq_LAYER_STAT_OPEN && d.ctl.stop.isNone && d.layerExposed
    && (!d.scMode || (List.range 12).all (fun c => d.g (F.scc_CH_STATE c) != 2))

/-- What commits at a layer boundary, in the order of R38: reversion with the words of the units, remaps, layer-shadowed and frame-shadowed fields and
contexts, calibration, row repair. -/
def Dev.layerCommits (d : Dev) (nor : Tab Byte) : Dev :=
  let due := d.ctl.commitDue
  let d := { d with ctl := { d.ctl with commitDue := false } }
  let d := (((d.revertStep).remapCommit).commits true).loopSums.plSums
  ((when due Dev.ffAll d).calLayer nor).pprCommit

/-- The descriptor of the layer that closes is written back, its READY last (R81). -/
def closeDesc (r : Dev × List Host.Cell) : Dev × List Host.Cell :=
  let d := r.1
  let a := d.lqAddr (d.g F.seq_LQ_RD)
  let r := dramWrite 0 (a + 0x20) (leBytes 4 (d.g F.seq_LAYER_FRAMES) ++ leBytes 4 d.seq.clips ++ leBytes 4 d.seq.stretches ++ leBytes 4 1) r
  let r := dramWrite 0 a (leBytes 4 0) r
  (r.1.p F.seq_LQ_RD ((r.1.g F.seq_LQ_RD + 1) % max 1 (r.1.g F.seq_LQ_ENTRIES)), r.2)

/-- Spans in progress end with the layer (03 R109, 05 R169, R175). -/
def Dev.spansEnd (d : Dev) : Dev := forN 48 (fun h d => ((d.closeReversal h d.time.frame).endClip h (d.time.frame * frameT)).flushDense h) d

/-- The layer closes and the sequencer goes on, or with a STOP pending the run ends (R71, R81): with the job where END is the next entry, and nothing
is saved then (R72). DESIGN CHOICE (log 115): that END is not taken, so that no JOB_END is raised. -/
def Dev.layerClose (d : Dev) : Dev :=
  let d := (d.p F.seq_LAYER_STAT_OPEN 0).raise 0x8000 1 [d.g F.seq_LAYER_NUM, d.seq.tag]
  let d := { d with seq := { d.seq with closedSince := true, closedLast := d.on F.seq_LAYER_STAT_LAST, exposed := false }, hand := { d.hand with expo := [] },
                    units := { d.units with healthDue := true } }
  let d := forN 48 (fun h d => d.hdUpd h (fun hd => { hd with active := false })) d
  let d := forN 48 (fun h d => d.casWrite h) d.rejoinStep
  let d := (d.dmaFire (fun n => d.g (F.dma_CH_CTRL_TRIG_SRC n) == 5)).scInstall
  let n := d.pc + 1
  let atEnd : Bool := d.entOp n == 0x0D
  if d.stopPending && !d.overruled then when (!atEnd) (fun d => d.p F.seq_RESUME_ENTRY n) d |>.runEnds !atEnd else d.pass n

/-- The LE commands of heads that rejoin at this layer boundary rise at the isolated die with it (17 R482), where the frame's command frame came. -/
def Iso.leRise (x : Iso) (old d : Dev) : Iso :=
  let up := bitsOf 48 (fun h => old.on (F.hd_FAIL_FAILED h) && !d.on (F.hd_FAIL_FAILED h) && d.leCommand h)
  if up = 0 ∨ x.missed ≠ 0 then x
  else { x with st := { x.st with leCmd := x.st.leCmd ||| up }, rep := { x.rep with leCmd := x.rep.leCmd ||| up } }

/-- LAYER_BOUNDARY (01 R39). -/
def execLayerBoundary (s : State) : Host.Outcome State Fault Refusal :=
  if s.dev.atLayerEnd then
    let r := closeDesc ((s.dev.layerCommits s.nor).spansEnd, s.mem)
    let d := r.1.layerClose
    .next { s with dev := d, mem := r.2, iso := s.iso.leRise s.dev d }
  else .next s

end Sys2Proof.Machine
end

