-- ==== Sys2Proof/Machine/Frame.lean ====
section
/-!
DEFINITION. The link frame (01 R35 to R38): what a frame computes before its end, and what its boundary brings. Commands that take effect at a boundary under
a condition of their own follow the boundary in the queue (log 3).
-/
namespace Sys2Proof.Machine

/-! ### Planning in a frame (03 R101, R102; 05 R178; 06 R219) -/

/-- Is own work planned behind a laser-off boundary that plan entry `f + 3` or a later one holds (R102). -/
def Head.ownBehind (hd : Head) (f : Nat) (c : PState) : Bool :=
  c.start.isNone && decide ((f + 3) * frameT ≤ c.pt) &&
    match hd.segs.find? (fun g => decide (c.pt ≤ g.t0)) with
    | some g => g.who.item.isNone
    | none => hd.p.start.any (fun s => s.2.1.item.isNone)

/-- The laser-off boundary at which a head takes items that came after its plan was made (06 R219): the first remembered one, when own work is planned
behind it. -/
def Dev.insertAt (d : Dev) (h f : Nat) : Option PState :=
  let hd := d.hd h
  hd.cps.find? (fun c => decide (c.pv = 0) && !(d.itemsFor h (!hd.active || c.done)).isEmpty && hd.ownBehind f c)

/-- The boundary at which a head pauses whose repair item finds no entry in the store (06 R217). -/
def Dev.stuckAt (d : Dev) (h f : Nat) : Option PState :=
  if d.hand.spans.any (fun e => e.1 == h) then (d.hd h).cps.find? ((d.hd h).ownBehind f) else none

/-- A head that waits at rest with items takes them from plan entry `f + 3` on, and not before the layer's first entry with motion (03 R539); one without a plan position is placed for them (03 R539). -/
def Dev.itemsAtRest (d : Dev) (h f : Nat) : Dev :=
  let hd := d.hd h
  let t := max (f + 3) d.seq.firstEntry * frameT
  if (d.itemsFor h (!hd.active || hd.p.done)).isEmpty || hd.p.start.isSome || hd.p.chain.isSome || decide (hd.p.pv ≠ 0) then d
  else if hd.placed then d.hdUpd h (fun hd => hd.restUntil t)
  else if d.on (F.hd_FAIL_FAILED h) then d
  else d.placeHead h t

/-- The plan of a head goes on to plan entry `f + 16`; one whose cassette is exhausted gets no more vectors (05 R190). -/
def Dev.planMore (d : Dev) (h f : Nat) : Dev :=
  if d.on (F.hd_IBEX_STAT_HELD h) then d
  else if (d.hd h).failPend == some 6 then when (d.hd h).p.out.isSome (fun d => d.hdUpd h Head.finishOut) d
  else
    let r := d.planRun h f false 80 (d.hd h, [])
    if r.1 = d.hd h ∧ r.2 = [] then d else Dev.planReport { d with heads := Tab.set {} d.heads h r.1 } h r.2

/-- A head in frame `f` before the starts are granted. -/
def Dev.planHead (d : Dev) (h f : Nat) : Dev :=
  if d.on (F.hd_IBEX_STAT_HELD h) || (d.hd h).failPend == some 6 then d
  else
    let d := match (d.stuckAt h f).or (d.insertAt h f) with
      | some cp => (d.returnGrants h cp.pt).cutPlan h cp
      | none => d
    (d.itemsAtRest h f).planMore h f

/-- All heads: plans are extended, starts granted and the plans behind them extended, at most 4 records in a plan frame (03 R94). -/
def Dev.planAll (d : Dev) (f : Nat) : Dev :=
  let d := forN 48 (fun h d => d.planHead h f) d
  let d := forN 4 (fun _ d => forN 48 (fun h d => d.planMore h f) (d.serveStarts f)) d
  forN 48 (fun h d => d.fetchRequest h) d

/-- Is a layer being exposed in this frame. -/
def Dev.live (d : Dev) : Bool := d.on F.seq_LAYER_STAT_OPEN && d.seq.exposed && d.ctl.stop.isNone && d.armedOrRunning

/-- What is kept behind the plan: pieces that open spans, following-error runs, coasts and missing frames still need. -/
def Dev.keepTimes (d : Dev) (h : Nat) : List Nat :=
  (d.hand.spans.filter (fun e => e.1 == h)).map (·.2.t0)
    ++ (d.headSlots h).flatMap (fun s =>
        (if d.on (sf F.slot_SLOT_STAT_FE_COUNT s) then [(d.slot s).feStart * frameT] else []) ++ (if d.mode s = 3 then [(d.slot s).coastStart * frameT] else []) ++ (if d.mode s = 4 then [d.parkDark s] else []))
    ++ (if (d.lane h).missing = 0 then [] else [(d.lane h).missFrame * frameT])
    ++ (if (d.hd h).failPend.isSome then [(d.hd h).failT] else [])

/-! ### The frame up to its end (01 R37) -/

/-- Trace bursts accepted by the memory controller reach DRAM (04 R149); one that a repair delays is dropped (12 R377). -/
def traceFlush (r : Dev × List Host.Cell) : Dev × List Host.Cell :=
  let q := r.1.traceQ
  q.foldl (fun r e =>
    let bs := e.2.2.flatMap (fun w => leBytes 4 w)
    if (burstsOf e.2.1 bs.length).any (fun k => r.1.repairing (burstSc k)) then (r.1.traceDrop e.1, r.2)
    else dramWrite 0 e.2.1 bs r) ({ r.1 with traceQ := [] }, r.2)

/-- The layer queue is polled while the sequencer is in its layer-wait step (03 R80), not while a repair runs (12 R377). -/
def Dev.lqStep (d : Dev) (m : List Host.Cell) : Dev :=
  if d.waiting 0x01 && !d.on F.seq_LAYER_STAT_OPEN && d.seq.endFrame.isNone && d.ddr.committed.isEmpty then
    let a := d.lqAddr (d.g F.seq_LQ_RD)
    let (bad, d) := d.dramRead 0 a 1024
    d.lqPoll (if bad then none else some ((List.range 256).map (fun i => mem32 m (a + 4 * i))))
  else d

/-- The real-time computation of frame `f` on the upstream frames received in it: plans, servo, Ibex, edges, power. -/
def Dev.realTime (d : Dev) (m : List Host.Cell) (f : Nat) : Dev :=
  let d := forN 48 (fun h d => d.usClose h) d
  let d := forN 48 (fun h d => d.gateEval h f) d
  let d := forN 48 (fun h d => d.holdCut h) d
  let d := when d.live (fun d => (d.handStep m f).planAll f) d
  let d := (forN 48 (fun h d => d.headServo h f) d).spareFrames
  let d := d.ibexStep f
  let d := forN 48 (fun h d => d.placeEdges h f) d
  let d := (forN 56 (fun s d => d.plSlot s f) d).plSums
  let d := forN 48 (fun h d => ((d.firePower h f).dutyStep h f)) d
  let d := d.groupStep.loopSums
  let d := forN 48 (fun h d => when (decide ((d.hd h).cas.serial ≠ 0)) (fun d => d.casShow h) d) d
  forN 48 (fun h d =>
    let d := (d.stretchStep h f).planStat h f
    d.hdUpd h (fun hd => hd.prune f (d.keepTimes h))) d

/-- What a frame may read of DRAM: the records of the handoff engine, and the layer queue's entry; while a repair runs these wait. -/
def Dev.frameReads (d : Dev) : List (Nat × Nat) :=
  if !d.ddr.committed.isEmpty then []
  else d.hand.readers.map (fun r => ((d.hd r.head).addr + 32 * r.next, 32 * (d.v F.ibex_HO_CTRL_RATE + 1)))
    ++ (if d.waiting 0x01 then [(d.lqAddr (d.g F.seq_LQ_RD), 1024)] else [])

/-- Frame `f` to its end: the real-time computation, the layer queue, the downstream frames, the units' checks, their bleats (R37), and whether the
units' outputs diverged. -/
def frameEnd (check : FrameCheck) (r : Dev × List Host.Cell) : (Dev × Bool) × List Host.Cell :=
  let r := (List.range 7).foldl (fun r p => recDrain p r) (traceFlush r)
  let r := dramTurns r.1.frameReads r
  let f := r.1.time.frame
  let d := ((r.1.gridErrors check.nodes).realTime r.2 f).lqStep r.2
  let d := forN 48 (fun h d => d.dsFrame h f) d
  let c := d.unitChecks check
  ((c.1.sendBleats, c.2), r.2)

/-! ### The boundary (01 R37, R38) -/

/-- The sequencer at cycle 16 (03 R84, R85, R88): a run that ended enters ARMED; LAYER_CLOSE with no layer open completes; the next entry is taken. -/
def Dev.seqStep (d : Dev) : Dev :=
  let f := d.time.frame
  let due := d.overruled || decide (d.ctl.cmd = 4 ∧ d.ctl.cmdFrame < f) || (d.ctl.resetPend && decide (d.ctl.resetFrame < f))
  if !d.isSt .running || d.ctl.stop.isSome || due then d
  else match d.seq.endFrame with
    | some k => if k < f then d.runEnds d.seq.endIsStop else d
    | none =>
      if d.seq.done then d.take d.seq.next
      else if d.waiting 0x03 && !d.on F.seq_LAYER_STAT_OPEN && decide (d.seq.takenFrame < f) then d.pass (d.pc + 1)
      else d

/-- The frame's counts: frames of the layer, the last lit frame, the host watchdog, the controlled stop, and what a lane received. -/
def Dev.frameCounts (d : Dev) : Dev :=
  let f := d.time.frame
  let d := when (d.on F.seq_LAYER_STAT_OPEN) (fun d => d.bump F.seq_LAYER_FRAMES) d
  let d := when ((List.range 48).any (fun h => (d.hd h).litIn f)) (fun d => { d with hand := { d.hand with lastLit := f } }) d
  let d := when d.ctl.stop.isSome (fun d => { d with ctl := { d.ctl with stopLeft := d.ctl.stopLeft - 1 } }) d.wdogFrame
  forN 48 (fun h d => if (d.lane h).got || (d.lane h).missed || (d.lane h).trained then d.laneUpd h (fun q => { q with got := false, missed := false, trained := false }) else d) d

/-- The commits of a frame boundary (02 R57). At a layer boundary they wait for what that boundary brings before them (R38 steps 3 and 4), which
LAYER_BOUNDARY does; they wait once only. -/
def Dev.frameCommits (d : Dev) : Dev :=
  let wait := d.atLayerEnd && !d.ctl.commitDue
  let d := { d with ctl := { d.ctl with commitDue := wait } }
  if wait then d else (d.commits false).ffAll

/-- Boundary `f + 1` in the order of R38: time, unit states, reconciled words, commits, tile edit, parking, holds and releases, the sequencer. -/
def Dev.boundary (d : Dev) (diverged : Bool) (f : Nat) : Dev :=
  let d := d.tick (1250 - d.time.cycle)
  let d := { d with time := { d.time with frame := f + 1, cycle := 0 } }
  let d := ((d.timeBoundary).unitBoundary diverged).reconcile
  let d := ((d.crossing).ctxCrossing).frameCommits
  let d := d.tileCommit
  let d := d.parkStep
  let d := (d.holdStep f).frameCounts
  let d := d.dmaFire (fun n => d.g (F.dma_CH_CTRL_TRIG_SRC n) == 3 && decide ((f + 1) % max 1 (d.g (F.dma_FRAME_DIV n)) = 0))
  let d := d.seqStep.scFrame
  { d with time := { d.time with frame := f + 1, cycle := 0 } }

/-- The barrier link in the frame that ends (17 R475, R476): its command frame, and a report that did not come. -/
def linkEnd (cmdOk : Bool) (r : Dev × Iso) : Dev × Iso :=
  let r := isoCommand cmdOk r.1 r.2
  (r.1.reportMissing, r.2)

/-- FRAME_BOUNDARY (01 R37): the frame in progress ends and the next one begins. `cmdOk`: the command frame reached the isolated die; `check`: what the
units' own checks and comparison found. -/
def execFrameBoundary (cmdOk : Bool) (check : FrameCheck) (s : State) : Host.Outcome State Fault Refusal :=
  if !s.dev.ctl.pllLocked then .next s
  else
    let r := frameEnd check (s.dev, s.mem)
    let l := linkEnd cmdOk (r.1.1, s.iso)
    .next { s with dev := (l.1.boundary r.1.2 s.dev.time.frame).calIdle s.nor, mem := r.2, iso := l.2.sample }

end Sys2Proof.Machine
end

