-- ==== Sys2Proof/Machine/Dispatch.lean ====
section
/-!
DEFINITION. One arm per command: each calls its meaning.
-/
namespace Sys2Proof.Machine

/-- What a command does to everything but the queue. -/
def exec (i : Instr) (s : State) : Host.Outcome State Fault Refusal :=
  match i with
  | .powerOnReset => Sys2Proof.Machine.execPowerOnReset s
  | .brownOut => Sys2Proof.Machine.execBrownOut s
  | .pllLock => Sys2Proof.Machine.execPllLock s
  | .romSelfTestDone unit fails => Sys2Proof.Machine.execRomSelfTestDone unit fails s
  | .ddrTrainingDone ok density rfmReq raaimt res => Sys2Proof.Machine.execDdrTrainingDone ok density rfmReq raaimt res s
  | .dramZeroDone => Sys2Proof.Machine.execDramZeroDone s
  | .pprHardenDone => Sys2Proof.Machine.execPprHardenDone s
  | .devReset val => Sys2Proof.Machine.execDevReset val s
  | .controlledStop => Sys2Proof.Machine.execControlledStop s
  | .controlledStopEnd => Sys2Proof.Machine.execControlledStopEnd s
  | .pcieLinkDown => Sys2Proof.Machine.execPcieLinkDown s
  | .pcieLinkUp width speed => Sys2Proof.Machine.execPcieLinkUp width speed s
  | .msixEnable fnMask => Sys2Proof.Machine.execMsixEnable fnMask s
  | .msixUnmask vector => Sys2Proof.Machine.execMsixUnmask vector s
  | .d3hotEntry => Sys2Proof.Machine.execD3hotEntry s
  | .d0Return => Sys2Proof.Machine.execD0Return s
  | .badAccess addr write len => Sys2Proof.Machine.execBadAccess addr write len s
  | .bar2Write ofs data => Sys2Proof.Machine.execBar2Write ofs data s
  | .bar2Read ofs len => Sys2Proof.Machine.execBar2Read ofs len s
  | .registerWrite addr val => Sys2Proof.Machine.execRegisterWrite addr val s
  | .errClr page val => Sys2Proof.Machine.execErrClr page val s
  | .softReset page val => Sys2Proof.Machine.execSoftReset page val s
  | .pageLock page val => Sys2Proof.Machine.execPageLock page val s
  | .pageEnable page val => Sys2Proof.Machine.execPageEnable page val s
  | .evtForce page val => Sys2Proof.Machine.execEvtForce page val s
  | .evtRawClear page val => Sys2Proof.Machine.execEvtRawClear page val s
  | .evtEnWrite page val => Sys2Proof.Machine.execEvtEnWrite page val s
  | .shadowPointWrite page val => Sys2Proof.Machine.execShadowPointWrite page val s
  | .shadowRelease val => Sys2Proof.Machine.execShadowRelease val s
  | .holdoffExpire vector => Sys2Proof.Machine.execHoldoffExpire vector s
  | .imgGo val => Sys2Proof.Machine.execImgGo val s
  | .imageVerifyDone => Sys2Proof.Machine.execImageVerifyDone s
  | .calLoadDone => Sys2Proof.Machine.execCalLoadDone s
  | .enroll val => Sys2Proof.Machine.execEnroll val s
  | .revoke val => Sys2Proof.Machine.execRevoke val s
  | .enrollDone => Sys2Proof.Machine.execEnrollDone s
  | .arm val => Sys2Proof.Machine.execArm val s
  | .start val => Sys2Proof.Machine.execStart val s
  | .stop val => Sys2Proof.Machine.execStop val s
  | .abort val => Sys2Proof.Machine.execAbort val s
  | .disarm val => Sys2Proof.Machine.execDisarm val s
  | .sysCmdEffect => Sys2Proof.Machine.execSysCmdEffect s
  | .hostKick val => Sys2Proof.Machine.execHostKick val s
  | .hostWdogWrite val => Sys2Proof.Machine.execHostWdogWrite val s
  | .wdog => Sys2Proof.Machine.execWdog s
  | .faultLatchEntry => Sys2Proof.Machine.execFaultLatchEntry s
  | .mpLockstep => Sys2Proof.Machine.execMpLockstep s
  | .isoLost => Sys2Proof.Machine.execIsoLost s
  | .frameBoundary cmdOk check => Sys2Proof.Machine.execFrameBoundary cmdOk check s
  | .openLayer => Sys2Proof.Machine.execOpenLayer s
  | .layerBoundary => Sys2Proof.Machine.execLayerBoundary s
  | .nop => Sys2Proof.Machine.execNop s
  | .layerOpen => Sys2Proof.Machine.execLayerOpen s
  | .expose => Sys2Proof.Machine.execExpose s
  | .layerClose => Sys2Proof.Machine.execLayerClose s
  | .auxStart => Sys2Proof.Machine.execAuxStart s
  | .auxWait => Sys2Proof.Machine.execAuxWait s
  | .delay => Sys2Proof.Machine.execDelay s
  | .delayDone => Sys2Proof.Machine.execDelayDone s
  | .outSet => Sys2Proof.Machine.execOutSet s
  | .inWait => Sys2Proof.Machine.execInWait s
  | .waitEntryDone => Sys2Proof.Machine.execWaitEntryDone s
  | .event => Sys2Proof.Machine.execEvent s
  | .jump => Sys2Proof.Machine.execJump s
  | .brMore => Sys2Proof.Machine.execBrMore s
  | .brResumed => Sys2Proof.Machine.execBrResumed s
  | .endEntry => Sys2Proof.Machine.execEndEntry s
  | .stall => Sys2Proof.Machine.execStall s
  | .continueEntry val => Sys2Proof.Machine.execContinueEntry val s
  | .contextWindowWrite ofs val => Sys2Proof.Machine.execContextWindowWrite ofs val s
  | .seqTableWrite ofs val => Sys2Proof.Machine.execSeqTableWrite ofs val s
  | .ctxCommit val => Sys2Proof.Machine.execCtxCommit val s
  | .tblCheck val => Sys2Proof.Machine.execTblCheck val s
  | .lqReset val => Sys2Proof.Machine.execLqReset val s
  | .streamRetry head val => Sys2Proof.Machine.execStreamRetry head val s
  | .recordFetchDone head => Sys2Proof.Machine.execRecordFetchDone head s
  | .streamResume head => Sys2Proof.Machine.execStreamResume head s
  | .satLimitReached slot => Sys2Proof.Machine.execSatLimitReached slot s
  | .coastExpire slot => Sys2Proof.Machine.execCoastExpire slot s
  | .recovered slot => Sys2Proof.Machine.execRecovered slot s
  | .feFault slot => Sys2Proof.Machine.execFeFault slot s
  | .parkReq head val => Sys2Proof.Machine.execParkReq head val s
  | .parked slot => Sys2Proof.Machine.execParked slot s
  | .parkTimeout slot => Sys2Proof.Machine.execParkTimeout slot s
  | .servoRestart head val => Sys2Proof.Machine.execServoRestart head val s
  | .servoHoldQualified head => Sys2Proof.Machine.execServoHoldQualified head s
  | .fcGridWrite ofs val => Sys2Proof.Machine.execFcGridWrite ofs val s
  | .fcAccept head val => Sys2Proof.Machine.execFcAccept head val s
  | .traceArm page val => Sys2Proof.Machine.execTraceArm page val s
  | .traceForce page val => Sys2Proof.Machine.execTraceForce page val s
  | .traceDone slot => Sys2Proof.Machine.execTraceDone slot s
  | .traceGap slot => Sys2Proof.Machine.execTraceGap slot s
  | .dropFail head => Sys2Proof.Machine.execDropFail head s
  | .casKeyWrite word val => Sys2Proof.Machine.execCasKeyWrite word val s
  | .casReread head val => Sys2Proof.Machine.execCasReread head val s
  | .casStepReached head => Sys2Proof.Machine.execCasStepReached head s
  | .casWriteFail head => Sys2Proof.Machine.execCasWriteFail head s
  | .casExhausted head => Sys2Proof.Machine.execCasExhausted head s
  | .holdLong head => Sys2Proof.Machine.execHoldLong head s
  | .tileMapWrite ofs val => Sys2Proof.Machine.execTileMapWrite ofs val s
  | .tileEditCmd val => Sys2Proof.Machine.execTileEditCmd val s
  | .headFail head => Sys2Proof.Machine.execHeadFail head s
  | .failReq val => Sys2Proof.Machine.execFailReq val s
  | .rejoin head val => Sys2Proof.Machine.execRejoin head val s
  | .storeResume => Sys2Proof.Machine.execStoreResume s
  | .pin slot => Sys2Proof.Machine.execPin slot s
  | .ffStale slot => Sys2Proof.Machine.execFfStale slot s
  | .frameStart port => Sys2Proof.Machine.execFrameStart port s
  | .cameraLine port pixels => Sys2Proof.Machine.execCameraLine port pixels s
  | .frameEnd port => Sys2Proof.Machine.execFrameEnd port s
  | .frameTimeout port => Sys2Proof.Machine.execFrameTimeout port s
  | .pclkLost port => Sys2Proof.Machine.execPclkLost port s
  | .vmFrameTake pipe => Sys2Proof.Machine.execVmFrameTake pipe s
  | .ringSlotClaim pipe => Sys2Proof.Machine.execRingSlotClaim pipe s
  | .featureRecordComplete pipe => Sys2Proof.Machine.execFeatureRecordComplete pipe s
  | .pipelineFail pipe cause => Sys2Proof.Machine.execPipelineFail pipe cause s
  | .dpcLoaded pipe source => Sys2Proof.Machine.execDpcLoaded pipe source s
  | .cntClear addr val => Sys2Proof.Machine.execCntClear addr val s
  | .usFrameRx head start groups rtd => Sys2Proof.Machine.execUsFrameRx head start groups rtd s
  | .usFrameMissing head => Sys2Proof.Machine.execUsFrameMissing head s
  | .ackRx head slot => Sys2Proof.Machine.execAckRx head slot s
  | .capDataRx head slot => Sys2Proof.Machine.execCapDataRx head slot s
  | .casRecordRx head slot => Sys2Proof.Machine.execCasRecordRx head slot s
  | .casChangeRx head slot => Sys2Proof.Machine.execCasChangeRx head slot s
  | .hostMsgRx head slot => Sys2Proof.Machine.execHostMsgRx head slot s
  | .unknownMsgRx head slot => Sys2Proof.Machine.execUnknownMsgRx head slot s
  | .mgmtRetry head => Sys2Proof.Machine.execMgmtRetry head s
  | .msgTxGo head val => Sys2Proof.Machine.execMsgTxGo head val s
  | .msgRxFree head val => Sys2Proof.Machine.execMsgRxFree head val s
  | .laneEn head val => Sys2Proof.Machine.execLaneEn head val s
  | .retrain head val => Sys2Proof.Machine.execRetrain head val s
  | .trainingDone head => Sys2Proof.Machine.execTrainingDone head s
  | .trainTimeout head => Sys2Proof.Machine.execTrainTimeout head s
  | .capTimeout head => Sys2Proof.Machine.execCapTimeout head s
  | .laneLost head => Sys2Proof.Machine.execLaneLost head s
  | .lostIdleEnd head => Sys2Proof.Machine.execLostIdleEnd head s
  | .linkAccept head val => Sys2Proof.Machine.execLinkAccept head val s
  | .auxTick => Sys2Proof.Machine.execAuxTick s
  | .bridgeFrameRx port start groups => Sys2Proof.Machine.execBridgeFrameRx port start groups s
  | .bridgeFrameMissing port => Sys2Proof.Machine.execBridgeFrameMissing port s
  | .portUp port => Sys2Proof.Machine.execPortUp port s
  | .portLost port => Sys2Proof.Machine.execPortLost port s
  | .portResync port => Sys2Proof.Machine.execPortResync port s
  | .move axis val => Sys2Proof.Machine.execMove axis val s
  | .home axis val => Sys2Proof.Machine.execHome axis val s
  | .axStop axis val => Sys2Proof.Machine.execAxStop axis val s
  | .clearErr axis val => Sys2Proof.Machine.execClearErr axis val s
  | .moveDone axis => Sys2Proof.Machine.execMoveDone axis s
  | .stopAtRest axis => Sys2Proof.Machine.execStopAtRest axis s
  | .limitRelease axis side => Sys2Proof.Machine.execLimitRelease axis side s
  | .inputLost axis => Sys2Proof.Machine.execInputLost axis s
  | .axisStall axis => Sys2Proof.Machine.execAxisStall axis s
  | .standbyEntry axis => Sys2Proof.Machine.execStandbyEntry axis s
  | .homeAtRest axis => Sys2Proof.Machine.execHomeAtRest axis s
  | .homeBackOffDone axis => Sys2Proof.Machine.execHomeBackOffDone axis s
  | .homeQualifiedEdge axis => Sys2Proof.Machine.execHomeQualifiedEdge axis s
  | .homeZero axis => Sys2Proof.Machine.execHomeZero axis s
  | .switchUnstable axis => Sys2Proof.Machine.execSwitchUnstable axis s
  | .homeMaxdist axis => Sys2Proof.Machine.execHomeMaxdist axis s
  | .matrixFrameStart => Sys2Proof.Machine.execMatrixFrameStart s
  | .rowSlotStart blankNs sinkUa sinkMv => Sys2Proof.Machine.execRowSlotStart blankNs sinkUa sinkMv s
  | .diagUnavailable led => Sys2Proof.Machine.execDiagUnavailable led s
  | .ledFrameWrite ofs val => Sys2Proof.Machine.execLedFrameWrite ofs val s
  | .ledArm val => Sys2Proof.Machine.execLedArm val s
  | .ledDisarm val => Sys2Proof.Machine.execLedDisarm val s
  | .syncEdge active count => Sys2Proof.Machine.execSyncEdge active count s
  | .lampTempMeasure temp => Sys2Proof.Machine.execLampTempMeasure temp s
  | .diagClear val => Sys2Proof.Machine.execDiagClear val s
  | .dramRequest addr len cls trace wr => Sys2Proof.Machine.execDramRequest addr len cls trace wr s
  | .dramReadDone sc syms => Sys2Proof.Machine.execDramReadDone sc syms s
  | .devMarked sc => Sys2Proof.Machine.execDevMarked sc s
  | .dramWrite sc => Sys2Proof.Machine.execDramWrite sc s
  | .refreshDue sc hot => Sys2Proof.Machine.execRefreshDue sc hot s
  | .owedRefresh sc => Sys2Proof.Machine.execOwedRefresh sc s
  | .rfm sc bank => Sys2Proof.Machine.execRfm sc bank s
  | .powerDownEntry sc => Sys2Proof.Machine.execPowerDownEntry sc s
  | .scrubStep syms counts => Sys2Proof.Machine.execScrubStep syms counts s
  | .pprRepairDone => Sys2Proof.Machine.execPprRepairDone s
  | .harden val => Sys2Proof.Machine.execHarden val s
  | .clearPending val => Sys2Proof.Machine.execClearPending val s
  | .dmaStart chan val => Sys2Proof.Machine.execDmaStart chan val s
  | .dmaStop chan val => Sys2Proof.Machine.execDmaStop chan val s
  | .resume chan val => Sys2Proof.Machine.execResume chan val s
  | .skip chan val => Sys2Proof.Machine.execSkip chan val s
  | .descriptorFetchDone chan => Sys2Proof.Machine.execDescriptorFetchDone chan s
  | .descriptorComplete chan => Sys2Proof.Machine.execDescriptorComplete chan s
  | .linkReadDone chan => Sys2Proof.Machine.execLinkReadDone chan s
  | .dmaTrigger chan => Sys2Proof.Machine.execDmaTrigger chan s
  | .dmaTimer chan => Sys2Proof.Machine.execDmaTimer chan s
  | .doorbell chan val => Sys2Proof.Machine.execDoorbell chan val s
  | .katPassDone unit fails => Sys2Proof.Machine.execKatPassDone unit fails s
  | .sramPatrolRead owner array row result last => Sys2Proof.Machine.execSramPatrolRead owner array row result last s
  | .directedPassDone failsA failsB => Sys2Proof.Machine.execDirectedPassDone failsA failsB s
  | .bleatRx unit path word => Sys2Proof.Machine.execBleatRx unit path word s
  | .bleatMissed unit path => Sys2Proof.Machine.execBleatMissed unit path s
  | .pathFault path => Sys2Proof.Machine.execPathFault path s
  | .pathOk path => Sys2Proof.Machine.execPathOk path s
  | .takeoverClaim => Sys2Proof.Machine.execTakeoverClaim s
  | .failover => Sys2Proof.Machine.execFailover s
  | .recoveryStart unit => Sys2Proof.Machine.execRecoveryStart unit s
  | .recoveryPassDone unit fails => Sys2Proof.Machine.execRecoveryPassDone unit fails s
  | .recoveryRetry unit => Sys2Proof.Machine.execRecoveryRetry unit s
  | .stateCopyDone unit => Sys2Proof.Machine.execStateCopyDone unit s
  | .unitStandby unit => Sys2Proof.Machine.execUnitStandby unit s
  | .dwellEnd => Sys2Proof.Machine.execDwellEnd s
  | .revDefer val => Sys2Proof.Machine.execRevDefer val s
  | .directedPass val => Sys2Proof.Machine.execDirectedPass val s
  | .retry val => Sys2Proof.Machine.execRetry val s
  | .clearCounters val => Sys2Proof.Machine.execClearCounters val s
  | .spareRowReady entry => Sys2Proof.Machine.execSpareRowReady entry s
  | .remapGo val => Sys2Proof.Machine.execRemapGo val s
  | .remapReq val => Sys2Proof.Machine.execRemapReq val s
  | .health => Sys2Proof.Machine.execHealth s
  | .timeIncCommit val => Sys2Proof.Machine.execTimeIncCommit val s
  | .set val => Sys2Proof.Machine.execSet val s
  | .add val => Sys2Proof.Machine.execAdd val s
  | .capture val => Sys2Proof.Machine.execCapture val s
  | .captureBoundary val => Sys2Proof.Machine.execCaptureBoundary val s
  | .tcmpArm unit val => Sys2Proof.Machine.execTcmpArm unit val s
  | .tcmpFire unit => Sys2Proof.Machine.execTcmpFire unit s
  | .ethRxFrame port frame fcs runt => Sys2Proof.Machine.execEthRxFrame port frame fcs runt s
  | .txWrWrite port val => Sys2Proof.Machine.execTxWrWrite port val s
  | .ethTxDone port => Sys2Proof.Machine.execEthTxDone port s
  | .rxRdWrite port val => Sys2Proof.Machine.execRxRdWrite port val s
  | .ethLinkChange port up => Sys2Proof.Machine.execEthLinkChange port up s
  | .mdioCmd val => Sys2Proof.Machine.execMdioCmd val s
  | .mdioDone data => Sys2Proof.Machine.execMdioDone data s
  | .evrWrite => Sys2Proof.Machine.execEvrWrite s
  | .snap val => Sys2Proof.Machine.execSnap val s
  | .hkConversion value raw => Sys2Proof.Machine.execHkConversion value raw s
  | .supply chan => Sys2Proof.Machine.execSupply chan s
  | .thermLevelChange => Sys2Proof.Machine.execThermLevelChange s
  | .sensorBrokenLong => Sys2Proof.Machine.execSensorBrokenLong s
  | .throttleStep => Sys2Proof.Machine.execThrottleStep s
  | .thresholdWrite which val => Sys2Proof.Machine.execThresholdWrite which val s
  | .runStart val => Sys2Proof.Machine.execRunStart val s
  | .runSubmit val => Sys2Proof.Machine.execRunSubmit val s
  | .calRecordWritten readBack => Sys2Proof.Machine.execCalRecordWritten readBack s
  | .runCancel val => Sys2Proof.Machine.execRunCancel val s
  | .reload val => Sys2Proof.Machine.execReload val s
  | .loadDone => Sys2Proof.Machine.execLoadDone s
  | .acceptSerial val => Sys2Proof.Machine.execAcceptSerial val s
  | .norRead val => Sys2Proof.Machine.execNorRead val s
  | .norProgram val => Sys2Proof.Machine.execNorProgram val s
  | .norErase val => Sys2Proof.Machine.execNorErase val s
  | .norDone => Sys2Proof.Machine.execNorDone s
  | .isoReportRx => Sys2Proof.Machine.execIsoReportRx s
  | .isoReportMissing => Sys2Proof.Machine.execIsoReportMissing s
  | .commandLoss => Sys2Proof.Machine.execCommandLoss s
  | .permitChannelChange ch on => Sys2Proof.Machine.execPermitChannelChange ch on s
  | .permitLost => Sys2Proof.Machine.execPermitLost s
  | .permitDiscrepancy ch => Sys2Proof.Machine.execPermitDiscrepancy ch s
  | .permitClear val => Sys2Proof.Machine.execPermitClear val s
  | .leOverload n => Sys2Proof.Machine.execLeOverload n s
  | .leStuck n => Sys2Proof.Machine.execLeStuck n s
  | .doFault n => Sys2Proof.Machine.execDoFault n s
  | .doOutWrite val => Sys2Proof.Machine.execDoOutWrite val s
  | .diChange n on => Sys2Proof.Machine.execDiChange n on s
  | .vsysUv => Sys2Proof.Machine.execVsysUv s
  | .vsysRestore => Sys2Proof.Machine.execVsysRestore s
  | .isoHot => Sys2Proof.Machine.execIsoHot s
  | .isoCool => Sys2Proof.Machine.execIsoCool s
  | .scEnable val => Sys2Proof.Machine.execScEnable val s
  | .scDisable val => Sys2Proof.Machine.execScDisable val s
  | .scGo val => Sys2Proof.Machine.execScGo val s
  | .scTranslateDone => Sys2Proof.Machine.execScTranslateDone s
  | .scStop val => Sys2Proof.Machine.execScStop val s
  | .scDoneClr val => Sys2Proof.Machine.execScDoneClr val s
  | .chListPortWrite chan val => Sys2Proof.Machine.execChListPortWrite chan val s
  | .chListReset chan val => Sys2Proof.Machine.execChListReset chan val s
  | .scChannelDone chan => Sys2Proof.Machine.execScChannelDone chan s
  | .scScannerFault chan => Sys2Proof.Machine.execScScannerFault chan s
  | .permitClearable => Sys2Proof.Machine.execPermitClearable s
  | .autoNegotiationComplete port => Sys2Proof.Machine.execAutoNegotiationComplete port s
  | .pclkPresent port khz => Sys2Proof.Machine.execPclkPresent port khz s
  | .isoDiePowerUp => Sys2Proof.Machine.execIsoDiePowerUp s

end Sys2Proof.Machine
end

