-- ==== Sys2Proof/Machine/Idle.lean ====
section
/-!
DEFINITION. What happens while no command waits (log 1).
-/
namespace Sys2Proof.Machine

/-- With no command waiting, one CLK_RT cycle passes once the PLL has locked (15 R430); the frame's last cycle stays until FRAME_BOUNDARY is commanded.
DESIGN CHOICE (log 1). -/
def State.idle (s : State) : State :=
  if s.dev.ctl.pllLocked && decide (s.dev.time.cycle < 1249) then { s with dev := s.dev.tick 1 } else s

end Sys2Proof.Machine
end

