-- ==== Sys2Proof/Safety.lean ====
section
/-!
DEFINITION. What counts as a safe state and a safe command, in the terms the claims use.
-/
namespace Sys2Proof.Machine

/-- DRAM in its canonical form: addresses strictly rising, and no byte listed that an unlisted address reads as anyway. -/
def Memory.wf (m : List Host.Cell) : Bool := Tab.wf (fun _ => (0 : Byte)) m
/-- The NOR in its canonical form: an unlisted byte is erased, 0xFF (16 R461). -/
def Nor.wf (n : Tab Byte) : Bool := Tab.wf (fun _ => (0xFF : Byte)) n
/-- OTP as the part has it: key slots 0 to 3, each empty, enrolled or revoked (02 R68). -/
def Otp.wf (o : Otp) : Bool := decide (o.slots.length = 4) && o.slots.all (fun e => decide (e.1 ≤ 2))

/-- The invariant of the stores: DRAM and NOR are in canonical form and the OTP has its four slots. -/
def State.Inv (s : State) : Prop := Memory.wf s.mem = true ∧ Nor.wf s.nor = true ∧ s.otp.wf = true

/-- Everything but the logic die is as it was: the queue, OTP, NOR, DRAM and the isolated die. -/
def State.sameStores (s t : State) : Prop :=
  t.pending = s.pending ∧ t.otp = s.otp ∧ t.nor = s.nor ∧ t.mem = s.mem ∧ t.iso = s.iso

/-- A host's write of this BAR0 address reaches its target: the device has left POR (02 R69), and the address is not turned away (18 R493,
R494). -/
def State.lets (s : State) (a : Nat) : Prop := s.dev.isSt .por = false ∧ s.dev.turnedAway a = false

/-- The command is answered with a next state in which `P` holds and everything but the logic die is as it was. -/
def Answers (i : Instr) (s : State) (P : Dev → Prop) : Prop := ∃ t, exec i s = .next t ∧ s.sameStores t ∧ P t.dev

/-- The command is answered with a next state in which `P` holds of the two dies and everything else is as it was. -/
def AnswersBoth (i : Instr) (s : State) (P : Dev → Iso → Prop) : Prop :=
  ∃ t, exec i s = .next t ∧ t = { s with dev := t.dev, iso := t.iso } ∧ P t.dev t.iso
/-- The command is answered with a next state that differs in the isolated die's state and in the events it has to report alone. -/
def AnswersDie (i : Instr) (s : State) (P : IsoSt → Prop) (evts : List (Nat × Nat × List Nat)) : Prop :=
  ∃ st, exec i s = .next { s with iso := { s.iso with st := st, evts := s.iso.evts ++ evts } } ∧ P st

/-- The logic die changes only its registers. -/
def Dev.onlyRegs (d e : Dev) : Prop := e = { d with regs := e.regs }
/-- The logic die changes only what an event changes: registers, messages to the host, the recorder's queue. -/
def Dev.onlyEvent (d e : Dev) : Prop := e = { d with regs := e.regs, pcie := e.pcie, evr := e.evr }
/-- Registers outside these addresses read as before. -/
def Dev.regsBut (d e : Dev) (l : List Nat) : Prop := ∀ a, a ∉ l → e.reg a = d.reg a

/-- The registers an event of a page may change: the page's EVT_RAW, IRQ.PEND, and of the recorder's page its EVT_RAW and its counts. -/
def evtAddrs (page : Nat) : List Nat :=
  [page + 0x10, 0x2040, 0x2044, 0x5010, F.evr_CNT_LOST.addr, F.evr_QUEUE_NOW.addr, F.evr_QUEUE_PEAK.addr]

/-- The summary registers of the power-loop pages (07 R254). -/
def plSumAddrs : List Nat :=
  (List.range 4).flatMap (fun n => [(F.ploop_SUM_ACTIVE n).addr, (F.ploop_SUM_PIN n).addr, (F.ploop_SUM_FLAG n).addr])

/-- A write of ones clears the bits `c` of a register and, of the register's other bits, leaves all: but a bit that may have been set in the same CLK_MGMT cycle may stay, which
the spec leaves open (00 R14). -/
def Dev.clearsOnes (d e : Dev) (a : Nat) (was c : Word) : Prop :=
  e.reg a &&& ~~~(d.freshBits a &&& c) = was &&& ~~~c ∧ e.reg a &&& ~~~was = 0 ∧ (d.freshBits a &&& c = 0 → e.freeCtr = d.freeCtr)

/-- An access turned away is counted with its offset in BAR0 and recorded as BAD_ACCESS (02 R45). -/
def Dev.badAccess (d : Dev) (a : Nat) (e : Dev) : Prop :=
  d.onlyEvent e ∧ d.regsBut e ([0x100044, 0x100048, 0x10004C] ++ evtAddrs 0x100000)
    ∧ e.g F.pcie_BAD_ACC_COUNT = min (d.g F.pcie_BAD_ACC_COUNT + 1) (2 ^ 32 - 1) ∧ e.g F.pcie_BAD_ACC_ADDR_LO = a
    ∧ e.g F.pcie_BAD_ACC_ADDR_HI_BAR = 0 ∧ e.g ⟨0x100010, 0, 0⟩ = 1

/-- A head is to fail with this cause at the boundary after frame `f`, unless it already is to with a cause that comes first: of an earlier boundary, or
of the same one with a code not higher (06 R210). -/
def Dev.failsWith (d : Dev) (h cause f : Nat) (e : Dev) : Prop :=
  (e.hd h).failPend = if (d.hd h).failPend.any (fun c => decide ((d.hd h).failFrame < f ∨ (d.hd h).failFrame = f ∧ c ≤ cause)) then (d.hd h).failPend
    else some cause

/-- A write is refused and recorded in its page's ERR_INFO (02 R55): COUNT counts it up to 255, and the first code since the last clear stays, with
its detail and address; the registers outside ERR_INFO and ERR_ADDR and everything else stay. -/
def Dev.refused (d : Dev) (code addr : Nat) (e : Dev) : Prop :=
  let p := pageBase addr
  d.onlyRegs e ∧ d.regsBut e [p + 0x20, p + 0x24]
    ∧ e.g (F.hdr_ERR_INFO_COUNT p) = min (d.g (F.hdr_ERR_INFO_COUNT p) + 1) 255
    ∧ (d.g (F.hdr_ERR_INFO_CODE p) = 0 → e.g (F.hdr_ERR_INFO_CODE p) = code ∧ e.g (F.hdr_ERR_INFO_DETAIL p) = addr % 0x1000
        ∧ e.g (F.hdr_ERR_ADDR_ADDR p) = addr)
    ∧ (d.g (F.hdr_ERR_INFO_CODE p) ≠ 0 → e.g (F.hdr_ERR_INFO_CODE p) = d.g (F.hdr_ERR_INFO_CODE p)
        ∧ e.g (F.hdr_ERR_INFO_DETAIL p) = d.g (F.hdr_ERR_INFO_DETAIL p) ∧ e.reg (p + 0x24) = d.reg (p + 0x24))

/-- DMA channel `n` runs alone (13 R393): no other channel has a fragment ready, none that writes is outstanding, and nothing waits in the memory
controller. -/
def Dev.dmaAlone (d : Dev) (n : Nat) : Prop :=
  d.quiet = true ∧ (∀ f ∈ d.eng.out, f.data = [] ∧ f.poison = false ∧ f.good = 0) ∧ ∀ k < 32, k ≠ n → d.dmaReady k = false

/-- The sequencer has just taken an entry with this operation (03 R84). -/
def Dev.atEntry (d : Dev) (op : Nat) : Prop := d.st = 7 ∧ d.seq.fresh = true ∧ d.entOp d.pc = op
/-- The entry completes and entry `n` comes next (03 R85). -/
def Dev.completed (d : Dev) (n : Nat) (e : Dev) : Prop :=
  e.seq = { d.seq with fresh := false, done := true, next := n } ∧ e.g F.seq_SEQ_STAT_STEP = 1 ∧ e.pc = d.pc
/-- The sequencer waits at an entry with this operation. -/
def Dev.waitsAt (d : Dev) (op : Nat) : Prop := d.st = 7 ∧ d.seq.fresh = false ∧ d.seq.done = false ∧ d.entOp d.pc = op
/-- Entry `n` has been taken (03 R85). -/
def Dev.tookEntry (d : Dev) (n : Nat) (e : Dev) : Prop :=
  e.seq = { d.seq with fresh := true, done := false, next := n, takenFrame := d.time.frame, waitLogged := false }
    ∧ e.g F.seq_SEQ_STAT_STEP = 1 ∧ e.pc = n % 4096

/-- The state is as before but for the controller's own state, registers, messages, the recorder's queue and the free values drawn. -/
def Dev.onlyDdr (d e : Dev) : Prop :=
  e = { d with regs := e.regs, pcie := e.pcie, evr := e.evr, ddr := e.ddr, freeCtr := e.freeCtr }
    ∧ ∀ a, (a < 0xD004C ∨ 0xD1000 ≤ a) → a ∉ evtAddrs ddrPage → e.reg a = d.reg a

end Sys2Proof.Machine

namespace Sys2Proof
open Sys2Proof.Machine

/-! ### What a command may reach -/

/-- The BAR0 address that a command writes as the host, for the rows that are a host's write (00 R12, 19 R505, R511); with the bits of the value that make the
write this row. -/
def Instr.target (i : Instr) : Option Nat :=
  match i with
  | .powerOnReset => none
  | .brownOut => none
  | .pllLock => none
  | .romSelfTestDone _ _ => none
  | .ddrTrainingDone _ _ _ _ _ => none
  | .dramZeroDone => none
  | .pprHardenDone => none
  | .devReset _ => some (0x4C)
  | .controlledStop => none
  | .controlledStopEnd => none
  | .pcieLinkDown => none
  | .pcieLinkUp _ _ => none
  | .msixEnable _ => none
  | .msixUnmask vector => some (0x101000 + 16 * vector.val + 12)
  | .d3hotEntry => none
  | .d0Return => none
  | .badAccess _ _ _ => none
  | .bar2Write _ _ => none
  | .bar2Read _ _ => none
  | .registerWrite addr _ => some (addr.toNat)
  | .errClr page val => if Word.f val 3 3 = 1 then some (pageBase page.toNat + 0x8) else none
  | .softReset page val => if Word.f val 1 1 = 1 then some (pageBase page.toNat + 0x8) else none
  | .pageLock page val => if Word.f val 2 2 = 1 then some (pageBase page.toNat + 0x8) else none
  | .pageEnable page _ => some (pageBase page.toNat + 0x8)
  | .evtForce page _ => some (pageBase page.toNat + 0x18)
  | .evtRawClear page _ => some (pageBase page.toNat + 0x10)
  | .evtEnWrite page _ => some (pageBase page.toNat + 0x14)
  | .shadowPointWrite page _ => some (pageBase page.toNat + 0x28)
  | .shadowRelease _ => some (0x58)
  | .holdoffExpire _ => none
  | .imgGo _ => some (0x1044)
  | .imageVerifyDone => none
  | .calLoadDone => none
  | .enroll _ => some (0x1080)
  | .revoke _ => some (0x1080)
  | .enrollDone => none
  | .arm _ => some (0x44)
  | .start _ => some (0x44)
  | .stop _ => some (0x44)
  | .abort _ => some (0x44)
  | .disarm _ => some (0x44)
  | .sysCmdEffect => none
  | .hostKick _ => some (0x54)
  | .hostWdogWrite _ => some (0x50)
  | .wdog => none
  | .faultLatchEntry => none
  | .mpLockstep => none
  | .isoLost => none
  | .frameBoundary _ _ => none
  | .openLayer => none
  | .layerBoundary => none
  | .nop => none
  | .layerOpen => none
  | .expose => none
  | .layerClose => none
  | .auxStart => none
  | .auxWait => none
  | .delay => none
  | .delayDone => none
  | .outSet => none
  | .inWait => none
  | .waitEntryDone => none
  | .event => none
  | .jump => none
  | .brMore => none
  | .brResumed => none
  | .endEntry => none
  | .stall => none
  | .continueEntry _ => some (F.seq_CONTINUE.addr)
  | .contextWindowWrite ofs _ => some (0x1000000 + ofs.toNat)
  | .seqTableWrite ofs _ => some (0x1010000 + ofs.toNat)
  | .ctxCommit _ => some (F.seq_CTX_COMMIT_CTX.addr)
  | .tblCheck _ => some (F.seq_TBL_CHECK.addr)
  | .lqReset _ => some (F.seq_LQ_CTRL_RESET.addr)
  | .streamRetry head _ => some (F.hd_STREAM_RETRY head.val).addr
  | .recordFetchDone _ => none
  | .streamResume _ => none
  | .satLimitReached _ => none
  | .coastExpire _ => none
  | .recovered _ => none
  | .feFault _ => none
  | .parkReq head _ => some (F.hd_PARK_REQ head.val).addr
  | .parked _ => none
  | .parkTimeout _ => none
  | .servoRestart head _ => some (F.hd_SERVO_RESTART head.val).addr
  | .servoHoldQualified _ => none
  | .fcGridWrite ofs _ => some (0x1100000 + ofs.toNat)
  | .fcAccept head _ => some (F.hd_FC_ACCEPT head.val).addr
  | .traceArm page _ => some (F.loop_TRACE_ARM page.val).addr
  | .traceForce page _ => some (F.loop_TRACE_FORCE page.val).addr
  | .traceDone _ => none
  | .traceGap _ => none
  | .dropFail _ => none
  | .casKeyWrite word _ => some (F.fire_CAS_KEY word.val).addr
  | .casReread head _ => some (F.hd_CAS_REREAD head.val).addr
  | .casStepReached _ => none
  | .casWriteFail _ => none
  | .casExhausted _ => none
  | .holdLong _ => none
  | .tileMapWrite ofs _ => some (0x1020000 + ofs.toNat)
  | .tileEditCmd _ => some (F.ibex_TILE_EDIT_CMD_KEY.addr)
  | .headFail _ => none
  | .failReq _ => some (F.ibex_FAIL_REQ_KEY.addr)
  | .rejoin head _ => some (F.hd_REJOIN head.val).addr
  | .storeResume => none
  | .pin _ => none
  | .ffStale _ => none
  | .frameStart _ => none
  | .cameraLine _ _ => none
  | .frameEnd _ => none
  | .frameTimeout _ => none
  | .pclkLost _ => none
  | .vmFrameTake _ => none
  | .ringSlotClaim _ => none
  | .featureRecordComplete _ => none
  | .pipelineFail _ _ => none
  | .dpcLoaded _ _ => none
  | .cntClear addr _ => if isCntClear addr.toNat then some (addr.toNat) else none
  | .usFrameRx .. => none
  | .usFrameMissing _ => none
  | .ackRx _ _ => none
  | .capDataRx _ _ => none
  | .casRecordRx _ _ => none
  | .casChangeRx _ _ => none
  | .hostMsgRx _ _ => none
  | .unknownMsgRx _ _ => none
  | .mgmtRetry _ => none
  | .msgTxGo head _ => some (F.hd_MSG_TX_GO head.val).addr
  | .msgRxFree head _ => some (F.hd_MSG_RX_FREE head.val).addr
  | .laneEn head _ => some (F.hd_LANE_CTRL_EN head.val).addr
  | .retrain head _ => some (F.hd_LANE_CTRL_EN head.val).addr
  | .trainingDone _ => none
  | .trainTimeout _ => none
  | .capTimeout _ => none
  | .laneLost _ => none
  | .lostIdleEnd _ => none
  | .linkAccept head _ => some (F.hd_LINK_ACCEPT head.val).addr
  | .auxTick => none
  | .bridgeFrameRx .. => none
  | .bridgeFrameMissing _ => none
  | .portUp _ => none
  | .portLost _ => none
  | .portResync _ => none
  | .move axis _ => some (F.ax_AX_CMD_OP axis.val).addr
  | .home axis _ => some (F.ax_AX_CMD_OP axis.val).addr
  | .axStop axis _ => some (F.ax_AX_CMD_OP axis.val).addr
  | .clearErr axis _ => some (F.ax_AX_CMD_OP axis.val).addr
  | .moveDone _ => none
  | .stopAtRest _ => none
  | .limitRelease _ _ => none
  | .inputLost _ => none
  | .axisStall _ => none
  | .standbyEntry _ => none
  | .homeAtRest _ => none
  | .homeBackOffDone _ => none
  | .homeQualifiedEdge _ => none
  | .homeZero _ => none
  | .switchUnstable _ => none
  | .homeMaxdist _ => none
  | .matrixFrameStart => none
  | .rowSlotStart _ _ _ => none
  | .diagUnavailable _ => none
  | .ledFrameWrite ofs _ => some (0x10A0000 + ofs.toNat)
  | .ledArm _ => some (F.led_LED_SWAP_ARM.addr)
  | .ledDisarm _ => some (F.led_LED_SWAP_ARM.addr)
  | .syncEdge _ _ => none
  | .lampTempMeasure _ => none
  | .diagClear _ => some (F.led_DIAG_CLEAR.addr)
  | .dramRequest _ _ _ _ _ => none
  | .dramReadDone _ _ => none
  | .devMarked _ => none
  | .dramWrite _ => none
  | .refreshDue _ _ => none
  | .owedRefresh _ => none
  | .rfm _ _ => none
  | .powerDownEntry _ => none
  | .scrubStep _ _ => none
  | .pprRepairDone => none
  | .harden _ => some (F.ddr_PPR_CMD_OP.addr)
  | .clearPending _ => some (F.ddr_PPR_CMD_OP.addr)
  | .dmaStart chan _ => some (F.dma_CH_CMD_OP chan.val).addr
  | .dmaStop chan _ => some (F.dma_CH_CMD_OP chan.val).addr
  | .resume chan _ => some (F.dma_CH_CMD_OP chan.val).addr
  | .skip chan _ => some (F.dma_CH_CMD_OP chan.val).addr
  | .descriptorFetchDone _ => none
  | .descriptorComplete _ => none
  | .linkReadDone _ => none
  | .dmaTrigger _ => none
  | .dmaTimer _ => none
  | .doorbell chan _ => some (F.dma_DOORBELL chan.val).addr
  | .katPassDone _ _ => none
  | .sramPatrolRead _ _ _ _ _ => none
  | .directedPassDone _ _ => none
  | .bleatRx _ _ _ => none
  | .bleatMissed _ _ => none
  | .pathFault _ => none
  | .pathOk _ => none
  | .takeoverClaim => none
  | .failover => none
  | .recoveryStart _ => none
  | .recoveryPassDone _ _ => none
  | .recoveryRetry _ => none
  | .stateCopyDone _ => none
  | .unitStandby _ => none
  | .dwellEnd => none
  | .revDefer _ => some (F.unit_REV_DEFER.addr)
  | .directedPass _ => some (F.unit_UNIT_CMD_OP.addr)
  | .retry _ => some (F.unit_UNIT_CMD_OP.addr)
  | .clearCounters _ => some (F.unit_UNIT_CMD_OP.addr)
  | .spareRowReady _ => none
  | .remapGo _ => some (F.unit_REMAP_GO.addr)
  | .remapReq _ => some (F.unit_REMAP_REQ_KEY.addr)
  | .health => none
  | .timeIncCommit _ => some (F.time_TIME_INC_HI.addr)
  | .set _ => some (F.time_TIME_CMD_OP.addr)
  | .add _ => some (F.time_TIME_CMD_OP.addr)
  | .capture _ => some (F.time_TIME_CMD_OP.addr)
  | .captureBoundary _ => some (F.time_TIME_CMD_OP.addr)
  | .tcmpArm unit _ => some (F.time_TCMPk_CTRL_EN unit.val).addr
  | .tcmpFire _ => none
  | .ethRxFrame _ _ _ _ => none
  | .txWrWrite port _ => some (F.ethp_TX_WR port.val).addr
  | .ethTxDone _ => none
  | .rxRdWrite port _ => some (F.ethp_RX_RD port.val).addr
  | .ethLinkChange _ _ => none
  | .mdioCmd _ => some (F.eth_MDIO_CMD_OP.addr)
  | .mdioDone _ => none
  | .evrWrite => none
  | .snap _ => some (F.evr_EVR_CMD_SNAP.addr)
  | .hkConversion _ _ => none
  | .supply _ => none
  | .thermLevelChange => none
  | .sensorBrokenLong => none
  | .throttleStep => none
  | .thresholdWrite which _ => some (thrFld which.val).addr
  | .runStart _ => some (F.cal_CAL_CMD_OP.addr)
  | .runSubmit _ => some (F.cal_CAL_CMD_OP.addr)
  | .calRecordWritten _ => none
  | .runCancel _ => some (F.cal_CAL_CMD_OP.addr)
  | .reload _ => some (F.cal_CAL_CMD_OP.addr)
  | .loadDone => none
  | .acceptSerial _ => some (F.cal_CAL_CMD_OP.addr)
  | .norRead _ => some (F.cal_CAL_CMD_OP.addr)
  | .norProgram _ => some (F.cal_CAL_CMD_OP.addr)
  | .norErase _ => some (F.cal_CAL_CMD_OP.addr)
  | .norDone => none
  | .isoReportRx => none
  | .isoReportMissing => none
  | .commandLoss => none
  | .permitChannelChange _ _ => none
  | .permitLost => none
  | .permitDiscrepancy _ => none
  | .permitClear _ => some (F.iso_PERMIT_CLEAR_KEY.addr)
  | .leOverload _ => none
  | .leStuck _ => none
  | .doFault _ => none
  | .doOutWrite _ => some (F.iso_DO_OUT.addr)
  | .diChange _ _ => none
  | .vsysUv => none
  | .vsysRestore => none
  | .isoHot => none
  | .isoCool => none
  | .scEnable _ => some (F.sc_SC_CTRL_ENABLE.addr)
  | .scDisable _ => some (F.sc_SC_CTRL_ENABLE.addr)
  | .scGo _ => some (F.sc_SC_GO.addr)
  | .scTranslateDone => none
  | .scStop _ => some (F.sc_SC_STOP.addr)
  | .scDoneClr _ => some (F.sc_SC_DONE_CLR.addr)
  | .chListPortWrite chan _ => some (F.scc_CH_LIST_PORT chan.val).addr
  | .chListReset chan _ => some (F.scc_CH_LIST_RESET chan.val).addr
  | .scChannelDone _ => none
  | .scScannerFault _ => none
  | .permitClearable => none
  | .autoNegotiationComplete _ => none
  | .pclkPresent _ _ => none
  | .isoDiePowerUp => none

/-- The commands that may write DRAM: resets and zeroing, controlled stops and layers that write descriptors, the host, the cameras, DMA, Ethernet
and the recorder; and those that read it, before which waiting writes of the same bursts are executed (12 R365). -/
def Instr.writesDram (i : Instr) : Bool :=
  match i with
  | .powerOnReset
  | .brownOut
  | .dramZeroDone
  | .controlledStop
  | .controlledStopEnd
  | .sysCmdEffect
  | .faultLatchEntry
  | .bar2Write ..
  | .bar2Read ..
  | .registerWrite ..
  | .errClr ..
  | .softReset ..
  | .pageLock ..
  | .pageEnable ..
  | .imgGo ..
  | .imageVerifyDone
  | .calLoadDone
  | .recordFetchDone ..
  | .frameBoundary ..
  | .layerBoundary
  | .cameraLine ..
  | .vmFrameTake ..
  | .dpcLoaded ..
  | .ringSlotClaim ..
  | .featureRecordComplete ..
  | .dramWrite ..
  | .scrubStep ..
  | .dmaStart ..
  | .resume ..
  | .skip ..
  | .doorbell ..
  | .descriptorFetchDone ..
  | .dmaStop ..
  | .descriptorComplete ..
  | .linkReadDone ..
  | .ethRxFrame ..
  | .ethTxDone ..
  | .evrWrite
  | .runSubmit ..
  | .scTranslateDone => true
  | _ => false

/-- The commands that may write the NOR: a calibration record, and the service writes (16 R468, R470). -/
def Instr.writesNor (i : Instr) : Bool :=
  match i with
  | .calRecordWritten ..
  | .norDone => true
  | _ => false

/-- The commands that may change OTP: the end of an enrolment or revocation, and the image's security version once the device is IDLE (02 R67, R68). -/
def Instr.writesOtp (i : Instr) : Bool :=
  match i with
  | .enrollDone
  | .calLoadDone => true
  | _ => false

/-- The commands that may change the isolated die: its own, the report and the command frame of the barrier link, and the resets that reach it. -/
def Instr.reachesIso (i : Instr) : Bool :=
  match i with
  | .powerOnReset
  | .brownOut
  | .controlledStopEnd
  | .frameBoundary ..
  | .layerBoundary
  | .matrixFrameStart
  | .rowSlotStart ..
  | .diagUnavailable ..
  | .syncEdge ..
  | .lampTempMeasure ..
  | .isoReportRx
  | .commandLoss
  | .permitChannelChange ..
  | .permitDiscrepancy ..
  | .permitClearable
  | .leOverload ..
  | .leStuck ..
  | .doFault ..
  | .diChange ..
  | .vsysUv
  | .vsysRestore
  | .isoHot
  | .isoCool
  | .isoDiePowerUp => true
  | _ => false

end Sys2Proof
end

