-- ==== Sys2Proof/Certificates/Slice0/Obligations.lean ====
section
/-!
DEFINITION. The statements for the provers. `Answers c s P` says that the command is answered with a next state whose logic die satisfies `P` and whose
queue, OTP, NOR, DRAM and isolated die are as before.
-/
open Sys2Proof Sys2Proof.Machine


/-! ### The queue and the whole machine -/

/-- A step runs the command at the front of the queue on the state with the queue's rest. -/
def Obligations.StepRunsTheFrontCommand : Prop :=
  ∀ (c : Instr) (rest : List Instr) (s : State), step { s with pending := c :: rest } = exec c { s with pending := rest }

/-- On an empty queue one CLK_RT cycle passes within the frame, once the PLL has locked; the frame's last cycle stays (the model's choice, log 1). -/
def Obligations.EmptyQueueIsOneClockCycle : Prop :=
  ∀ s : State, s.pending = [] →
    ∃ t, step s = .next t ∧ s.sameStores t ∧ t.dev = { s.dev with time := t.dev.time } ∧ t.dev.time.frame = s.dev.time.frame
      ∧ t.dev.time.cycle = s.dev.time.cycle + (if s.dev.ctl.pllLocked = true ∧ s.dev.time.cycle < 1249 then 1 else 0)

/-- After power-on reset the device is in POR with no mode, no PLL lock, nothing in DRAM, NOR, queue or isolated die, key slot 0 enrolled and slots 1 to 3 empty. That
unlisted DRAM bytes read 0 and unlisted NOR bytes 0xFF is the model's choice (logs 7, 8). -/
def Obligations.ResetIsPowerOnReset : Prop :=
  State.reset.dev.st = 0 ∧ State.reset.dev.g F.sys_SYS_STATE_MODE = 0 ∧ State.reset.dev.g F.sys_SYS_STATE_FAULT_CAUSE = 0
    ∧ State.reset.dev.ctl.pllLocked = false ∧ State.reset.dev.time.sec = 0 ∧ State.reset.dev.time.ns = 0 ∧ State.reset.dev.time.frac = 0
    ∧ State.reset.dev.time.incNs = 2 ∧ State.reset.dev.time.incFrac = 0
    ∧ State.reset.mem = [] ∧ State.reset.nor = [] ∧ State.reset.pending = [] ∧ State.reset.iso = {}
    ∧ State.reset.otp.slotSt 0 = 1 ∧ State.reset.otp.slotSt 1 = 0 ∧ State.reset.otp.slotSt 2 = 0 ∧ State.reset.otp.slotSt 3 = 0

/-- The invariant of the stores holds after reset. -/
def Obligations.ResetHoldsTheInvariant : Prop := State.reset.Inv

/-- Every step keeps DRAM and NOR in canonical form and the OTP with its four slots. -/
def Obligations.EveryStepKeepsTheStoresCanonical : Prop := ∀ s t : State, s.Inv → step s = .next t → t.Inv

/-- OTP only advances: the lowest security version never falls, a slot never goes back, a revoked slot stays revoked, and the digest of an enrolled slot stays. -/
def Obligations.OtpOnlyAdvances : Prop :=
  ∀ s t : State, s.Inv → step s = .next t →
    s.otp.grade = t.otp.grade ∧ s.otp.secVerMin ≤ t.otp.secVerMin ∧ (∀ k, s.otp.slotSt k ≤ t.otp.slotSt k)
      ∧ ∀ (k : Nat) (dig : List Nat), s.otp.slots[k]? = some (1, dig) → t.otp.slots[k]? = some (1, dig) ∨ t.otp.slots[k]? = some (2, dig)

/-- Every command on every state is answered with a next state, and takes nothing from the queue and puts nothing in it. -/
def Obligations.EveryCommandIsAnswered : Prop := ∀ (c : Instr) (s : State), ∃ t, exec c s = .next t ∧ t.pending = s.pending

/-- A command that is not one of those that write DRAM leaves every byte of it. NOR changes only by calibration records and service writes, OTP only at the end of an
enrolment and when the image's security version rises, and the isolated die only by its own commands, the barrier link and the resets that reach it. -/
def Obligations.OtherCommandsLeaveTheStores : Prop :=
  (∀ (c : Instr) (s t : State), c.writesDram = false → exec c s = .next t → t.mem = s.mem)
  ∧ (
    ∀ (c : Instr) (s t : State), exec c s = .next t →
      (c.writesNor = false → t.nor = s.nor) ∧ (c.writesOtp = false → t.otp = s.otp) ∧ (c.reachesIso = false → t.iso = s.iso))

/-! ### What the host may reach -/

/-- In POR no register is reachable. A write that is turned away, in SC-12 mode from a native target that R493 does not list and in native mode from the SC-12 window, is
discarded and recorded as BAD_ACCESS with its offset in BAR0. -/
def Obligations.HostWritesThatReachNothing : Prop :=
  (∀ (c : Instr) (a : Nat) (s : State), c.target = some a → s.dev.st = 0 → exec c s = .next s)
  ∧ (
    ∀ (c : Instr) (a : Nat) (s : State), c.target = some a → a < 2 ^ 26 → s.dev.st ≠ 0 → s.dev.turnedAway a = true →
      Answers c s (fun e => s.dev.onlyEvent e ∧ e.g F.pcie_BAD_ACC_COUNT = min (s.dev.g F.pcie_BAD_ACC_COUNT + 1) (2 ^ 32 - 1)
        ∧ e.g F.pcie_BAD_ACC_ADDR_LO = a ∧ e.g F.pcie_BAD_ACC_ADDR_HI_BAR = 0 ∧ e.g ⟨0x100010, 0, 0⟩ = 1
        ∧ s.dev.regsBut e ([0x100044, 0x100048, 0x10004C] ++ evtAddrs 0x100000)))

/-- In native mode the SC-12 window is unmapped: a read of it returns 0, and a write to it is discarded as a bad access. -/
def Obligations.NativeModeHidesTheSc12Window : Prop :=
  ∀ (a : Nat) (s : State), 0x3F00000 ≤ a → a < 0x3F10000 → s.dev.g F.sys_SYS_STATE_MODE ≠ 2 →
    s.dev.readWord a = 0
      ∧ ∀ c : Instr, c.target = some a → s.dev.st ≠ 0 →
          exec c s = .next { s with dev := s.dev.badAcc 0 a } ∧ s.dev.onlyEvent (s.dev.badAcc 0 a)
            ∧ s.dev.regsBut (s.dev.badAcc 0 a) ([0x100044, 0x100048, 0x10004C] ++ evtAddrs 0x100000)


/-! ### Reset, start-up and the image (02 R62 to R69) -/

/-- POWER_ON_RESET (PORST_N) and BROWN_OUT act alike: both dies lose all state, DRAM too; OTP stays, and NOR, which is part of neither die, and the queue. The counter of
free values is the model's own. -/
def Obligations.PowerOnResetLosesAllButOtp : Prop :=
  ∀ (c : Instr) (s : State), c = .powerOnReset ∨ c = .brownOut →
    ∃ t, exec c s = .next t ∧ t.otp = s.otp ∧ t.nor = s.nor ∧ t.pending = s.pending ∧ t.mem = [] ∧ t.iso = {} ∧ t.dev = { freeCtr := s.dev.freeCtr }

/-- PLL_LOCK: in POR, before the PLLs have locked, it starts the time base and takes the device to ROM. ROM_SELF_TEST_DONE in ROM: a unit's pass without a failure counts
in its PASSES alone; in one with a failed test of a block without spares the test counts in its FAILS, LAST_FAIL shows it, and it is a finding toward the next boundary,
or the one after it when it is made after cycle 1,248. DDR_TRAINING_DONE in ROM, where the memory is not trained: a training that succeeds shows TRAINED, capacity,
density and RFM_REQ, and one that fails is fault cause DDR_TRAIN. DRAM_ZERO_DONE: in ROM with the memory trained and no row waiting for hard repair the device enters
WAIT_IMAGE, its mode ended; after POR alone DRAM reads zeros, else it stays. PPR_HARDEN_DONE: in ROM with the memory trained, while a row is marked for hard repair, the
first such entry is free again after its repair, and no burst of its row carries wrong symbols; where the row read clean no other entry changes. -/
def Obligations.RomTestsTrainsAndEnds : Prop :=
  (
    (∀ s : State, s.dev.st = 0 → s.dev.ctl.pllLocked = false →
      Answers .pllLock s (fun e => e.st = 1 ∧ e.ctl.pllLocked = true ∧ e.time = s.dev.time ∧ e.g ⟨0x10, 0, 0⟩ = 1))
    ∧ (∀ (u : Fin 2) (s : State), s.dev.st = 1 →
      Answers (.romSelfTestDone u []) s (fun e => s.dev.onlyRegs e ∧
        let f := if u = 0 then F.unit_A_PASSES else F.unit_B_PASSES
        e.g f = (s.dev.g f + 1) % 2 ^ f.width ∧ s.dev.regsBut e [f.addr]))
    ∧ (∀ (u : Fin 2) (i : BitVec 16) (b : BitVec 8) (s : State), s.dev.st = 1 →
      Answers (.romSelfTestDone u [⟨.block i, b⟩]) s (fun e =>
          let f := if u = 0 then F.unit_A_FAILS else F.unit_B_FAILS
          e.g f = min (s.dev.g f + 1) 65535 ∧ e.g F.unit_LAST_FAIL_UNIT = u.val ∧ e.g F.unit_LAST_FAIL_CLASS = 1
        ∧ e.g F.unit_LAST_FAIL_BLOCK = b.toNat ∧ e.g F.unit_LAST_FAIL_INDEX = i.toNat
        ∧ e.units = { s.dev.units with finds := s.dev.units.finds
            ++ [⟨u.val, 1, 2, none, s.dev.time.frame + (if s.dev.time.cycle ≤ 1248 then 1 else 2)⟩] }))
    ∧ (∀ (den : Fin 2) (rfm : Bool) (raaimt : BitVec 8) (res : List (BitVec 8)) (s : State), s.dev.st = 1 → s.dev.g F.ddr_CFG_TRAINED = 0 →
      Answers (.ddrTrainingDone true den rfm raaimt res) s (fun e => e.g F.ddr_CFG_TRAINED = 1 ∧ e.g F.ddr_CFG_CAP_GB = (if den = 0 then 32 else 48)
        ∧ e.g F.ddr_CFG_DENSITY = den.val + 1 ∧ e.g F.ddr_NR_CTRL_RFM_REQ = b2n rfm ∧ s.dev.regsBut e [0xD0040, 0xD0098, 0xD00BC])
      ∧ Answers (.ddrTrainingDone false den rfm raaimt res) s (fun e => e.ctl.faults = s.dev.ctl.faults ++ [3] ∧ e = { s.dev with ctl := e.ctl })))
  ∧ (
    (∀ s : State, s.dev.st = 1 → s.dev.g F.ddr_CFG_TRAINED = 1 → s.dev.hardenWaits = false →
      ∃ t, exec .dramZeroDone s = .next t ∧ t.dev.st = 2 ∧ t.dev.g F.sys_SYS_STATE_MODE = 0 ∧ (s.dev.ctl.bootCause = 0 → t.mem = [])
        ∧ (s.dev.ctl.bootCause ≠ 0 → t.mem = s.mem) ∧ t.nor = s.nor ∧ t.otp = s.otp ∧ t.iso = s.iso)
    ∧ ∀ (s : State) (i : Nat), s.dev.st = 1 → s.dev.g F.ddr_CFG_TRAINED = 1 → i < 8 → s.dev.g (F.ddr_PPR_LOGi_STATE i) = 3 →
        (∀ j < i, s.dev.g (F.ddr_PPR_LOGi_STATE j) ≠ 3) →
        let row := rowBursts (s.dev.g2 (F.ddr_PPR_LOGi_ADDR_LO i) (F.ddr_PPR_LOGi_ADDR_HI i) / 64)
        Answers .pprHardenDone s (fun e => e.g (F.ddr_PPR_LOGi_STATE i) = 0 ∧ e.g ⟨0xD0010, 7, 7⟩ = 1 ∧ (∀ k ∈ row, (Tab.at ({} : Burst) e.ddr.bursts k).syms = [])
          ∧ s.dev.onlyDdr e ∧ ((∀ k ∈ row, s.dev.judge k = 0) → ∀ j < 8, j ≠ i → e.g (F.ddr_PPR_LOGi_STATE j) = s.dev.g (F.ddr_PPR_LOGi_STATE j))))

/-- IMG_GO: with its key in WAIT_IMAGE, while nothing waits in the memory controller: where every burst of the first IMG_LEN bytes, 64 MiB at most, reads clean or
corrected, VERIFY begins with code 0x01, those bytes lie copied in the device region as far as DRAM reaches, and no other byte of DRAM changes; where a burst is
uncorrectable or poisoned, the device stays in WAIT_IMAGE with code 0x11 and DRAM as it was. IMAGE_VERIFY_DONE: in VERIFY, while nothing waits in that controller, the end
of verification sets IMG_DONE and leads to CAL_LOAD with code 0x02 or to WAIT_IMAGE with another code; where the header reads well and one of the checks before the
digests fails, it is WAIT_IMAGE with that check's code. CAL_LOAD_DONE: in CAL_LOAD the end leads to IDLE in native mode, in SC-12 mode the mode stays; SEC_VER_MIN never
falls, the key slots stay, and in native mode it becomes the image's version where that asks for it and is later. -/
def Obligations.ImageIsVerifiedAndLoaded : Prop :=
  (∀ s : State, s.lets 0x1044 → s.dev.st = 2 → s.dev.quiet = true →
    let n := min (s.dev.g F.boot_IMG_LEN) (64 * 2 ^ 20)
    (∀ k ∈ burstsOf 0 n, s.dev.judge k ≤ 1) →
    ∃ t, exec (.imgGo 0x474F474F) s = .next t ∧ t.dev.st = 3 ∧ t.dev.g F.boot_IMG_STATUS_CODE = 1 ∧ t.dev.g F.boot_IMG_STATUS_SECTION = 0
      ∧ t.nor = s.nor ∧ t.otp = s.otp ∧ t.iso = s.iso
      ∧ (∀ i < n, s.dev.imgCopy + i < s.dev.capacity → memByte t.mem (s.dev.imgCopy + i) = memByte s.mem i)
      ∧ ∀ a, a < s.dev.imgCopy ∨ s.dev.imgCopy + n ≤ a → memByte t.mem a = memByte s.mem a)
  ∧ (∀ s : State, s.lets 0x1044 → s.dev.st = 2 → s.dev.quiet = true →
    (∃ k ∈ burstsOf 0 (min (s.dev.g F.boot_IMG_LEN) (64 * 2 ^ 20)), 2 ≤ s.dev.judge k) →
    Answers (.imgGo 0x474F474F) s (fun e => e.st = 2 ∧ e.g F.boot_IMG_STATUS_CODE = 0x11 ∧ e.g F.boot_IMG_STATUS_SECTION = 0 ∧ e.g ⟨0x1010, 0, 0⟩ = 1))
  ∧ (∀ s : State, s.dev.st = 3 → s.dev.quiet = true →
    Answers .imageVerifyDone s (fun e => e.g ⟨0x1010, 0, 0⟩ = 1
      ∧ (e.st = 4 ∧ e.g F.boot_IMG_STATUS_CODE = 2 ∨ e.st = 2 ∧ e.g F.boot_IMG_STATUS_CODE ≠ 2)))
  ∧ (∀ (s : State) (c : Nat), s.dev.st = 3 → s.dev.quiet = true → (s.dev.dramRead 3 s.dev.imgCopy 0x180).1 = false →
    imgHeader (memBytes s.mem s.dev.imgCopy 0x180) (s.dev.g F.boot_IMG_LEN) s.otp romKeyBytes = some c →
    Answers .imageVerifyDone s (fun e => e.st = 2 ∧ e.g F.boot_IMG_STATUS_CODE = c ∧ e.g F.boot_IMG_STATUS_SECTION = 0))
  ∧ (∀ s : State, s.dev.st = 4 → s.dev.g F.sys_SYS_STATE_MODE ≠ 2 →
    ∃ t, exec .calLoadDone s = .next t ∧ t.dev.st = 5 ∧ t.otp.slots = s.otp.slots
      ∧ t.otp.secVerMin = (if s.dev.ctl.image.advanceSv = true then max s.otp.secVerMin s.dev.ctl.image.secVer else s.otp.secVerMin)
      ∧ t.mem = s.mem ∧ t.nor = s.nor ∧ t.iso = s.iso)
  ∧ ∀ s : State, s.dev.st = 4 → s.dev.g F.sys_SYS_STATE_MODE = 2 →
      ∃ t, exec .calLoadDone s = .next t ∧ t.dev.g F.sys_SYS_STATE_MODE = 2 ∧ s.otp.secVerMin ≤ t.otp.secVerMin ∧ t.otp.slots = s.otp.slots
        ∧ t.nor = s.nor ∧ t.iso = s.iso

/-- ENROLL and REVOKE: ENROLL_CMD with its key and OP 1 or 2, where no enrolment or revocation is in progress. In IDLE, with ENROLL_PERMIT of the running image, an
enrolment of an empty slot among 1 to 3, and a revocation of any slot but an enrolled slot 0 while none of slots 1 to 3 is enrolled, is accepted: ENROLL_STAT shows 1, and
the operation with its slot and the digest in ENROLL_DIGEST is in progress. Without that state or permit, an enrolment of slot 0 or of a slot that is not empty, and a
revocation of enrolled slot 0 while none of slots 1 to 3 is enrolled, shows ENROLL_STAT 3, sets the event ENROLL_DONE and does nothing else. ENROLL_DONE: at the end of
the one in progress ENROLL_STAT shows 2, the event is set, and of the key slots the named one alone changes: an empty slot is enrolled with the digest, a revoked one
shows state 2. -/
def Obligations.EnrolmentChangesOneSlot : Prop :=
  (∀ (v : Word) (s : State), s.lets 0x1080 → Word.f v 31 16 = 0x454E → s.dev.ctl.enroll = none →
    let slot := Word.f v 3 2
    let fit := s.dev.st = 5 ∧ s.dev.ctl.image.enrollPermit = true
    let last := slot = 0 ∧ s.otp.slotSt 0 = 1 ∧ s.otp.slotSt 1 ≠ 1 ∧ s.otp.slotSt 2 ≠ 1 ∧ s.otp.slotSt 3 ≠ 1
    let dig := (List.range 8).flatMap (fun i => (leBytes 4 (s.dev.g (F.boot_ENROLL_DIGEST i))).map (·.toNat))
    let taken := fun (op : Nat) (e : Dev) => e.g F.boot_ENROLL_STAT = 1 ∧ e.ctl = { s.dev.ctl with enroll := some (op, slot, dig) }
      ∧ e = { s.dev with ctl := e.ctl, regs := e.regs } ∧ s.dev.regsBut e [F.boot_ENROLL_STAT.addr]
    let refused := fun (e : Dev) => e.g F.boot_ENROLL_STAT = 3 ∧ s.dev.onlyEvent e ∧ e.g ⟨0x1010, 1, 1⟩ = 1
    (Word.f v 1 0 = 1 → fit → slot ≠ 0 → s.otp.slotSt slot = 0 → Answers (.enroll v) s (taken 1))
      ∧ (Word.f v 1 0 = 1 → ¬ fit ∨ slot = 0 ∨ s.otp.slotSt slot ≠ 0 → Answers (.enroll v) s refused)
      ∧ (Word.f v 1 0 = 2 → fit → ¬ last → Answers (.revoke v) s (taken 2))
      ∧ (Word.f v 1 0 = 2 → ¬ fit ∨ last → Answers (.revoke v) s refused))
  ∧ ∀ (s : State) (op slot : Nat) (dig : List Nat), s.dev.ctl.enroll = some (op, slot, dig) →
      ∃ t, exec .enrollDone s = .next t ∧ t.dev.ctl.enroll = none ∧ t.dev.g F.boot_ENROLL_STAT = 2 ∧ t.dev.g ⟨0x1010, 1, 1⟩ = 1 ∧ t.mem = s.mem
        ∧ t.nor = s.nor ∧ t.iso = s.iso ∧ t.otp.slots.length = s.otp.slots.length
        ∧ ∀ (k : Nat) (x : Nat × List Nat), s.otp.slots[k]? = some x →
            t.otp.slots[k]? = some (if k ≠ slot then x else if op = 1 then (if x.1 = 0 then (1, dig) else x) else (2, x.2))

/-! ### Commands of the host to the device, stops and faults (02 R63, R71 to R74) -/

/-- ARM, START, STOP and DISARM with the key, written in the state that the row names while no command is pending and no controlled stop runs, are accepted: CMD_STAT
shows the command with result 1, it waits with the frame of its acceptance, and nothing else changes; but a STOP that meets a sequencer waiting in LAYER_OPEN with no
layer open and no end of the run decided also decides the end and saves the entry in RESUME_ENTRY. ABORT is accepted in ARMED and RUNNING whatever is pending, and a
command that it replaces sets CMD_DONE. A write of SYS_CMD without the key is result 4; with the key, a command but ABORT that meets a pending one is result 1, and a
command in a state that its row does not name, but ABORT while none is pending, is result 2. Each shows the command in CMD_STAT and sets CMD_DONE, and nothing else
changes. -/
def Obligations.SysCommandsAreAcceptedOrRefused : Prop :=
  (
    (∀ (v : Word) (s : State), s.lets 0x44 → Word.f v 31 16 = 0x4B4D → s.dev.ctl.cmd = 0 → s.dev.ctl.stop = none →
      let ok := fun (n : Nat) (e : Dev) => e.ctl = { s.dev.ctl with cmd := n, cmdFrame := s.dev.time.frame } ∧ e.g F.sys_CMD_STAT_CMD = n
        ∧ e.g F.sys_CMD_STAT_RESULT = 1
      let rest := fun (e : Dev) => e = { s.dev with ctl := e.ctl, regs := e.regs } ∧ s.dev.regsBut e [0x48]
      let met := s.dev.waiting 1 = true ∧ s.dev.g F.seq_LAYER_STAT_OPEN = 0 ∧ s.dev.seq.endFrame = none
      (s.dev.st = 5 → Word.f v 3 0 = 1 → Answers (.arm v) s (fun e => ok 1 e ∧ rest e))
        ∧ (s.dev.st = 6 → Word.f v 3 0 = 2 → Answers (.start v) s (fun e => ok 2 e ∧ rest e))
        ∧ (s.dev.st = 7 → Word.f v 3 0 = 3 → ¬ met → Answers (.stop v) s (fun e => ok 3 e ∧ rest e))
        ∧ (s.dev.st = 7 → Word.f v 3 0 = 3 → met → Answers (.stop v) s (fun e => ok 3 e
            ∧ e.seq = { s.dev.seq with endFrame := some s.dev.time.frame, endIsStop := true } ∧ e.g F.seq_RESUME_ENTRY = s.dev.pc))
        ∧ (s.dev.st = 6 → Word.f v 3 0 = 5 → Answers (.disarm v) s (fun e => ok 5 e ∧ rest e)))
    ∧ ∀ (v : Word) (s : State), s.lets 0x44 → Word.f v 31 16 = 0x4B4D → Word.f v 3 0 = 4 → s.dev.st = 6 ∨ s.dev.st = 7 →
        Answers (.abort v) s (fun e => e.ctl = { s.dev.ctl with cmd := 4, cmdFrame := s.dev.time.frame } ∧ e.g F.sys_CMD_STAT_CMD = 4
          ∧ e.g F.sys_CMD_STAT_RESULT = 1 ∧ s.dev.onlyEvent { e with ctl := s.dev.ctl } ∧ (s.dev.ctl.cmd ≠ 0 → e.g ⟨0x10, 1, 1⟩ = 1)))
  ∧ (
    ∀ (c : Instr) (n : Nat) (v : Word) (s : State), s.lets 0x44 → Word.f v 3 0 = n →
      (n = 1 ∧ c = .arm v ∨ n = 2 ∧ c = .start v ∨ n = 3 ∧ c = .stop v ∨ n = 4 ∧ c = .abort v ∨ n = 5 ∧ c = .disarm v) →
      let res := fun (r : Nat) (e : Dev) => s.dev.onlyEvent e ∧ e.g F.sys_CMD_STAT_CMD = n ∧ e.g F.sys_CMD_STAT_RESULT = r ∧ e.g ⟨0x10, 1, 1⟩ = 1
        ∧ s.dev.regsBut e (0x48 :: evtAddrs 0)
      (Word.f v 31 16 ≠ 0x4B4D → Answers c s (res 4))
        ∧ (Word.f v 31 16 = 0x4B4D → n ≠ 4 → s.dev.ctl.cmd ≠ 0 → Answers c s (res 1))
        ∧ (Word.f v 31 16 = 0x4B4D → n = 4 → s.dev.st ≠ 6 → s.dev.st ≠ 7 → Answers c s (res 2))
        ∧ (Word.f v 31 16 = 0x4B4D → s.dev.ctl.cmd = 0 → (n = 1 ∧ s.dev.st ≠ 5 ∨ (n = 2 ∨ n = 5) ∧ s.dev.st ≠ 6 ∨ n = 3 ∧ s.dev.st ≠ 7) → Answers c s (res 2)))

/-- SYS_CMD_EFFECT: in native mode, in a frame after that of its acceptance, where no fault cause and no internal ABORT of an earlier frame waits: START enters RUNNING at
entry 0 of the table and DISARM enters IDLE, each with result 0; ARM enters ARMED with result 0 where its preconditions hold after the table's check, and else is refused
with result 3; ABORT, while no controlled stop runs, begins one of at most 400 frames with result 0. Where such a cause or ABORT waits, the command is refused with result
2 and the state stays. -/
def Obligations.SysCommandsTakeEffect : Prop :=
  ∀ s : State, s.dev.ctl.cmdFrame < s.dev.time.frame → s.dev.g F.sys_SYS_STATE_MODE ≠ 2 →
    let done := fun (r : Nat) (e : Dev) => e.ctl.cmd = 0 ∧ e.g F.sys_CMD_STAT_CMD = s.dev.ctl.cmd % 16 ∧ e.g F.sys_CMD_STAT_RESULT = r ∧ e.g ⟨0x10, 1, 1⟩ = 1
    (s.dev.overruled = false → s.dev.ctl.cmd = 1 → s.dev.tblCheck.armOk = true → Answers .sysCmdEffect s (fun e => e.st = 6 ∧ done 0 e))
      ∧ (s.dev.overruled = false → s.dev.ctl.cmd = 1 → s.dev.tblCheck.camMark.armOk = false →
          Answers .sysCmdEffect s (fun e => e.st = s.dev.st ∧ done 3 e))
      ∧ (s.dev.overruled = false → s.dev.ctl.cmd = 2 → Answers .sysCmdEffect s (fun e => e.st = 7 ∧ e.pc = 0 ∧ e.seq.fresh = true ∧ done 0 e))
      ∧ (s.dev.overruled = false → s.dev.ctl.cmd = 5 → Answers .sysCmdEffect s (fun e => e.st = 5 ∧ done 0 e))
      ∧ (s.dev.overruled = false → s.dev.ctl.cmd = 4 → s.dev.ctl.stop = none →
          ∃ t, exec .sysCmdEffect s = .next t ∧ t.dev.ctl.stop = some .abort ∧ t.dev.ctl.stopLeft = 400 ∧ done 0 t.dev ∧ t.nor = s.nor ∧ t.otp = s.otp
            ∧ t.iso = s.iso)
      ∧ (s.dev.overruled = true → s.dev.ctl.cmd ≠ 0 → Answers .sysCmdEffect s (fun e => e.st = s.dev.st ∧ done 2 e))

/-- DEV_RESET: with its key, where none is pending and no controlled stop runs, waits with the frame of its write and changes nothing else; any other value, and any value
under THERMAL_CRIT, changes nothing at all. CONTROLLED_STOP: in a later frame, where no controlled stop runs, its controlled stop of at most 400 frames begins; NOR, OTP,
DRAM and the isolated die stay. CONTROLLED_STOP_END: a controlled stop whose 400 frames are over ends: that of an ABORT in IDLE with LAYER_STAT.LAST 0, that of a fault
with no other change, that of the watchdog's ABORT in FAULT_LATCHED with cause HOST_WDOG; and the ramp of the axes to rest that follows a DEV_RESET's stop ends in ROM,
with the mode, OTP, NOR and the frame number kept. -/
def Obligations.DevResetAndControlledStops : Prop :=
  (
    (∀ s : State, s.lets 0x4C → ¬ (s.dev.st = 8 ∧ s.dev.g F.sys_SYS_STATE_FAULT_CAUSE = 1) → s.dev.ctl.resetPend = false → s.dev.ctl.stop = none →
      Answers (.devReset 0xDE125E70) s (fun e => e = { s.dev with ctl := { s.dev.ctl with resetPend := true, resetFrame := s.dev.time.frame } }))
    ∧ (∀ (v : Word) (s : State), s.lets 0x4C → (v ≠ 0xDE125E70 ∨ s.dev.st = 8 ∧ s.dev.g F.sys_SYS_STATE_FAULT_CAUSE = 1) → exec (.devReset v) s = .next s)
    ∧ ∀ s : State, s.dev.ctl.resetPend = true → s.dev.ctl.resetFrame < s.dev.time.frame → s.dev.ctl.stop = none →
        ∃ t, exec .controlledStop s = .next t ∧ t.dev.ctl.stop = some .devReset ∧ t.dev.ctl.stopLeft = 400 ∧ t.dev.ctl.resetPend = false ∧ t.nor = s.nor
          ∧ t.mem = s.mem ∧ t.otp = s.otp ∧ t.iso = s.iso)
  ∧ (
    ∀ s : State, s.dev.ctl.stopLeft = 0 →
      (s.dev.ctl.stop = some .abort → Answers .controlledStopEnd s (fun e => e.st = 5 ∧ e.ctl.stop = none ∧ e.g F.seq_LAYER_STAT_LAST = 0))
        ∧ (s.dev.ctl.stop = some .fault → Answers .controlledStopEnd s (fun e => e = { s.dev with ctl := { s.dev.ctl with stop := none } }))
        ∧ (s.dev.ctl.stop = some .abortFault → Answers .controlledStopEnd s (fun e => e.st = 8 ∧ e.g F.sys_SYS_STATE_FAULT_CAUSE = 6))
        ∧ (s.dev.ctl.stop = some .devRest → ∃ t, exec .controlledStopEnd s = .next t ∧ t.dev.st = 1
            ∧ t.dev.g F.sys_SYS_STATE_MODE = s.dev.g F.sys_SYS_STATE_MODE ∧ t.otp = s.otp ∧ t.nor = s.nor ∧ t.dev.time.frame = s.dev.time.frame))

/-- MP_LOCKSTEP and ISO_LOST: outside POR and FAULT_LATCHED a divergence of the management processors is recorded as cause 2, and 8 frames without a report, counted after
the first one, as cause 5, and nothing else changes. FAULT_LATCH_ENTRY: in WAIT_IMAGE or later, in a frame after that of the causes, with no controlled stop and no
command pending, the lowest of the causes is latched in FAULT_LATCHED and a controlled stop of at most 400 frames begins; NOR, OTP, DRAM and the isolated die stay.
HOST_KICK restarts the watchdog and changes nothing else. HOST_WDOG_WRITE: while the SYS page is not locked it sets TIMEOUT and ACTION, restarts the watchdog and changes
nothing else. WDOG: in ARMED and RUNNING, with a TIMEOUT whose frames have passed and that has not expired, the expiry sets the event; ACTION 1 asks for an ABORT that
ends latched, ACTION 0 for a STOP in RUNNING and for nothing else in ARMED. -/
def Obligations.FaultsAndTheHostWatchdog : Prop :=
  (
    (∀ s : State, s.dev.st ≠ 0 → s.dev.st ≠ 8 →
      Answers .mpLockstep s (fun e => e.ctl.faults = s.dev.ctl.faults ++ [2] ∧ e = { s.dev with ctl := e.ctl })
        ∧ (s.dev.link.everRx = true → 8 ≤ s.dev.link.missRun →
            Answers .isoLost s (fun e => e.ctl.faults = s.dev.ctl.faults ++ [5] ∧ e = { s.dev with ctl := e.ctl })))
    ∧ ∀ (s : State) (c : Nat) (cs : List Nat), 2 ≤ s.dev.st → s.dev.ctl.faults = c :: cs → s.dev.ctl.faultFrame < s.dev.time.frame → s.dev.ctl.stop = none →
        s.dev.ctl.cmd = 0 → (∀ x ∈ c :: cs, x < 256) →
        ∃ t, exec .faultLatchEntry s = .next t ∧ t.dev.st = 8 ∧ t.dev.ctl.stop = some .fault ∧ t.dev.ctl.stopLeft = 400 ∧ t.dev.ctl.faults = []
          ∧ (∃ k ∈ c :: cs, t.dev.g F.sys_SYS_STATE_FAULT_CAUSE = k ∧ ∀ x ∈ c :: cs, k ≤ x) ∧ t.nor = s.nor ∧ t.mem = s.mem ∧ t.otp = s.otp ∧ t.iso = s.iso)
  ∧ (
    (∀ (v : Word) (s : State), s.lets 0x54 →
      Answers (.hostKick v) s (fun e => e = { s.dev with ctl := { s.dev.ctl with wdogFrames := 0, wdogExpired := false } }))
    ∧ (∀ (v : Word) (s : State), s.lets 0x50 → s.dev.g (F.hdr_PAGE_CTRL_LOCK 0) = 0 →
      Answers (.hostWdogWrite v) s (fun e => e.g F.sys_HOST_WDOG_TIMEOUT = Word.f v 15 0 ∧ e.g F.sys_HOST_WDOG_ACTION = Word.f v 16 16
        ∧ e.ctl = { s.dev.ctl with wdogFrames := 0, wdogExpired := false } ∧ s.dev.regsBut e [0x50]))
    ∧ ∀ s : State, s.dev.st = 6 ∨ s.dev.st = 7 → s.dev.g F.sys_HOST_WDOG_TIMEOUT ≠ 0 → s.dev.ctl.wdogExpired = false →
        msFrames (s.dev.g F.sys_HOST_WDOG_TIMEOUT) ≤ s.dev.ctl.wdogFrames →
        Answers .wdog s (fun e => e.g ⟨0x10, 2, 2⟩ = 1 ∧ e.ctl.wdogExpired = true
          ∧ (s.dev.g F.sys_HOST_WDOG_ACTION = 1 → e.ctl.abortInt = some true)
          ∧ (s.dev.g F.sys_HOST_WDOG_ACTION = 0 → s.dev.st = 7 → e.ctl.stopInt = true)
          ∧ (s.dev.g F.sys_HOST_WDOG_ACTION = 0 → s.dev.st = 6 → e.ctl = { s.dev.ctl with wdogExpired := true })))


/-! ### The PCIe endpoint and the page header (02 R43 to R61, R537) -/

/-- Outside POR. PCIE_LINK_DOWN resets the endpoint's MSI-X state and the block registers of its page alone, and is recorded. PCIE_LINK_UP, while the link is down, shows
its width and speed and is recorded. D3HOT_ENTRY is recorded and is fault cause 7 in ARMED and RUNNING. D0_RETURN keeps all other state. While the link is up.
MSIX_ENABLE, where MSI-X was not enabled, sends the message of every asserted vector that is unmasked and out of its holdoff. MSIX_UNMASK sends the pending message of a
vector out of its holdoff. HOLDOFF_EXPIRE, of an unmasked vector, sends the message that fell due in the holdoff once and begins the next interval. -/
def Obligations.PcieLinkPowerAndMessages : Prop :=
  (
    ∀ s : State, s.dev.st ≠ 0 →
      Answers .pcieLinkDown s (fun e => s.dev.onlyEvent e ∧ e.pcie.msixEn = false ∧ e.pcie.pba = [] ∧ e.pcie.msix = [] ∧ e.g F.pcie_LINK_STAT_UP = 0
          ∧ e.g F.pcie_LINK_STAT_WIDTH = 0 ∧ e.g F.pcie_BAD_ACC_COUNT = 0 ∧ e.g ⟨0x100010, 1, 1⟩ = 1
          ∧ ∀ a, (a < 0x100000 ∨ 0x101000 ≤ a) → a ∉ evtAddrs 0x100000 → e.reg a = s.dev.reg a)
        ∧ (∀ (w : Fin 9) (sp : Fin 5), s.dev.g F.pcie_LINK_STAT_UP = 0 → w.val ∈ [1, 2, 4, 8] → sp.val ≠ 0 →
            Answers (.pcieLinkUp w sp) s (fun e => s.dev.onlyEvent e ∧ e.g F.pcie_LINK_STAT_UP = 1 ∧ e.g F.pcie_LINK_STAT_WIDTH = w.val
              ∧ e.g F.pcie_LINK_STAT_SPEED = sp.val ∧ e.g ⟨0x100010, 2, 2⟩ = 1 ∧ s.dev.regsBut e (0x100040 :: evtAddrs 0x100000)))
        ∧ (s.dev.pcie.d3 = false → Answers .d3hotEntry s (fun e => e.pcie.d3 = true ∧ e.g ⟨0x100010, 3, 3⟩ = 1
            ∧ e.ctl.faults = s.dev.ctl.faults ++ (if s.dev.st = 6 ∨ s.dev.st = 7 then [7] else [])
            ∧ (s.dev.st ≠ 6 → s.dev.st ≠ 7 → s.dev.onlyEvent e)))
        ∧ Answers .d0Return s (fun e => e = { s.dev with pcie := { s.dev.pcie with d3 := false } }))
  ∧ (
    ∀ s : State, s.dev.g F.pcie_LINK_STAT_UP = 1 →
      (s.dev.pcie.msixEn = false →
        Answers (.msixEnable false) s (fun e => e = { s.dev with pcie := e.pcie } ∧ e.pcie.msixEn = true ∧ e.pcie.fnMask = false
          ∧ ∀ v < 64, s.dev.g (pendFld v) = 1 → (Tab.get (fun k => if k % 4 = 3 then 1 else 0) s.dev.pcie.msix (4 * v + 3)).getLsbD 0 = false →
              (Tab.at {} s.dev.pcie.hold v).until_ ≤ s.dev.now → v ∈ e.pcie.sent))
      ∧ (∀ v : Fin 64, s.lets (0x101000 + 16 * v.val + 12) → s.dev.pcie.msixEn = true → s.dev.pcie.fnMask = false → v.val ∈ s.dev.pcie.pba →
          (Tab.at {} s.dev.pcie.hold v.val).until_ ≤ s.dev.now →
          Answers (.msixUnmask v) s (fun e => e = { s.dev with pcie := e.pcie } ∧ v.val ∈ e.pcie.sent ∧ v.val ∉ e.pcie.pba
            ∧ e.vecMasked v.val = false))
      ∧ ∀ v : Fin 64, s.dev.pcie.msixEn = true → s.dev.vecMasked v.val = false → (Tab.at {} s.dev.pcie.hold v.val).deferred = true →
          (Tab.at {} s.dev.pcie.hold v.val).until_ ≤ s.dev.now →
          Answers (.holdoffExpire v) s (fun e => e = { s.dev with pcie := e.pcie } ∧ e.pcie.sent = v.val :: s.dev.pcie.sent
            ∧ Tab.at {} e.pcie.hold v.val = ⟨s.dev.now + 500 * s.dev.g (F.irq_HOLDOFF v.val), false⟩))

/-- BAR2_WRITE and BAR2_READ byte by byte. While DRAM is reachable and nothing waits in the memory controller, a write changes exactly its bytes below the device region,
a read answers the bytes below the capacity and 0xFF above it; an access that reaches further is a BAD_ACCESS on BAR2, with the offset of its first byte there. Before
WAIT_IMAGE, and from a DEV_RESET on, writes are discarded and reads answer 0xFF. BAD_ACCESS, outside POR: a misaligned, wrongly sized or unmapped access of BAR0 is
counted with its offset and recorded; a bad read answers as many bytes as it asked for. REGISTER_WRITE of 64 bits where no 64-bit access is allowed is such an access. A
good read answers the bytes there and changes nothing else; the row does nothing for a good write. -/
def Obligations.DramWindowAndBadAccesses : Prop :=
  (
    ∀ (ofs : BitVec 36) (data : List Byte) (len : Nat) (s : State),
      (s.dev.bar2Live = true → s.dev.quiet = true →
        (∃ t, exec (.bar2Write ofs data) s = .next t ∧ t.nor = s.nor ∧ t.otp = s.otp ∧ t.iso = s.iso
          ∧ (∀ a, memByte t.mem a = if ofs.toNat ≤ a ∧ a < ofs.toNat + data.length ∧ a < s.dev.devRegion then data.getD (a - ofs.toNat) 0
              else memByte s.mem a)
          ∧ (ofs.toNat + data.length ≤ s.dev.devRegion → s.dev.onlyDdr t.dev)
          ∧ (s.dev.devRegion < ofs.toNat + data.length → data ≠ [] → ofs.toNat + data.length ≤ 2 ^ 36 → t.dev.g F.pcie_BAD_ACC_ADDR_HI_BAR = 1 ∧ t.dev.g ⟨0x100010, 0, 0⟩ = 1
              ∧ t.dev.g2 F.pcie_BAD_ACC_ADDR_LO F.pcie_BAD_ACC_ADDR_HI_OFS = max ofs.toNat s.dev.devRegion))
        ∧ Answers (.bar2Read ofs len) s (fun e =>
            e.pcie.rdata = (List.range len).map (fun i => if ofs.toNat + i < s.dev.capacity then (memByte s.mem (ofs.toNat + i)).toNat else 0xFF)
              ∧ (ofs.toNat + len ≤ s.dev.capacity → s.dev.onlyDdr e)
              ∧ (s.dev.capacity < ofs.toNat + len → len ≠ 0 → ofs.toNat + len ≤ 2 ^ 36 → e.g F.pcie_BAD_ACC_ADDR_HI_BAR = 1
                  ∧ e.g2 F.pcie_BAD_ACC_ADDR_LO F.pcie_BAD_ACC_ADDR_HI_OFS = max ofs.toNat s.dev.capacity)))
      ∧ (s.dev.bar2Live = false → exec (.bar2Write ofs data) s = .next s
        ∧ Answers (.bar2Read ofs len) s (fun e => e.pcie.rdata = List.replicate len 0xFF ∧ e = { s.dev with pcie := e.pcie })))
  ∧ (
    (∀ (a : BitVec 26) (w : Bool) (len : Nat) (s : State), s.dev.st ≠ 0 → s.dev.goodAccess a.toNat len = false →
      Answers (.badAccess a w len) s (fun e => s.dev.badAccess a.toNat e ∧ (w = false → e.pcie.rdata.length = len)))
    ∧ (∀ (a : BitVec 26) (lo hi : Word) (s : State), s.lets a.toNat → wideWindow a.toNat = false → widePair a.toNat = false →
      Answers (.registerWrite a (.pair lo hi)) s (s.dev.badAccess a.toNat))
    ∧ ∀ (a : BitVec 26) (len : Nat) (s : State), s.dev.st ≠ 0 → s.dev.goodAccess a.toNat len = true →
        Answers (.badAccess a false len) s (fun e => e = { s.dev with pcie := e.pcie } ∧ e.pcie.rdata = s.dev.readBytes a.toNat len)
          ∧ exec (.badAccess a true len) s = .next s)

/-- The header commands of a page, outside POR. ERR_CLR, with LOCK and ENABLE as they stand and no SOFT_RESET, clears ERR_INFO and ERR_ADDR alone. EVT_RAW_CLEAR clears
the events named, but one set in the same cycle may stay. EVT_EN_WRITE takes the value. EVT_FORCE, in native mode, sets the events named and no other of its page, but of
the recorder's own page, which its records may join; on a locked page it is refused with 0x81 where it names an event. PAGE_CTRL, outside POR. In native mode without
ERR_CLR: PAGE_LOCK sets LOCK alone; PAGE_ENABLE is taken by the pages whose ENABLE resets to 0, and a change of it is refused with 0x84 by those that reset to 1, IBEX and
the DMA channels apart; SOFT_RESET is refused with 0x85 by the pages that take none, and by the real-time pages in ARMED and RUNNING, and in the other states returns the
block registers of SEQ, IBEX, FIRE, the axes, the bridge ports and ETH to their reset values; on a locked page a write that would change ENABLE, has LOCK 0 or has
SOFT_RESET is refused with 0x81. In SC-12 mode a write without ERR_CLR to a page other than BOOT, IRQ, TIME and CAL is a BAD_ACCESS. -/
def Obligations.PageHeadersFollowTheirCommands : Prop :=
  (
    ∀ (page : BitVec 26) (v : Word) (s : State), page.toNat ∈ pageBases → s.dev.st ≠ 0 →
      let p := page.toNat
      (Word.f v 3 3 = 1 → Word.f v 1 1 = 0 → Word.f v 2 2 = s.dev.g (F.hdr_PAGE_CTRL_LOCK p) → Word.f v 0 0 = s.dev.g (F.hdr_PAGE_CTRL_ENABLE p) →
        Answers (.errClr page v) s (fun e => s.dev.onlyRegs e ∧ e.reg (p + 0x20) = 0 ∧ e.reg (p + 0x24) = 0 ∧ s.dev.regsBut e [p + 0x20, p + 0x24]))
      ∧ Answers (.evtRawClear page v) s (fun e => e = { s.dev with regs := e.regs, pcie := e.pcie, evr := e.evr, freeCtr := e.freeCtr }
          ∧ s.dev.clearsOnes e (p + 0x10) (s.dev.reg (p + 0x10)) v ∧ s.dev.regsBut e [p + 0x10, 0x2040, 0x2044])
      ∧ Answers (.evtEnWrite page v) s (fun e => s.dev.onlyEvent e ∧ e.reg (p + 0x14) = v ∧ s.dev.regsBut e [p + 0x14, 0x2040, 0x2044])
      ∧ (s.dev.g F.sys_SYS_STATE_MODE ≠ 2 → s.dev.g (F.hdr_PAGE_CTRL_LOCK p) = 0 →
          Answers (.evtForce page v) s (fun e => s.dev.onlyEvent e ∧ (p ≠ 0x5000 → e.reg (p + 0x10) = s.dev.reg (p + 0x10) ||| v)
            ∧ s.dev.regsBut e (evtAddrs p)))
      ∧ (s.dev.g F.sys_SYS_STATE_MODE ≠ 2 → s.dev.g (F.hdr_PAGE_CTRL_LOCK p) = 1 → v ≠ 0 →
          Answers (.evtForce page v) s (s.dev.refused 0x81 (p + 0x18))))
  ∧ (
    ∀ (page : BitVec 26) (v : Word) (s : State) (r : PgInfo) (n : Nat), pageOf page.toNat = some (r, n) → page.toNat % 0x1000 = 0 → s.dev.st ≠ 0 →
      Word.f v 3 3 = 0 →
      let p := page.toNat
      let native := s.dev.g F.sys_SYS_STATE_MODE ≠ 2
      let same := Word.f v 0 0 = s.dev.g (F.hdr_PAGE_CTRL_ENABLE p)
      (native → s.dev.g (F.hdr_PAGE_CTRL_LOCK p) = 0 →
        (Word.f v 2 2 = 1 → Word.f v 1 1 = 0 → same →
          Answers (.pageLock page v) s (fun e => s.dev.onlyRegs e ∧ e.g (F.hdr_PAGE_CTRL_LOCK p) = 1
            ∧ e.g (F.hdr_PAGE_CTRL_ENABLE p) = s.dev.g (F.hdr_PAGE_CTRL_ENABLE p) ∧ s.dev.regsBut e [p + 8]))
        ∧ (Word.f v 2 2 = 0 → Word.f v 1 1 = 0 → ¬ same → r.pg ≠ .ibex → r.pg ≠ .dma → r.en = true →
          Answers (.pageEnable page v) s (s.dev.refused 0x84 (p + 8)))
        ∧ (Word.f v 2 2 = 0 → Word.f v 1 1 = 0 → ¬ same → r.en = false →
          Answers (.pageEnable page v) s (fun e => e.g (F.hdr_PAGE_CTRL_ENABLE p) = Word.f v 0 0 ∧ e = { s.dev with regs := e.regs, link := e.link }
            ∧ s.dev.regsBut e [p + 8]))
        ∧ (Word.f v 2 2 = 0 → Word.f v 1 1 = 1 → same → r.pg ∈ [.unit, .time, .sys, .boot, .irq, .evr, .hk, .cal, .ddr, .pcie] →
          Answers (.softReset page v) s (s.dev.refused 0x85 (p + 8)))
        ∧ (Word.f v 2 2 = 0 → Word.f v 1 1 = 1 → same → s.dev.st ≠ 6 → s.dev.st ≠ 7 → r.pg ∈ [.seq, .ibex, .fire, .ax, .bp, .eth] →
          Answers (.softReset page v) s (fun e => (∀ a, p + 0x40 ≤ a → a < p + 0x1000 → e.reg a = resetWord a)
            ∧ ∀ a, a < p + 0x40 ∨ p + 0x1000 ≤ a → e.reg a = s.dev.reg a))
        ∧ (Word.f v 2 2 = 0 → Word.f v 1 1 = 1 → same → s.dev.st = 6 ∨ s.dev.st = 7 → r.pg ∈ [.seq, .hd, .loop, .ploop, .ibex, .fire, .ax, .bp, .cp, .ip, .iso, .led] →
          Answers (.softReset page v) s (s.dev.refused 0x85 (p + 8))))
      ∧ (native → s.dev.g (F.hdr_PAGE_CTRL_LOCK p) = 1 → Word.f v 2 2 = 0 ∨ Word.f v 1 1 = 1 ∨ ¬ same →
          Answers (.pageEnable page v) s (s.dev.refused 0x81 (p + 8)))
      ∧ (s.dev.g F.sys_SYS_STATE_MODE = 2 → scWhole p = false → Answers (.pageEnable page v) s (s.dev.badAccess (p + 8))))

/-- SHADOW_POINT_WRITE, in native mode on an unlocked page: POINT is written on a page with shadowed fields, LAYER only where the page allows it, and refused with 0x86 on
a page without such fields. SHADOW_RELEASE of either bit that includes bit 0 moves every page at HOLD to LAYER, where bit 1 asks for it and the page allows it, else to
FRAME, and no other page. CNT_CLEAR clears the counts of its lane, camera port, bridge port, Ethernet port or barrier link, and nothing else. -/
def Obligations.ShadowPointsReleaseAndCounters : Prop :=
  (
    (∀ (page : BitVec 26) (v : Word) (s : State) (r : PgInfo) (n : Nat), pageOf page.toNat = some (r, n) → page.toNat % 0x1000 = 0 → s.dev.st ≠ 0 →
      s.dev.g F.sys_SYS_STATE_MODE ≠ 2 → s.dev.g (F.hdr_PAGE_CTRL_LOCK page.toNat) = 0 →
      let p := page.toNat
      (r.shd = true → (Word.f v 1 0 ≠ 1 ∨ r.lc = true) →
        Answers (.shadowPointWrite page v) s (fun e => s.dev.onlyRegs e ∧ e.g (F.hdr_SHADOW_CTRL_POINT p) = Word.f v 1 0
          ∧ e.g (F.hdr_SHADOW_CTRL_COMMIT_COUNT p) = s.dev.g (F.hdr_SHADOW_CTRL_COMMIT_COUNT p) ∧ s.dev.regsBut e [p + 0x28]))
      ∧ (r.shd = false → Answers (.shadowPointWrite page v) s (s.dev.refused 0x86 (p + 0x28))))
    ∧ ∀ (v : Word) (s : State), s.lets 0x58 → Word.f v 0 0 = 1 →
        Answers (.shadowRelease v) s (fun e => s.dev.onlyRegs e ∧ ∀ r ∈ pageIndex, ∀ i < r.count,
          let f := F.hdr_SHADOW_CTRL_POINT (r.base + 0x1000 * i)
          e.g f = if r.shd = true ∧ 2 ≤ s.dev.g f then (if Word.f v 1 1 = 1 ∧ r.lc = true then 1 else 0) else s.dev.g f))
  ∧ (
    ∀ (a : BitVec 26) (v : Word) (s : State), s.lets a.toNat →
      let clears := fun (l : List Nat) => Answers (.cntClear a v) s (fun e => s.dev.onlyRegs e ∧ (∀ x ∈ l, e.reg x = 0) ∧ s.dev.regsBut e l)
      (∀ h < 48, a.toNat = hdPage h + 0x398 →
        Answers (.cntClear a v) s (fun e => s.dev.onlyRegs e ∧ (∀ x ∈ [0x38C, 0x390, 0x394], e.reg (hdPage h + x) = 0) ∧ e.g (F.hd_MSG_RX_STAT_LOST h) = 0
          ∧ s.dev.regsBut e [hdPage h + 0x38C, hdPage h + 0x390, hdPage h + 0x394, (F.hd_MSG_RX_STAT_LOST h).addr]))
      ∧ (∀ n < 12, a.toNat = cpPage n + 0x64 → clears [cpPage n + 0x58, cpPage n + 0x5C, cpPage n + 0x60])
      ∧ (∀ n < 8, a.toNat = bpPage n + 0x50 → clears [bpPage n + 0x48, bpPage n + 0x4C])
      ∧ (∀ n < 2, a.toNat = 0x1100B8 + 0x40 * n → clears [(F.ethp_CNT_RX_FULL n).addr, (F.ethp_CNT_TX_BAD n).addr])
      ∧ (a.toNat = isoPage + 0x90 → clears [isoPage + 0x8C]))

/-- REGISTER_WRITE of 32 bits to a register without a rule of its own, here those of IRQ and of the power-loop pages: RW fields take the value at once, ones clear W1C
fields (one set in the same cycle may stay), RWS fields read the value and wait for their commit, and a write that would change a RW or RWS field of a locked page is
refused with 0x81. -/
def Obligations.PlainRegistersFollowTheirAccessCodes : Prop :=
  ∀ (a : BitVec 26) (v : Word) (s : State) (r : PgInfo) (n : Nat), pageOf a.toNat = some (r, n) → a.toNat % 4 = 0 → 0x40 ≤ a.toNat % 0x1000 →
    r.pg = .irq ∨ r.pg = .ploop → s.lets a.toNat →
    let rows := rowsAt r.pg (a.toNat % 0x1000)
    let m := BitVec.ofNat 32 (accMask rows (fun x => x == .rw || x == .rws))
    let c := BitVec.ofNat 32 (accMask rows (fun x => x == .w1c))
    (s.dev.g (F.hdr_PAGE_CTRL_LOCK (pageBase a.toNat)) = 0 ∨ (s.dev.reg a.toNat ^^^ v) &&& m = 0 →
      Answers (.registerWrite a (.word v)) s (fun e => e = { s.dev with regs := e.regs, freeCtr := e.freeCtr } ∧ s.dev.regsBut e [a.toNat]
        ∧ s.dev.clearsOnes e a.toNat ((s.dev.reg a.toNat &&& ~~~m) ||| (v &&& m)) (v &&& c) ∧ e.regs.live = s.dev.regs.live
        ∧ (accMask rows (fun x => x == .rws) = 0 → e.regs.pend = s.dev.regs.pend)
        ∧ (accMask rows (fun x => x == .rws) ≠ 0 → e.regs.pend = s.dev.regs.pend ++ [⟨a.toNat, accMask rows (fun x => x == .rws), v.toNat, s.dev.lateDue⟩])))
    ∧ (s.dev.g (F.hdr_PAGE_CTRL_LOCK (pageBase a.toNat)) = 1 → (s.dev.reg a.toNat ^^^ v) &&& m ≠ 0 →
        Answers (.registerWrite a (.word v)) s (s.dev.refused 0x81 a.toNat))


/-! ### The sequencer, layers and frames (01 R37 to R42, 03 R76 to R97, R111) -/

/-- SEQ_TABLE_WRITE: a write of the sequencer table window is taken in IDLE and changes the one word; in any other state it is discarded and counted in SEQ.ERR_INFO. -/
def Obligations.SequencerTableIsWrittenInIdleOnly : Prop :=
  ∀ (ofs : BitVec 16) (v : Word) (s : State), s.lets (0x1010000 + ofs.toNat) → ofs.toNat % 4 = 0 →
    (s.dev.st = 5 → Answers (.seqTableWrite ofs v) s (fun e => e = { s.dev with seqTab := e.seqTab } ∧ Tab.at 0 e.seqTab ofs.toNat = v
        ∧ ∀ o, o ≠ ofs.toNat → Tab.at 0 e.seqTab o = Tab.at 0 s.dev.seqTab o))
    ∧ (s.dev.st ≠ 5 → Answers (.seqTableWrite ofs v) s (fun e => s.dev.onlyRegs e ∧ s.dev.regsBut e [0x8020, 0x8024]
        ∧ e.g (F.hdr_ERR_INFO_COUNT 0x8000) = min (s.dev.g (F.hdr_ERR_INFO_COUNT 0x8000) + 1) 255))

/-- CONTEXT_WINDOW_WRITE changes its word of the window alone, the bits that the fields cover, and not the set in force; a write of CTX0 is counted in ERR_INFO instead.
CTX_COMMIT of a context but 0 queues its commit in place of an earlier request and shows it pending; of context 0 it is refused with 0x82. TBL_CHECK with bit 0 shows the
validation. LQ_RESET with bit 0 clears LQ_RD in IDLE and is refused with 0x82 elsewhere. -/
def Obligations.ContextsTableCheckAndQueueReset : Prop :=
  (∀ (ofs : BitVec 15) (v : Word) (s : State), s.lets (0x1000000 + ofs.toNat) → ofs.toNat % 4 = 0 →
    (0x80 ≤ ofs.toNat → Answers (.contextWindowWrite ofs v) s (fun e => Tab.at 0 e.ctxWin ofs.toNat = v &&& BitVec.ofNat 32 (ctxMask (ofs.toNat % 0x80))
      ∧ (∀ o, o ≠ ofs.toNat → Tab.at 0 e.ctxWin o = Tab.at 0 s.dev.ctxWin o)
      ∧ e = { s.dev with ctxWin := e.ctxWin, ctxCrossed := e.ctxCrossed, seq := { s.dev.seq with ctxLate := e.seq.ctxLate } }))
    ∧ (ofs.toNat < 0x80 → Answers (.contextWindowWrite ofs v) s (fun e => s.dev.onlyRegs e ∧ s.dev.regsBut e [0x8020, 0x8024]
      ∧ e.g (F.hdr_ERR_INFO_COUNT 0x8000) = min (s.dev.g (F.hdr_ERR_INFO_COUNT 0x8000) + 1) 255)))
  ∧ (∀ (v : Word) (s : State), s.lets 0x8070 →
    (Word.f v 7 0 ≠ 0 → Answers (.ctxCommit v) s (fun e =>
      e.seq = { s.dev.seq with ctxReq := s.dev.seq.ctxReq.filter (fun q => q.1 != Word.f v 7 0) ++ [(Word.f v 7 0, decide (Word.f v 8 8 = 1), s.dev.lateDue)] }
        ∧ e.g (ctxPendFld (Word.f v 7 0)) = 1 ∧ e = { s.dev with regs := e.regs, seq := e.seq } ∧ s.dev.regsBut e [(ctxPendFld (Word.f v 7 0)).addr]))
    ∧ (Word.f v 7 0 = 0 → Answers (.ctxCommit v) s (s.dev.refused 0x82 0x8070)))
  ∧ (∀ (v : Word) (s : State), s.lets 0x804C → Word.f v 0 0 = 1 →
    Answers (.tblCheck v) s (fun e => s.dev.onlyRegs e ∧ s.dev.regsBut e [0x8048]
      ∧ (s.dev.tblValidate = none → e.g F.seq_TBL_STAT_VALID = 1 ∧ e.g F.seq_TBL_STAT_ERR_CODE = 0)
      ∧ ∀ c n, s.dev.tblValidate = some (c, n) → e.g F.seq_TBL_STAT_VALID = 0 ∧ e.g F.seq_TBL_STAT_ERR_CODE = c % 256
          ∧ e.g F.seq_TBL_STAT_ERR_ENTRY = n % 4096))
  ∧ ∀ (v : Word) (s : State), s.lets 0x8060 → Word.f v 0 0 = 1 →
      (s.dev.st = 5 → Answers (.lqReset v) s (fun e => s.dev.onlyRegs e ∧ e.g F.seq_LQ_RD = 0 ∧ s.dev.regsBut e [F.seq_LQ_RD.addr]))
      ∧ (s.dev.st ≠ 5 → Answers (.lqReset v) s (s.dev.refused 0x82 0x8060))

/-- An entry of the table that has just been taken: NOP, EVENT, which sets its event, OUT_SET, which sets the outputs its mask names, and AUX_START, which leaves the axes
not in its mask, complete with the next entry; JUMP with the entry it names, BR_MORE with it unless the last layer closed was the last, BR_RESUMED with it, or with
RESUME_ENTRY, in a resumed run, else the next. LAYER_OPEN waits in step 3, but with a STOP pending and no layer open saves the entry and decides the end of the run;
LAYER_CLOSE, AUX_WAIT, DELAY and IN_WAIT wait in step 2; END sets JOB_END and decides the end of the run. DELAY_DONE: a DELAY whose frames have passed ends, and the next
entry is taken. WAIT_ENTRY_DONE: AUX_WAIT and IN_WAIT end likewise in a later frame in which their condition holds. STALL: one whose timeout has passed without it stalls
in step 4 and is recorded. CONTINUE in step 4 lets the entry go on with its key and does nothing without it. -/
def Obligations.SequencerEntriesActAndWait : Prop :=
  (
    ∀ s : State,
      let d := s.dev
      let waits := fun (k : Nat) (e : Dev) => e.seq = { d.seq with fresh := false, done := false } ∧ e.g F.seq_SEQ_STAT_STEP = k ∧ e.pc = d.pc
        ∧ d.regsBut e [0x8040]
      (d.atEntry 0x00 → Answers .nop s (fun e => d.completed (d.pc + 1) e ∧ d.regsBut e [0x8040]))
      ∧ (d.atEntry 0x09 → Answers .event s (fun e => d.completed (d.pc + 1) e ∧ e.g ⟨0x8010, 9, 9⟩ = 1 ∧ d.regsBut e (0x8040 :: evtAddrs 0x8000)))
      ∧ (d.atEntry 0x0A → Answers .jump s (fun e => d.completed (d.entA0 d.pc) e ∧ d.regsBut e [0x8040]))
      ∧ (d.atEntry 0x0B → Answers .brMore s (fun e => d.regsBut e [0x8040] ∧
          d.completed (if d.seq.closedSince = false ∨ d.seq.closedLast = false then d.entA0 d.pc else d.pc + 1) e))
      ∧ (d.atEntry 0x0C → Answers .brResumed s (fun e => d.regsBut e [0x8040] ∧
          d.completed (if d.g F.seq_SEQ_STAT_RESUMED = 0 then d.pc + 1 else if d.entFlags d.pc % 2 = 1 then d.g F.seq_RESUME_ENTRY else d.entA0 d.pc) e))
      ∧ (d.atEntry 0x07 → Answers .outSet s (fun e => d.completed (d.pc + 1) e ∧ d.regsBut e [0x8040, F.iso_DO_OUT.addr]
          ∧ ∀ b < 16, bit (e.g F.iso_DO_OUT) b = if bit (d.entA1 d.pc) b then bit (d.entA2 d.pc) b else bit (d.g F.iso_DO_OUT) b))
      ∧ (d.atEntry 0x04 → Answers .auxStart s (fun e => d.completed (d.pc + 1) e
          ∧ ∀ n < 16, bit (d.entA0 d.pc) n = false → Tab.at {} e.axes n = Tab.at {} d.axes n))
      ∧ (d.atEntry 0x0D → Answers .endEntry s (fun e => e.seq = { d.seq with fresh := false, endFrame := some d.time.frame, endIsStop := false }
          ∧ e.g ⟨0x8010, 10, 10⟩ = 1 ∧ d.regsBut e (evtAddrs 0x8000)))
      ∧ (d.atEntry 0x01 → ¬ (d.stopPending = true ∧ d.g F.seq_LAYER_STAT_OPEN = 0) → Answers .layerOpen s (waits 3))
      ∧ (d.atEntry 0x01 → d.stopPending = true → d.g F.seq_LAYER_STAT_OPEN = 0 → Answers .layerOpen s (fun e => e.g F.seq_RESUME_ENTRY = d.pc
          ∧ e.seq = { d.seq with fresh := false, done := false, endFrame := some d.time.frame, endIsStop := true }))
      ∧ (d.atEntry 0x03 → Answers .layerClose s (waits 2)) ∧ (d.atEntry 0x05 → Answers .auxWait s (waits 2))
      ∧ (d.atEntry 0x06 → Answers .delay s (waits 2)) ∧ (d.atEntry 0x08 → Answers .inWait s (waits 2)))
  ∧ (
    ∀ s : State,
      let d := s.dev
      (d.waitsAt 0x06 → d.seq.takenFrame + d.entA1 d.pc ≤ d.time.frame →
        Answers .delayDone s (fun e => d.tookEntry (d.pc + 1) e ∧ d.regsBut e [0x8040]))
      ∧ (d.waitsAt 0x05 ∨ d.waitsAt 0x08 → d.g F.seq_SEQ_STAT_STEP = 2 →
          (d.seq.takenFrame < d.time.frame → d.waitOk = true → Answers .waitEntryDone s (fun e => d.tookEntry (d.pc + 1) e ∧ d.regsBut e [0x8040]))
          ∧ (d.waitTimeout ≠ 0 → d.seq.takenFrame + d.waitTimeout ≤ d.time.frame → d.waitOk = false →
              Answers .stall s (fun e => e.g F.seq_SEQ_STAT_STEP = 4 ∧ e.g F.seq_STALL_INFO_ENTRY = d.pc ∧ e.pc = d.pc ∧ e.g ⟨0x8010, 8, 8⟩ = 1
                ∧ d.onlyEvent e ∧ d.regsBut e ([0x8040, F.seq_STALL_INFO_ENTRY.addr] ++ evtAddrs 0x8000))))
      ∧ (s.lets 0x807C → d.g F.seq_SEQ_STAT_STEP = 4 → ∀ v : Word,
          (Word.f v 15 0 = 0x434F → Answers (.continueEntry v) s (fun e => e.g F.seq_SEQ_STAT_STEP = 2 ∧ e.seq = { d.seq with takenFrame := d.time.frame }
            ∧ e.pc = d.pc ∧ d.regsBut e [0x8040]))
          ∧ (Word.f v 15 0 ≠ 0x434F → exec (.continueEntry v) s = .next s)))

/-- FRAME_BOUNDARY: with the PLLs locked the next frame begins at cycle 0, and NOR and OTP stay; else it does nothing. OPEN_LAYER: where the layer may open, it shows the
layer of the descriptor open, and the sequencer takes the next entry; else it does nothing. EXPOSE, just taken, completes with the next entry, and in an open layer that
has none yet fixes the layer's first plan entry 16 frames on. LAYER_BOUNDARY: at the layer's end it shows the layer closed; NOR and OTP stay, and of the isolated die all
but the LE commands; where nothing waits in the memory controller once the layer's commits have been made, DRAM changes in READY, which is 0, and the result words of the
layer's descriptor alone. -/
def Obligations.FramesAndLayersGoOn : Prop :=
  ∀ s : State,
    (∀ (ok : Bool) (ck : FrameCheck),
      (s.dev.ctl.pllLocked = true → ∃ t, exec (.frameBoundary ok ck) s = .next t ∧ t.dev.time.frame = s.dev.time.frame + 1 ∧ t.dev.time.cycle = 0
        ∧ t.nor = s.nor ∧ t.otp = s.otp)
      ∧ (s.dev.ctl.pllLocked = false → exec (.frameBoundary ok ck) s = .next s))
    ∧ (s.dev.mayOpen = true → Answers .openLayer s (fun e => e.g F.seq_LAYER_STAT_OPEN = 1 ∧ e.g F.seq_LAYER_NUM = nth s.dev.seq.desc 1 % 2 ^ 32
        ∧ e.seq.fresh = true ∧ e.g F.seq_SEQ_STAT_STEP = 1))
    ∧ (s.dev.mayOpen = false → exec .openLayer s = .next s)
    ∧ (s.dev.atEntry 0x02 → Answers .expose s (fun e => e.seq.done = true ∧ e.seq.next = s.dev.pc + 1 ∧ e.g F.seq_SEQ_STAT_STEP = 1
        ∧ (s.dev.g F.seq_LAYER_STAT_OPEN = 1 → s.dev.seq.exposed = false → e.seq.exposed = true ∧ e.seq.firstEntry = s.dev.time.frame + 16)))
    ∧ (s.dev.atLayerEnd = true → ∃ t, exec .layerBoundary s = .next t ∧ t.dev.g F.seq_LAYER_STAT_OPEN = 0 ∧ t.nor = s.nor ∧ t.otp = s.otp
        ∧ t.iso = { s.iso with st := { s.iso.st with leCmd := t.iso.st.leCmd }, rep := { s.iso.rep with leCmd := t.iso.rep.leCmd } }
        ∧ (let c := (s.dev.layerCommits s.nor).spansEnd
           let a := c.lqAddr (c.g F.seq_LQ_RD)
           c.quiet = true → (a + 4 ≤ c.capacity → mem32 t.mem a = 0)
           ∧ ∀ x, ¬ (a ≤ x ∧ x < a + 4) → ¬ (a + 0x20 ≤ x ∧ x < a + 0x30) → memByte t.mem x = memByte s.mem x))

/-- A commit takes every pending write that has crossed of a page that commits at this kind of boundary, and the others keep waiting; what is in force on other pages
stays, a register with one pending write takes its value under the write's mask, and no register reads otherwise than before but SHADOW_CTRL. -/
def Obligations.ACommitTakesAllOfAPage : Prop :=
  ∀ (d : Dev) (layer : Bool),
    (∀ w ∈ d.regs.pend, w ∈ (d.commit layer).regs.pend ↔ ¬ ((w.due < d.time.frame ∨ w.due = 0) ∧ d.commitsAt (pageBase w.addr) layer = true))
    ∧ (∀ a, d.commitsAt (pageBase a) layer = false → (d.commit layer).liveReg a = d.liveReg a)
    ∧ (∀ (a : Nat) (w : WPend), d.regs.pend.filter (fun x => x.addr == a) = [w] → w.due = 0 → d.commitsAt (pageBase a) layer = true →
        (d.commit layer).liveReg a = Word.mix (d.liveReg a) (BitVec.ofNat 32 w.mask) (BitVec.ofNat 32 w.val))
    ∧ ∀ a, a % 0x1000 ≠ 0x28 → (d.commit layer).reg a = d.reg a


/-! ### Streams and the scanner servo (01 R23, R24; 03 R92, R93; 04 R115 to R156) -/

/-- STREAM_RETRY: a head whose stream failed or ran short asks for the failed record again; else it does nothing. RECORD_FETCH_DONE: of a fetch under way, while nothing
waits in the memory controller, the burst brings its records behind those held, and the next is asked for while 32 or fewer unplanned ones remain; a burst that is
uncorrectable or poisoned is absent and brings none. STREAM_RESUME: at the boundary, in a frame after that in which the missing record arrived, the head goes on and shows
state 1. No other head changes. -/
def Obligations.StreamsFetchAndResume : Prop :=
  ∀ (h : Fin 48) (s : State),
    let hd := s.dev.hd h.val
    let others := fun (e : Dev) => ∀ k, k ≠ h.val → e.hd k = s.dev.hd k
    (∀ v : Word, s.lets (F.hd_STREAM_RETRY h.val).addr →
      (hd.active = true → (hd.bad = true ∨ hd.under = true) →
        Answers (.streamRetry h v) s (fun e => e = { s.dev with heads := e.heads } ∧ others e ∧ (e.hd h.val).bad = false ∧ (e.hd h.val).under = true
          ∧ (e.hd h.val).req = true ∧ (e.hd h.val).absent = false ∧ (e.hd h.val).fetched = hd.p.next))
      ∧ (hd.active = false ∨ (hd.bad = false ∧ hd.under = false) → exec (.streamRetry h v) s = .next s))
    ∧ (hd.req = true → hd.fetched < hd.count → s.dev.quiet = true →
        let a := hd.addr + 32 * hd.fetched
        let n := min (hd.count - hd.fetched) (if a % 64 = 0 then 2 else 1)
        Answers (.recordFetchDone h) s (fun e => others e
          ∧ ((s.dev.dramRead 0 a (32 * n)).1 = true → (e.hd h.val).req = false ∧ (e.hd h.val).absent = true ∧ (e.hd h.val).buf = hd.buf)
          ∧ ((s.dev.dramRead 0 a (32 * n)).1 = false → (e.hd h.val).absent = false ∧ (e.hd h.val).fetched = hd.fetched + n
              ∧ (e.hd h.val).buf = hd.buf ++ (List.range n).map (fun i => recAt s.mem (a + 32 * i))
              ∧ e.g (F.hd_REC_AVAIL h.val) = min 64 (hd.fetched + n - hd.p.next)
              ∧ ((e.hd h.val).req = true ↔ hd.active = true ∧ hd.fetched + n < hd.count ∧ hd.fetched + n - hd.p.next ≤ 32))))
    ∧ (hd.under = true → (hd.rec? 0).isSome = true → s.dev.time.cycle = 0 → hd.arrived < s.dev.time.frame →
        Answers (.streamResume h) s (fun e => others e ∧ (e.hd h.val).under = false ∧ e.g (F.hd_PLAN_STAT_STATE h.val) = 1
          ∧ s.dev.regsBut e [(F.hd_PLAN_STAT_STATE h.val).addr]))

/-- SAT_LIMIT_REACHED: under the primary law, in TRACK, PARKING or PARKED, a count at a limit that is not 0 changes to the fall-back law, whose command replaces the one
computed, and TRACK becomes FALLBACK. Of a slot that serves a head: COAST_EXPIRE, a coast longer than COAST_MAX, and PARK_TIMEOUT, a parking that PARK_TIME frames have
not ended, lead to CURRENT_PARK, take the head's place in the plan and ask for its failure with cause 2 or 3, unless an earlier cause, or a lower one at the same
boundary, waits. RECOVERED: RECOVER clean frames without FB_FORCE and with the laser off in plan entry F+2 lead back to TRACK. PARKED: 4 frames within PARK_TOL lead to
PARKED, and the head shows state 6 when its other slots are PARKED or in CURRENT_PARK. FE_FAULT: in TRACK or FALLBACK a count over FE_TIME leads to FAULTED and asks for
the failure with cause 1. Each sets its flag, where it has one, and its event, and no other slot changes mode; of others' traces FE_FAULT alone may be the trigger. What
the host asks of a head's servo. PARK_REQ with bit 0 is remembered for the next boundary. SERVO_RESTART with its key, FC_ACCEPT's key not beside it, begins the return:
each slot's held frames count from 0, one in CURRENT_PARK goes to OFF; without the key it does nothing. SERVO_HOLD_QUALIFIED: once each slot has held 400 frames the
return is complete, and no slot is faulted. FC_ACCEPT with its key, SERVO_RESTART's not beside it, makes the grid valid. FC_GRID_WRITE of a word of the head's grid is
taken in IDLE, reads back, changes no other word and makes the grid invalid; elsewhere it is counted in ERR_INFO. -/
def Obligations.ServoModesAndHostCommands : Prop :=
  (
    ∀ (n : Fin 160) (s : State),
      let d := s.dev
      let sl := d.slot n.val
      let others := fun (e : Dev) => ∀ k, k ≠ n.val → e.slot k = d.slot k
      let modes := fun (e : Dev) => ∀ k : Fin 160, k ≠ n → e.mode k.val = d.mode k.val
      let evt := fun (e : Dev) (b : Nat) => e.g ⟨loopPage n.val + 0x10, b, b⟩ = 1
      (d.mode n.val = 1 ∨ d.mode n.val = 4 ∨ d.mode n.val = 5 → sl.lawFb = false → d.v (sf F.slot_SAT_LIMIT n.val) ≠ 0 → d.v (sf F.slot_SAT_LIMIT n.val) ≤ sl.satCount →
        Answers (.satLimitReached n) s (fun e => e.mode n.val = (if d.mode n.val = 1 then 2 else d.mode n.val)
          ∧ e.g (sf F.slot_SLOT_FLAGS_FB_SAT n.val) = 1 ∧ evt e 1 ∧ others e ∧ modes e
          ∧ e.slot n.val = { sl with lawFb := true, c3 := sl.cmdFb, tTrig := (e.slot n.val).tTrig, tBurst := (e.slot n.val).tBurst } ∧ e.gi (sf F.slot_CMD_NOW n.val) = satS 16 sl.cmdFb))
      ∧ ∀ h a, d.servesAxis n.val = some (h, a) →
        (d.mode n.val = 3 → d.v (sf F.slot_COAST_MAX n.val) < d.g (sf F.slot_SLOT_STAT_COAST_COUNT n.val) →
          Answers (.coastExpire n) s (fun e => e.mode n.val = 6 ∧ e.g (sf F.slot_SLOT_FLAGS_PARK_CURRENT n.val) = 1 ∧ evt e 3 ∧ others e ∧ modes e
            ∧ (e.slot n.val).faulted = true ∧ (e.hd h).placed = false ∧ d.failsWith h 2 (d.time.frame - 1) e))
        ∧ (d.mode n.val = 4 → d.v (F.hd_PARK_TIME h) ≤ sl.parkFrames → sl.parkRun < 4 →
          Answers (.parkTimeout n) s (fun e => e.mode n.val = 6 ∧ e.g (sf F.slot_SLOT_FLAGS_PARK_CURRENT n.val) = 1 ∧ evt e 3 ∧ others e ∧ modes e
            ∧ (e.slot n.val).faulted = true ∧ (e.hd h).placed = false ∧ d.failsWith h 3 (d.time.frame - 1) e))
        ∧ (d.mode n.val = 2 → d.v (sf F.slot_RECOVER n.val) ≤ sl.clean → d.v (sf F.slot_SLOT_CTRL_FB_FORCE n.val) = 0 →
          (d.hd h).litIn (d.time.frame + 2) = false →
          Answers (.recovered n) s (fun e => e.mode n.val = 1 ∧ evt e 6 ∧ others e ∧ modes e
            ∧ e.slot n.val = { sl with lawFb := false, reinit := true }))
        ∧ (d.mode n.val = 4 → 4 ≤ sl.parkRun →
          Answers (.parked n) s (fun e => e.mode n.val = 5 ∧ evt e 4 ∧ (e.hd h).placed = false ∧ e.slots = d.slots ∧ modes e
            ∧ ((∀ k ∈ d.headSlots h, k ≠ n.val → d.mode k = 5 ∨ d.mode k = 6) → e.g (F.hd_PLAN_STAT_STATE h) = 6)))
        ∧ (d.mode n.val = 1 ∨ d.mode n.val = 2 → d.v (sf F.slot_FE_TIME n.val) < d.g (sf F.slot_SLOT_STAT_FE_COUNT n.val) →
          Answers (.feFault n) s (fun e => e.mode n.val = 7 ∧ e.g (sf F.slot_SLOT_FLAGS_FE_FAULT n.val) = 1 ∧ evt e 0 ∧ modes e
            ∧ (∀ k, k ≠ n.val → e.slot k = { d.slot k with tTrig := (e.slot k).tTrig })
            ∧ (e.slot n.val).faulted = true ∧ (e.hd h).failPend = some 1)))
  ∧ (
    ∀ (h : Fin 48) (v : Word) (s : State),
      let others := fun (e : Dev) => ∀ k, k ≠ h.val → e.hd k = s.dev.hd k
      (s.lets (F.hd_PARK_REQ h.val).addr → Word.f v 0 0 = 1 →
        Answers (.parkReq h v) s (fun e => (e.hd h.val) = { s.dev.hd h.val with parkReq := true } ∧ others e ∧ e = { s.dev with heads := e.heads }))
      ∧ (s.lets (F.hd_SERVO_RESTART h.val).addr → Word.f v 31 16 = 0x5253 → Word.f v 15 0 ≠ 0x4643 →
          Answers (.servoRestart h v) s (fun e => (e.hd h.val) = { s.dev.hd h.val with restart := true } ∧ others e
            ∧ e = { s.dev with regs := e.regs, heads := e.heads, slots := e.slots }
            ∧ (∀ k, k ∉ s.dev.headSlots h.val → e.slot k = s.dev.slot k)
            ∧ ∀ n ∈ s.dev.headSlots h.val, (e.slot n).restarted = true ∧ (e.slot n).holdRun = 0 ∧ (s.dev.mode n = 6 → e.mode n = 0)))
      ∧ (s.lets (F.hd_SERVO_RESTART h.val).addr → Word.f v 31 16 ≠ 0x5253 → Word.f v 15 0 ≠ 0x4643 → exec (.servoRestart h v) s = .next s)
      ∧ ((s.dev.hd h.val).restart = true → (∀ n ∈ s.dev.headSlots h.val, 400 ≤ (s.dev.slot n).holdRun) →
          Answers (.servoHoldQualified h) s (fun e => (e.hd h.val) = { s.dev.hd h.val with restart := false } ∧ others e
            ∧ e = { s.dev with heads := e.heads, slots := e.slots }
            ∧ ∀ n ∈ s.dev.headSlots h.val, (e.slot n).faulted = false ∧ (e.slot n).restarted = false ∧ (e.slot n).holdRun = 0))
      ∧ (s.lets (F.hd_FC_ACCEPT h.val).addr → Word.f v 15 0 = 0x4643 → Word.f v 31 16 ≠ 0x5253 →
          Answers (.fcAccept h v) s (fun e => s.dev.onlyRegs e ∧ e.g (F.hd_FC_STAT_VALID h.val) = 1 ∧ e.g (F.hd_FC_STAT_HOST_WRITTEN h.val) = 0
            ∧ s.dev.regsBut e [(F.hd_FC_STAT_VALID h.val).addr]))
      ∧ ∀ ofs : BitVec 22, s.lets (0x1100000 + ofs.toNat) → ofs.toNat % 4 = 0 → ofs.toNat / 0x10000 = h.val → ofs.toNat % 0x10000 < 33800 →
          (s.dev.st = 5 → Answers (.fcGridWrite ofs v) s (fun e => e.readWord (0x1100000 + ofs.toNat) = v
            ∧ (∀ o < 0x300000, o % 4 = 0 → o ≠ ofs.toNat → e.readWord (0x1100000 + o) = s.dev.readWord (0x1100000 + o))
            ∧ e.g (F.hd_FC_STAT_VALID h.val) = 0 ∧ e.g (F.hd_FC_STAT_HOST_WRITTEN h.val) = 1 ∧ s.dev.regsBut e [(F.hd_FC_STAT_VALID h.val).addr]))
          ∧ (s.dev.st ≠ 5 → Answers (.fcGridWrite ofs v) s (fun e => s.dev.onlyRegs e ∧ s.dev.regsBut e [hdPage h.val + 0x20, hdPage h.val + 0x24])))

/-- TRACE_ARM starts the captures named and no other; that it clears VALID_PRE and GAP_COUNT is the model's choice (log 109). TRACE_FORCE triggers the named slots that
are ARMED. TRACE_DONE: a capture that has its 4,096 - PRE samples from the trigger on is done and recorded, and its last burst goes to the controller as far as it is
filled. TRACE_GAP: the oldest burst of a slot that the controller has not accepted is dropped, counted, flagged and recorded. -/
def Obligations.TracesCapture : Prop :=
  (∀ (p : Fin 10) (v : Word) (s : State), s.lets (F.loop_TRACE_ARM p.val).addr →
    Answers (.traceArm p v) s (fun e => e = { s.dev with regs := e.regs, slots := e.slots } ∧ ∀ b < 16,
      let n := 16 * p.val + b
      if v.getLsbD b = true then e.g (sf F.slot_TRACE_STAT_STATE n) = 1 ∧ e.g (sf F.slot_TRACE_STAT_VALID_PRE n) = 0
          ∧ e.g (sf F.slot_TRACE_STAT_GAP_COUNT n) = 0 ∧ e.slot n = { s.dev.slot n with tIdx := 0, tForce := false, tBurst := [] }
      else e.g (sf F.slot_TRACE_STAT_STATE n) = s.dev.g (sf F.slot_TRACE_STAT_STATE n) ∧ e.slot n = s.dev.slot n))
  ∧ (∀ (p : Fin 10) (v : Word) (s : State), s.lets (F.loop_TRACE_FORCE p.val).addr →
    Answers (.traceForce p v) s (fun e => e = { s.dev with slots := e.slots } ∧ ∀ b < 16,
      let n := 16 * p.val + b
      e.slot n = if v.getLsbD b = true ∧ s.dev.g (sf F.slot_TRACE_STAT_STATE n) = 1 then { s.dev.slot n with tForce := true } else s.dev.slot n))
  ∧ ∀ (n : Fin 160) (s : State),
      (s.dev.g (sf F.slot_TRACE_STAT_STATE n.val) = 2 →
        (s.dev.slot n.val).tTrig + 4096 - s.dev.g (sf F.slot_TRACE_TRIG_PRE n.val) ≤ (s.dev.slot n.val).tIdx →
        Answers (.traceDone n) s (fun e => e = { s.dev with regs := e.regs, pcie := e.pcie, evr := e.evr, slots := e.slots, traceQ := e.traceQ }
          ∧ e.traceQ = s.dev.traceQ ++ (if (s.dev.slot n.val).tBurst = [] then []
              else [(n.val, s.dev.traceAddr n.val (s.dev.slot n.val).tBurstIdx, (s.dev.slot n.val).tBurst)])
          ∧ e.slot n.val = { s.dev.slot n.val with tBurst := [] } ∧ (∀ k, k ≠ n.val → e.slot k = s.dev.slot k)
          ∧ e.g (sf F.slot_TRACE_STAT_STATE n.val) = 3 ∧ e.g ⟨loopPage n.val + 0x10, 7, 7⟩ = 1
          ∧ s.dev.regsBut e ((sf F.slot_TRACE_STAT_STATE n.val).addr :: evtAddrs (loopPage n.val))))
      ∧ (s.dev.traceQ.any (fun q => q.1 == n.val) = true →
        Answers (.traceGap n) s (fun e => e.traceQ = s.dev.traceQ.eraseP (fun q => q.1 == n.val) ∧ e.g (sf F.slot_SLOT_FLAGS_TRACE_GAP n.val) = 1
          ∧ e.g (sf F.slot_TRACE_STAT_GAP_COUNT n.val)
              = satU (sf F.slot_TRACE_STAT_GAP_COUNT n.val).width (s.dev.g (sf F.slot_TRACE_STAT_GAP_COUNT n.val) + 1)
          ∧ e.g ⟨loopPage n.val + 0x10, 8, 8⟩ = 1 ∧ bit (e.g (F.loop_SUM_FLAG (n.val / 16))) (n.val % 16) = true ∧ e.slots = s.dev.slots))


/-! ### Firing, cassettes, Ibex and the power loops (05, 06, 07) -/

/-- DROP_FAIL: of a head that has not failed, a dropout span at its limit, also one that light has ended in the same frame, asks for the head's failure with cause 5 and
is recorded on FIRE. CAS_REREAD with the lane UP asks the head for its cassette record; else it does nothing. CAS_STEP_REACHED: with CAS_STEP mJ not yet written, and no
write outstanding or failed, in state 2 the advanced record is sent when the lane is UP, and waits for it when it is not. CAS_WRITE_FAIL: a write not confirmed in
CAS_TIMEOUT frames has failed, shows WRITE_PENDING and is recorded. CAS_EXHAUSTED: in state 2 with the limit used up, state 5 and its event. -/
def Obligations.DropoutsAndCassettes : Prop :=
  ∀ (h : Fin 48) (s : State),
    let d := s.dev
    let c := (d.hd h.val).cas
    let others := fun (e : Dev) => ∀ k, k ≠ h.val → e.hd k = d.hd k
    (d.g (F.hd_FAIL_FAILED h.val) = 0 →
      ((d.hd h.val).dropFail ≠ none ∨ (d.hd h.val).dropOpen = true ∧
        (d.v (F.hd_DROP_CTRL_LIMIT h.val) ≠ 0 ∧ d.v (F.hd_DROP_CTRL_LIMIT h.val) ≤ d.g (F.hd_DROP_COUNT h.val)
          ∨ d.v (F.hd_DROP_CTRL_FAIL_Q h.val) ≤ (d.hd h.val).dropQ)) →
      Answers (.dropFail h) s (fun e => d.failsWith h.val 5 (d.time.frame - 1) e ∧ (e.hd h.val).dropFail = none ∧ others e
        ∧ e.g ⟨firePage + 0x10, 1, 1⟩ = 1))
    ∧ (∀ v : Word, s.lets (F.hd_CAS_REREAD h.val).addr →
        (d.laneSt h.val = 3 → Answers (.casReread h v) s (fun e => e.g (F.hd_CAS_STAT_STATE h.val) = 1 ∧ (⟨2, 0, []⟩ : Msg) ∈ (e.lane h.val).waiting
          ∧ d.regsBut e [(F.hd_CAS_STAT_STATE h.val).addr]))
        ∧ (d.laneSt h.val ≠ 3 → exec (.casReread h v) s = .next s))
    ∧ (d.g F.fire_CAS_STEP * 2000000000 ≤ c.energy → c.failed = false → d.laneSt h.val = 3 → c.sent = [] → d.g (F.hd_CAS_STAT_STATE h.val) = 2 →
        Answers (.casStepReached h) s (fun e => others e ∧ (e.hd h.val).cas.sentFrame = d.time.frame
          ∧ (∃ rec_, rec_ ≠ [] ∧ (e.hd h.val).cas.sent = rec_ ∧ (⟨3, 0, rec_⟩ : Msg) ∈ (e.lane h.val).waiting) ∧ e.regs = d.regs ∧ (e.hd h.val).cas.due = false))
    ∧ (d.g F.fire_CAS_STEP * 2000000000 ≤ c.energy → c.failed = false → d.laneSt h.val ≠ 3 → c.sent = [] → d.g (F.hd_CAS_STAT_STATE h.val) = 2 →
        Answers (.casStepReached h) s (fun e => e = { d with heads := e.heads } ∧ others e ∧ (e.hd h.val) = { d.hd h.val with cas := { c with due := true } }))
    ∧ (c.sent ≠ [] → c.sentFrame + d.g F.fire_CAS_TIMEOUT ≤ d.time.frame →
        Answers (.casWriteFail h) s (fun e => (e.hd h.val).cas.failed = true ∧ (c.due = false → (e.hd h.val).cas = { c with sent := [], failed := true }) ∧ others e
          ∧ e.g (F.hd_CAS_STAT_WRITE_PENDING h.val) = 1 ∧ e.g ⟨firePage + 0x10, 12, 12⟩ = 1
          ∧ d.regsBut e ((F.hd_CAS_STAT_WRITE_PENDING h.val).addr :: evtAddrs firePage)))
    ∧ (d.g (F.hd_CAS_STAT_STATE h.val) = 2 → c.limit * 2000000000 ≤ c.used * 2000000000 + c.energy → c.exhausted = false →
        Answers (.casExhausted h) s (fun e => e.g (F.hd_CAS_STAT_STATE h.val) = 5 ∧ (e.hd h.val).cas.exhausted = true ∧ others e
          ∧ e.g ⟨firePage + 0x10, 11, 11⟩ = 1))

/-- CAS_KEY_WRITE: a word of the cassette key is taken in IDLE alone and reads back 0; once all eight are loaded LOADED is 1 and KCV shows the first two bytes of HMAC-
SHA-256 of 32 zero bytes under the key, the first of them lowest (the model's reading, log 21). In any other state the write is counted in FIRE's ERR_INFO. -/
def Obligations.CassetteKeyIsLoadedInIdle : Prop :=
  ∀ (k : Fin 8) (v : Word) (s : State), s.lets (F.fire_CAS_KEY k.val).addr →
    (s.dev.st = 5 → Answers (.casKeyWrite k v) s (fun e => e = { s.dev with regs := e.regs, hand := e.hand }
        ∧ e.hand = { s.dev.hand with casKey := s.dev.hand.casKey.set k.val v.toNat, casLoaded := s.dev.hand.casLoaded ||| 2 ^ k.val }
        ∧ e.readWord (F.fire_CAS_KEY k.val).addr = 0 ∧ s.dev.regsBut e [0x70060]
        ∧ (e.hand.casLoaded = 255 → e.g F.fire_CAS_KEY_STAT_LOADED = 1
            ∧ e.g F.fire_CAS_KEY_STAT_KCV = (nth (hmac e.casKeyBytes (List.replicate 32 0)) 0 + 256 * nth (hmac e.casKeyBytes (List.replicate 32 0)) 1) % 65536)
        ∧ (e.hand.casLoaded ≠ 255 → e.g F.fire_CAS_KEY_STAT_LOADED = 0 ∧ e.g F.fire_CAS_KEY_STAT_KCV = 0)))
    ∧ (s.dev.st ≠ 5 → Answers (.casKeyWrite k v) s (s.dev.refused 0x82 (F.fire_CAS_KEY k.val).addr))

/-- FAIL_REQ with its key and a head asks for its failure with cause 7; without the key it does nothing. HEAD_FAIL: at a boundary, in a frame after that in which the
failure was asked for, it shows in FAIL with its cause and an event, takes the head out of the exposure set, and ends its stream and the spans in progress; a head that
has failed already keeps its cause, and with cause 1 its FAULTED slots go to PARKING; at any other time the failure waits. REJOIN with its key is remembered; without it
nothing. HOLD_LONG: a hold of HOLD_MAX frames is recorded once. STORE_RESUME: the handoff store goes on below 7,168 entries. -/
def Obligations.HeadsFailAndRejoin : Prop :=
  (∀ (v : Word) (s : State), s.lets F.ibex_FAIL_REQ_KEY.addr →
    (∀ h < 48, Word.f v 31 16 = 0x4644 → Word.f v 5 0 = h →
      Answers (.failReq v) s (fun e => s.dev.failsWith h 7 s.dev.time.frame e ∧ (∀ k, k ≠ h → e.hd k = s.dev.hd k)
        ∧ e = { s.dev with heads := e.heads }))
    ∧ (Word.f v 31 16 ≠ 0x4644 → exec (.failReq v) s = .next s))
  ∧ ∀ (h : Fin 48) (s : State),
      (∀ c, (s.dev.hd h.val).failPend = some c →
        ((s.dev.hd h.val).failFrame < s.dev.time.frame → s.dev.time.cycle = 0 → s.dev.g (F.hd_FAIL_FAILED h.val) = 0 → Answers (.headFail h) s (fun e => e.g (F.hd_FAIL_FAILED h.val) = 1 ∧ e.g (F.hd_FAIL_CAUSE h.val) = c % 256
          ∧ (e.hd h.val).failPend = none ∧ (e.hd h.val).active = false ∧ (e.hd h.val).susp = none ∧ (e.hd h.val).clip = none ∧ (e.hd h.val).dense = none ∧ h.val ∉ e.hand.expo ∧ e.g ⟨0x60010, 4, 4⟩ = 1))
        ∧ ((s.dev.hd h.val).failFrame < s.dev.time.frame → s.dev.time.cycle = 0 → s.dev.g (F.hd_FAIL_FAILED h.val) = 1 → Answers (.headFail h) s (fun e => (e.hd h.val).failPend = none
          ∧ (∀ k, k ≠ h.val → e.hd k = s.dev.hd k) ∧ e.g (F.hd_FAIL_CAUSE h.val) = s.dev.g (F.hd_FAIL_CAUSE h.val)
          ∧ (c ≠ 1 → e.hd h.val = { s.dev.hd h.val with failPend := none } ∧ e = { s.dev with heads := e.heads })
          ∧ (c = 1 → ∀ n ∈ s.dev.headSlots h.val, s.dev.mode n = 7 → e.mode n = 4)))
        ∧ (s.dev.time.frame ≤ (s.dev.hd h.val).failFrame ∨ s.dev.time.cycle ≠ 0 → exec (.headFail h) s = .next s))
      ∧ (∀ v : Word, s.lets (F.hd_REJOIN h.val).addr →
          (Word.f v 15 0 = 0x524A → Answers (.rejoin h v) s (fun e => e.hd h.val = { s.dev.hd h.val with rejoinReq := true }
            ∧ (∀ k, k ≠ h.val → e.hd k = s.dev.hd k) ∧ e = { s.dev with heads := e.heads }))
          ∧ (Word.f v 15 0 ≠ 0x524A → exec (.rejoin h v) s = .next s))
      ∧ (s.dev.g (F.hd_IBEX_STAT_HELD h.val) = 1 → (s.dev.hd h.val).holdLong = false → s.dev.v F.ibex_HOLD_MAX ≤ s.dev.g (F.hd_IBEX_STAT_HOLD_FRAMES h.val) →
          Answers (.holdLong h) s (fun e => e.hd h.val = { s.dev.hd h.val with holdLong := true } ∧ e.g ⟨0x60010, 8, 8⟩ = 1
            ∧ s.dev.regsBut e (evtAddrs 0x60000)))
      ∧ (s.dev.hand.storeFull = true → s.dev.hoCount < 7168 →
          Answers .storeResume s (fun e => e = { s.dev with hand := { s.dev.hand with storeFull := false } }))

/-- TILE_MAP_WRITE: a tile map entry without an enabled head of 48 or more is taken in IDLE, and no other entry changes, by a 32-bit write of one half or by the aligned
64-bit REGISTER_WRITE of the entry; one at or above NX x NY is held, but reads 0. Elsewhere, or with such a head, the write is counted in ERR_INFO. TILE_EDIT_CMD: a tile
edit with its key is staged with EDIT_PENDING, or refused with 0x83 when it names such a head; without the key it does nothing. -/
def Obligations.TileMapAndEdits : Prop :=
  (∀ (ofs : BitVec 18) (v : Word) (s : State), s.lets (0x1020000 + ofs.toNat) → ofs.toNat % 4 = 0 →
    let n := ofs.toNat / 8
    let w := (Tab.at 0 s.dev.tiles n).toNat
    let w' := if ofs.toNat / 4 % 2 = 0 then w / 2 ^ 32 * 2 ^ 32 + v.toNat else v.toNat * 2 ^ 32 + w % 2 ^ 32
    (s.dev.st = 5 → tileBad w' = false →
      Answers (.tileMapWrite ofs v) s (fun e => e = { s.dev with tiles := e.tiles } ∧ (Tab.at 0 e.tiles n).toNat = w' &&& 0xBFBFBFBFBF
        ∧ (s.dev.g F.ibex_TILE_DIM_NX * s.dev.g F.ibex_TILE_DIM_NY ≤ n → e.readWord (0x1020000 + ofs.toNat) = 0)
        ∧ ∀ k, k ≠ n → Tab.at 0 e.tiles k = Tab.at 0 s.dev.tiles k))
    ∧ (ofs.toNat % 8 = 0 → s.dev.st = 5 → ∀ hi : Word,
        tileBad (v.toNat + hi.toNat * 2 ^ 32) = false →
        Answers (.registerWrite (BitVec.ofNat 26 (0x1020000 + ofs.toNat)) (.pair v hi)) s (fun e => e = { s.dev with tiles := e.tiles }
          ∧ (Tab.at 0 e.tiles n).toNat = (v.toNat + hi.toNat * 2 ^ 32) &&& 0xBFBFBFBFBF
          ∧ ∀ k, k ≠ n → Tab.at 0 e.tiles k = Tab.at 0 s.dev.tiles k))
    ∧ (s.dev.st ≠ 5 ∨ tileBad w' = true → Answers (.tileMapWrite ofs v) s (fun e => s.dev.onlyRegs e ∧ s.dev.regsBut e [0x60020, 0x60024]
        ∧ e.g (F.hdr_ERR_INFO_COUNT 0x60000) = min (s.dev.g (F.hdr_ERR_INFO_COUNT 0x60000) + 1) 255)))
  ∧ ∀ (v : Word) (s : State), s.lets F.ibex_TILE_EDIT_CMD_KEY.addr →
      let w := s.dev.g F.ibex_TILE_EDIT_LO + s.dev.g F.ibex_TILE_EDIT_HI * 2 ^ 32
      (Word.f v 31 16 = 0x5445 → tileBad w = false → Answers (.tileEditCmd v) s (fun e => e.g F.ibex_TILE_STAT_EDIT_PENDING = 1
          ∧ e.hand = { s.dev.hand with edit := some (s.dev.g F.ibex_TILE_EDIT_IDX, w, s.dev.isLate) } ∧ s.dev.regsBut e [F.ibex_TILE_STAT_EDIT_PENDING.addr]))
      ∧ (Word.f v 31 16 = 0x5445 → tileBad w = true → Answers (.tileEditCmd v) s (s.dev.refused 0x83 F.ibex_TILE_EDIT_CMD_KEY.addr))
      ∧ (Word.f v 31 16 ≠ 0x5445 → exec (.tileEditCmd v) s = .next s)

/-- PIN: a mapped power slot pinned for longer than PIN_TIME is recorded once, with its flag and its demand. FF_STALE: an enabled feed-forward term aged past FF_AGE.HOLD
is recorded once, with its flag. The page's summary of flags shows both. -/
def Obligations.PowerLoopRecordsPinsAndStaleTerms : Prop :=
  ∀ (n : Fin 56) (s : State),
    let p := s.dev.pls n.val
    let others := fun (e : Dev) => ∀ k, k ≠ n.val → e.pls k = s.dev.pls k
    let summed := fun (e : Dev) => bit (e.g (F.ploop_SUM_FLAG (n.val / 14))) (n.val % 14) = true
    (s.dev.v (pf F.pl_PIN_TIME n.val) < s.dev.g (pf F.pl_PL_STAT_PIN_COUNT n.val) → p.pinLogged = false → s.dev.g (pf F.pl_PL_MAP_MAPPED n.val) = 1 →
      p.pinAt ≠ none →
      Answers (.pin n) s (fun e => e.pls n.val = { p with pinLogged := true } ∧ others e ∧ s.dev.onlyEvent { e with pslots := s.dev.pslots }
        ∧ e.g (if p.pinHi then pf F.pl_PL_FLAGS_PIN_HI n.val else pf F.pl_PL_FLAGS_PIN_LO n.val) = 1
        ∧ e.g (pf F.pl_PIN_DEMAND n.val) = ux 32 (satS 32 p.demand) ∧ e.g ⟨plPage n.val + 0x10, 0, 0⟩ = 1 ∧ summed e
        ∧ s.dev.regsBut e ([(pf F.pl_PL_FLAGS_PIN_HI n.val).addr, (pf F.pl_PIN_DEMAND n.val).addr] ++ plSumAddrs ++ evtAddrs (plPage n.val))))
    ∧ (s.dev.v (pf F.pl_FF_SRC_EN n.val) = 1 → s.dev.v (pf F.pl_FF_AGE_HOLD n.val) < p.age → p.stale = false →
        Answers (.ffStale n) s (fun e => e.pls n.val = { p with stale := true } ∧ others e ∧ e.g (pf F.pl_PL_FLAGS_FF_STALE n.val) = 1
          ∧ e.g ⟨plPage n.val + 0x10, 3, 3⟩ = 1
          ∧ summed e ∧ s.dev.regsBut e ((pf F.pl_PL_FLAGS_FF_STALE n.val).addr :: plSumAddrs ++ evtAddrs (plPage n.val))))


/-! ### The head lanes (09) -/

/-- US_FRAME_RX: of the code groups of a frame, a valid critical block of this frame is taken over in CAP and UP by cycle 240; in TRAIN good frames are counted up to 16;
else only the running disparity moves. US_FRAME_MISSING: from cycle 240 on a frame without a block is counted once, but not the training frame with which the lane has
come into CAP. A slot's message in sequence, in CAP and UP, is accepted and acts by its type: CAP_DATA_RX keeps the fragment, CAS_RECORD_RX without a record shows no
cassette, and one equal to the record sent, in time, confirms the write, CAS_CHANGE_RX has the record read anew, HOST_MSG_RX fills the buffer or counts as lost,
UNKNOWN_MSG_RX is counted. -/
def Obligations.LanesReceive : Prop :=
  ∀ (h : Fin 48) (s : State),
    let d := s.dev
    let l := d.lane h.val
    let others := fun (e : Dev) => ∀ k, k ≠ h.val → e.lane k = d.lane k
    (∀ (start : BitVec 10) (groups : List (BitVec 10)) (rtd : Nat),
      let r := rxFrame l.rdRx (start :: groups)
      let c := r.chars
      (d.laneSt h.val = 2 ∨ d.laneSt h.val = 3 → r.sof = true → blockOk c r.bad 1 62 = true → leAt c 1 2 = d.time.frame % 65536 → d.time.cycle ≤ 240 → l.missed = false →
        bit (nth c 3) 7 = false →
        Answers (.usFrameRx h start groups rtd) s (fun e => (e.lane h.val).got = true ∧ others e ∧ (e.lane h.val).rdRx = r.rd
          ∧ (e.lane h.val).pos = [sx 32 (leAt c 5 4), sx 32 (leAt c 9 4), sx 32 (leAt c 13 4)]
          ∧ e.g (F.hd_CNT_CODE_ERR h.val) = satU 16 (d.g (F.hd_CNT_CODE_ERR h.val) + r.bad.length)))
      ∧ (d.laneSt h.val = 1 → Answers (.usFrameRx h start groups rtd) s (fun e => others e ∧ (e.lane h.val).rdRx = r.rd
          ∧ (e.lane h.val).trainRun = (if d.isTraining r = true ∧ nth c 3 = 0x81 then (if l.trained = true ∨ 16 ≤ l.trainRun then l.trainRun else l.trainRun + 1)
              else 0)
          ∧ d.regsBut e [(F.hd_CNT_CODE_ERR h.val).addr]))
      ∧ (d.laneSt h.val = 0 ∨ 3 < d.laneSt h.val → Answers (.usFrameRx h start groups rtd) s (fun e => e = { d with lanes := e.lanes } ∧ others e
          ∧ e.lane h.val = { l with rdRx := r.rd })))
    ∧ (240 ≤ d.time.cycle → d.laneOn h.val = true → l.got = false → l.missed = false → l.trained = false →
        Answers (.usFrameMissing h) s (fun e => others e ∧ (e.lane h.val).missed = true ∧ (e.lane h.val).missing = l.missing + 1
          ∧ e.g (F.hd_CNT_US_MISSING h.val) = satU 16 (d.g (F.hd_CNT_US_MISSING h.val) + 1) ∧ d.regsBut e [(F.hd_CNT_US_MISSING h.val).addr]))
    ∧ ∀ (slot : List (Option Byte)) (q ack : Nat) (m : Msg), d.laneOn h.val = true → (slotChars slot).bind slotOf = some (q, ack, m) → m.typ ≠ 0 →
        q = (l.rxAck + 1) % 16 →
        (m.typ = 0x81 → d.laneSt h.val = 2 → m.index = 0 → m.payload.length = 64 → l.cap1.length ≠ 64 →
          Answers (.capDataRx h slot) s (fun e => e.lane h.val = { l with rxAck := q, cap0 := m.payload } ∧ others e ∧ e.regs = d.regs))
        ∧ (m.typ = 0x82 → (d.hd h.val).cas.sent = [] → m.payload = [] → d.laneSt h.val = 3 →
            Answers (.casRecordRx h slot) s (fun e => (e.lane h.val) = { l with rxAck := q } ∧ others e ∧ e.g (F.hd_CAS_STAT_STATE h.val) = 0))
        ∧ (m.typ = 0x82 → (d.hd h.val).cas.sent ≠ [] → m.payload = (d.hd h.val).cas.sent →
            d.time.frame ≤ (d.hd h.val).cas.sentFrame + d.g F.fire_CAS_TIMEOUT →
            Answers (.casRecordRx h slot) s (fun e => (e.lane h.val).rxAck = q ∧ others e ∧ ((d.hd h.val).cas.due = false → (e.hd h.val).cas.sent = []) ∧ (e.hd h.val).cas.failed = false
              ∧ e.g (F.hd_CAS_STAT_WRITE_PENDING h.val) = 0))
        ∧ (m.typ = 0x83 → d.laneSt h.val = 3 → Answers (.casChangeRx h slot) s (fun e => (e.lane h.val).rxAck = q ∧ others e
            ∧ e.g (F.hd_CAS_STAT_STATE h.val) = 1 ∧ (⟨2, 0, []⟩ : Msg) ∈ (e.lane h.val).waiting))
        ∧ (m.typ = 0x90 → d.g (F.hd_MSG_RX_STAT_FULL h.val) = 0 → m.payload.length ≤ 64 →
            Answers (.hostMsgRx h slot) s (fun e => e.lane h.val = { l with rxAck := q } ∧ others e ∧ e.g (F.hd_MSG_RX_STAT_FULL h.val) = 1
              ∧ e.g (F.hd_MSG_RX_STAT_LEN h.val) = m.payload.length ∧ e.g ⟨hdPage h.val + 0x10, 7, 7⟩ = 1))
        ∧ (m.typ = 0x90 → d.g (F.hd_MSG_RX_STAT_FULL h.val) = 1 →
            Answers (.hostMsgRx h slot) s (fun e => e.lane h.val = { l with rxAck := q }
              ∧ e.g (F.hd_MSG_RX_STAT_LOST h.val) = satU 16 (d.g (F.hd_MSG_RX_STAT_LOST h.val) + 1)))
        ∧ (m.typ ∉ [0x81, 0x82, 0x83, 0x90] → Answers (.unknownMsgRx h slot) s (fun e => e.lane h.val = { l with rxAck := q } ∧ others e
            ∧ e.g (F.hd_CNT_MSG_UNKNOWN h.val) = satU 16 (d.g (F.hd_CNT_MSG_UNKNOWN h.val) + 1)))

/-- MSG_TX_GO, with none pending, queues the message on an UP lane with STAT 1, and on any other lane fails with STAT 3 (the model's choice, log 22); with one pending it
is refused with 0x82. MSG_RX_FREE frees the buffer. In CAP and UP: ACK_RX takes the acknowledged messages from the outstanding ones; MGMT_RETRY, when the oldest has
waited RETRY_TMO frames, has all sent again, and after RETRY_MAX sends the lane is lost with cause 2. -/
def Obligations.LanesSend : Prop :=
  ∀ (h : Fin 48) (s : State),
    let d := s.dev
    let l := d.lane h.val
    let others := fun (e : Dev) => ∀ k, k ≠ h.val → e.lane k = d.lane k
    (∀ v : Word, s.lets (F.hd_MSG_TX_GO h.val).addr →
      (d.g (F.hd_MSG_TX_STAT h.val) ≠ 1 → d.laneSt h.val = 3 → Answers (.msgTxGo h v) s (fun e => e.g (F.hd_MSG_TX_STAT h.val) = 1 ∧ others e
        ∧ (∃ m ∈ (e.lane h.val).waiting, m.typ = 0x10 ∧ m.payload.length = min 64 (d.g (F.hd_MSG_TX_LEN h.val)))
        ∧ d.regsBut e [(F.hd_MSG_TX_STAT h.val).addr]))
      ∧ (d.g (F.hd_MSG_TX_STAT h.val) ≠ 1 → d.laneSt h.val ≠ 3 → Answers (.msgTxGo h v) s (fun e => e.g (F.hd_MSG_TX_STAT h.val) = 3
          ∧ e.g ⟨hdPage h.val + 0x10, 8, 8⟩ = 1 ∧ d.onlyEvent e))
      ∧ (d.g (F.hd_MSG_TX_STAT h.val) = 1 → Answers (.msgTxGo h v) s (d.refused 0x82 (F.hd_MSG_TX_GO h.val).addr)))
    ∧ (∀ v : Word, s.lets (F.hd_MSG_RX_FREE h.val).addr → Answers (.msgRxFree h v) s (fun e => d.onlyRegs e ∧ e.g (F.hd_MSG_RX_STAT_FULL h.val) = 0
        ∧ e.g (F.hd_MSG_RX_STAT_LOST h.val) = d.g (F.hd_MSG_RX_STAT_LOST h.val) ∧ d.regsBut e [(F.hd_MSG_RX_STAT_FULL h.val).addr]))
    ∧ (∀ (slot : List (Option Byte)) (q ack : Nat) (m : Msg), d.laneOn h.val = true → (slotChars slot).bind slotOf = some (q, ack, m) →
        (∃ o ∈ l.out, o.seq = ack) →
        Answers (.ackRx h slot) s (fun e => others e ∧ (e.lane h.val).out = l.out.drop (l.out.findIdx (fun o => o.seq == ack) + 1)
          ∧ (e.lane h.val).waiting = l.waiting))
    ∧ ∀ (o : Sent) (os : List Sent), l.out = o :: os → d.laneOn h.val = true → l.again = [] →
        o.frame + d.g (F.hd_LANE_CTRL_RETRY_TMO h.val) ≤ d.time.frame →
        (o.sends < d.g (F.hd_LANE_CTRL_RETRY_MAX h.val) → Answers (.mgmtRetry h) s (fun e => e.lane h.val = { l with again := l.out } ∧ others e ∧ e.regs = d.regs))
        ∧ (d.g (F.hd_LANE_CTRL_RETRY_MAX h.val) ≤ o.sends → Answers (.mgmtRetry h) s (fun e => e.g (F.hd_LANE_STAT_STATE h.val) = 4
            ∧ e.g (F.hd_LANE_STAT_LOSS_CAUSE h.val) = 2 ∧ e.g ⟨hdPage h.val + 0x10, 1, 1⟩ = 1 ∧ (e.lane h.val).out = [] ∧ others e))

/-- LANE_EN, while the page is not locked: EN trains a disabled lane, and its clearing disables a lane. RETRAIN trains a faulted lane, and takes one in TRAIN, CAP or UP
to LOST with cause 3. TRAINING_DONE: 16 good training frames lead to CAP with RTD their mean, or to FAULT 1 beyond 180 ns. TRAIN_TIMEOUT: 40,000 frames of TRAIN are
recorded once. CAP_TIMEOUT: 800 frames in CAP are FAULT 3. LANE_LOST: LOSS_FRAMES missing frames are LOST with cause 1 and ask for the head's failure with cause 4.
LOST_IDLE_END: 40 frames later the lane trains again. LINK_ACCEPT with its key accepts a changed head; without it it does nothing. -/
def Obligations.LaneStatesChange : Prop :=
  ∀ (h : Fin 48) (s : State),
    let d := s.dev
    let l := d.lane h.val
    let st := d.laneSt h.val
    let others := fun (e : Dev) => ∀ k, k ≠ h.val → e.lane k = d.lane k
    (∀ v : Word, s.lets (F.hd_LANE_CTRL_EN h.val).addr → d.g (F.hdr_PAGE_CTRL_LOCK (hdPage h.val)) = 0 →
      (Word.f v 0 0 = 1 → Word.f v 1 1 = 0 → st = 0 → Answers (.laneEn h v) s (fun e => e.laneSt h.val = 1 ∧ e.g (F.hd_LANE_CTRL_EN h.val) = 1
        ∧ (e.lane h.val).since = d.time.frame ∧ others e))
      ∧ (Word.f v 0 0 = 0 → Word.f v 1 1 = 0 → st ≠ 0 → Answers (.laneEn h v) s (fun e => e.laneSt h.val = 0 ∧ e.g (F.hd_LANE_CTRL_EN h.val) = 0 ∧ others e))
      ∧ (Word.f v 0 0 = 1 → Word.f v 1 1 = 1 → st = 5 → Answers (.retrain h v) s (fun e => e.laneSt h.val = 1 ∧ others e))
      ∧ (Word.f v 0 0 = 1 → Word.f v 1 1 = 1 → d.g (F.hd_LANE_CTRL_EN h.val) = 1 → st = 1 ∨ st = 2 ∨ st = 3 →
          Answers (.retrain h v) s (fun e => e.laneSt h.val = 4 ∧ e.g (F.hd_LANE_STAT_LOSS_CAUSE h.val) = 3 ∧ others e)))
    ∧ (st = 1 → l.trainRun = 16 →
        let rtd := (rdiv l.rtdSum 32).toNat * 2
        (rtd ≤ 180 → Answers (.trainingDone h) s (fun e => e.laneSt h.val = 2 ∧ e.g (F.hd_RTD h.val) = rtd ∧ others e
          ∧ (e.lane h.val).waiting = [⟨1, 0, []⟩, ⟨1, 1, []⟩]
          ∧ d.regsBut e [(F.hd_LANE_STAT_STATE h.val).addr, (F.hd_RTD h.val).addr]))
        ∧ (180 < rtd → Answers (.trainingDone h) s (fun e => e.laneSt h.val = 5 ∧ e.g (F.hd_LANE_STAT_FAULT_CODE h.val) = 1
          ∧ e.g ⟨hdPage h.val + 0x10, 2, 2⟩ = 1 ∧ others e)))
    ∧ (st = 1 → l.since + 40000 ≤ d.time.frame → l.timeoutSeen = false →
        Answers (.trainTimeout h) s (fun e => e.lane h.val = { l with timeoutSeen := true } ∧ others e ∧ e.g ⟨hdPage h.val + 0x10, 3, 3⟩ = 1
          ∧ d.regsBut e (evtAddrs (hdPage h.val))))
    ∧ (st = 2 → l.since + 800 ≤ d.time.frame →
        Answers (.capTimeout h) s (fun e => e.laneSt h.val = 5 ∧ e.g (F.hd_LANE_STAT_FAULT_CODE h.val) = 3 ∧ e.g ⟨hdPage h.val + 0x10, 2, 2⟩ = 1 ∧ others e))
    ∧ (st = 2 ∨ st = 3 → d.g (F.hd_LANE_CTRL_LOSS_FRAMES h.val) ≤ l.missing → l.missing ≠ 0 →
        Answers (.laneLost h) s (fun e => e.laneSt h.val = 4 ∧ e.g (F.hd_LANE_STAT_LOSS_CAUSE h.val) = 1 ∧ e.g ⟨hdPage h.val + 0x10, 1, 1⟩ = 1 ∧ others e
          ∧ d.failsWith h.val 4 d.time.frame e))
    ∧ (st = 4 → l.since + 40 ≤ d.time.frame → Answers (.lostIdleEnd h) s (fun e => e.laneSt h.val = 1 ∧ others e ∧ (e.lane h.val).since = d.time.frame
        ∧ d.regsBut e [(F.hd_LANE_STAT_STATE h.val).addr]))
    ∧ ∀ v : Word, s.lets (F.hd_LINK_ACCEPT h.val).addr →
        (Word.f v 15 0 = 0x4843 → Answers (.linkAccept h v) s (fun e => e.lane h.val = { l with changed := false } ∧ others e ∧ e = { d with lanes := e.lanes }))
        ∧ (Word.f v 15 0 ≠ 0x4843 → exec (.linkAccept h v) s = .next s)


/-! ### Cameras and pipelines (08) -/

/-- At an enabled port with PCLK: FRAME_START counts the frame, opens it and clears LINE; CAMERA_LINE within an open frame's height counts in LINE, and where the frame
has a ring slot and nothing waits in the memory controller, a line of the frame's width is stored there, left-aligned in 16 bits, and no other byte of DRAM changes;
without a slot none changes. FRAME_END closes the open frame; at another port it closes nothing. FRAME_TIMEOUT: FRAME_TMO µs without a line close it. At an enabled port
PCLK_LOST and PCLK_PRESENT show the clock's absence, or its presence and rate; a disabled port ignores its clock. Of a pipeline that has not failed. VM_FRAME_TAKE, while
nothing waits in the memory controller, no via-memory frame is in processing and no in-line frame open: it takes the oldest frame of its ring, whose lines that read badly
are invalid. RING_SLOT_CLAIM: a waiting frame claims a free slot and joins the ring; where nothing waits in the controller DRAM changes in its valid lines' places alone.
FEATURE_RECORD_COMPLETE: the oldest frame's record completes and waits for DRAM behind those before it; what is written meanwhile, while nothing waits in the controller,
lies in the record ring alone. PIPELINE_FAIL empties the pipeline and shows FAILED. DPC_LOADED, while nothing waits in the controller: a defect list under way is loaded
or refused, and a refused one leaves the list in force. -/
def Obligations.CamerasAndPipelines : Prop :=
  (
    ∀ (p : Fin 12) (s : State),
      let d := s.dev
      let n := p.val
      let evt := fun (e : Dev) (b : Nat) => e.g ⟨cpPage n + 0x10, b, b⟩ = 1
      let others := fun (e : Dev) => ∀ k, k ≠ n → e.cp k = d.cp k
      (d.cpLive n = true → (d.cp n).fv = false →
        Answers (.frameStart p) s (fun e => e.g (F.cp_FRAME_COUNT n) = (d.g (F.cp_FRAME_COUNT n) + 1) % 2 ^ 32 ∧ e.g (F.cp_CP_STAT_IN_FRAME n) = 1
          ∧ e.g (F.cp_CP_STAT_LINE n) = 0 ∧ evt e 0 ∧ others e ∧ (e.cp n).fv = true ∧ (e.cp n).lvAt = d.now
          ∧ ∃ fr, (e.cp n).frame = some fr ∧ fr.port = n ∧ fr.num = d.g (F.cp_FRAME_COUNT n) ∧ fr.rx = 0))
      ∧ (∀ (fr : CFrame) (px : List (BitVec 16)), (d.cp n).frame = some fr → d.cpLive n = true → fr.dropped = false → bit fr.flags 0 = false →
          fr.seen < fr.height → (fr.slot.isSome = true ∨ fr.src ≠ 1 ∨ fr.pipe = 7 ∨ fr.lines.length < 8) →
          ∃ t, exec (.cameraLine p px) s = .next t ∧ t.dev.g (F.cp_CP_STAT_LINE n) = (fr.rx + 1) % 8192 ∧ t.nor = s.nor ∧ t.otp = s.otp ∧ t.iso = s.iso
            ∧ (∃ fr', (t.dev.cp n).frame = some fr' ∧ fr'.rx = fr.rx + 1 ∧ fr'.seen = fr.seen + 1 ∧ fr'.nvalid = fr.nvalid + (if fr.width ≤ px.length then 1 else 0))
            ∧ (fr.slot = none → t.mem = s.mem)
            ∧ (∀ k, fr.slot = some k → d.quiet = true →
                let a := d.ringBase fr.pipe + k * 0x100000 + fr.rx * fr.width * 2
                (∀ x, ¬ (a ≤ x ∧ x < a + 2 * fr.width ∧ fr.width ≤ px.length) → memByte t.mem x = memByte s.mem x)
                  ∧ (fr.width ≤ px.length → ∀ i < fr.width, a + 2 * i + 1 < d.capacity →
                      memLE t.mem (a + 2 * i) 2 = (px.getD i 0).toNat % 2 ^ fr.pixBits * 2 ^ (16 - fr.pixBits))))
      ∧ (d.cpLive n = true → (d.cp n).fv = true → Answers (.frameEnd p) s (fun e => (e.cp n).fv = false
          ∧ ∀ fr : CFrame, (d.cp n).frame = some fr → fr.port = n → (e.cp n).frame = none ∧ e.g (F.cp_CP_STAT_IN_FRAME n) = 0 ∧ evt e 1))
      ∧ (d.cpLive n = false → Answers (.frameEnd p) s (fun e => e = { d with cps := e.cps } ∧ e.cp n = { d.cp n with fv := false } ∧ others e))
      ∧ (∀ fr : CFrame, (d.cp n).frame = some fr → fr.port = n → (d.cp n).lvAt + 500 * fr.tmo ≤ d.now →
          Answers (.frameTimeout p) s (fun e => (e.cp n).frame = none ∧ e.g (F.cp_CP_STAT_IN_FRAME n) = 0 ∧ evt e 1 ∧ others e))
      ∧ (d.g (F.hdr_PAGE_CTRL_ENABLE (cpPage n)) = 1 → d.g (F.cp_CP_STAT_PCLK_PRESENT n) = 1 →
          Answers (.pclkLost p) s (fun e => e.g (F.cp_CP_STAT_PCLK_PRESENT n) = 0 ∧ e.g (F.cp_PCLK_KHZ n) = 0 ∧ evt e 8
            ∧ ((d.cp n).frame = none → d.onlyEvent e)))
      ∧ (d.g (F.hdr_PAGE_CTRL_ENABLE (cpPage n)) = 0 → exec (.pclkLost p) s = .next s ∧ ∀ khz : BitVec 18, exec (.pclkPresent p khz) s = .next s)
      ∧ ∀ khz : BitVec 18, d.g (F.hdr_PAGE_CTRL_ENABLE (cpPage n)) = 1 → Answers (.pclkPresent p khz) s (fun e => d.onlyRegs e ∧ e.g (F.cp_CP_STAT_PCLK_PRESENT n) = 1 ∧ e.g (F.cp_PCLK_KHZ n) = khz.toNat
          ∧ d.regsBut e [(F.cp_CP_STAT_PCLK_PRESENT n).addr, (F.cp_PCLK_KHZ n).addr]))
  ∧ (
    ∀ (p : Fin 7) (s : State),
      let d := s.dev
      let t := d.ip p.val
      let evt := fun (e : Dev) (b : Nat) => e.g ⟨ipPage p.val + 0x10, b, b⟩ = 1
      let others := fun (e : Dev) => ∀ k, k ≠ p.val → e.ip k = d.ip k
      (∀ (fr : CFrame) (rest : List CFrame), t.ring = fr :: rest → d.ipOk p.val = true → t.wait.any (fun x => x.src == 1 && !x.dropped) = false →
        (d.g (F.ip_IP_SRC_IL_EN p.val) = 0 ∨ (d.cp (d.g (F.ip_IP_SRC_IL_PORT p.val))).frame = none) → d.quiet = true →
        Answers (.vmFrameTake p) s (fun e => (e.ip p.val).ring = rest ∧ others e
          ∧ (e.ip p.val).wait.length = t.wait.length + 1
          ∧ ∃ fr', (e.ip p.val).wait.getLast? = some fr' ∧ fr'.num = fr.num ∧ fr'.nvalid ≤ fr.lines.length))
      ∧ (∀ (fr : CFrame) (k : Nat), d.freeSlot p.val = some k → d.ipOk p.val = true → (d.cp (d.vmPort p.val)).held = some fr →
          fr.pipe = p.val → fr.src = 1 → fr.slot = none → fr.dropped = false →
          ∃ u, exec (.ringSlotClaim p) s = .next u ∧ (u.dev.cp (d.vmPort p.val)).held = none ∧ others u.dev ∧ u.nor = s.nor ∧ u.otp = s.otp ∧ u.iso = s.iso
            ∧ (d.quiet = true → ∀ x, (∀ l ∈ fr.lines, let a := d.ringBase p.val + k * 0x100000 + l.idx * fr.width * 2
                  ¬ (l.valid = true ∧ a ≤ x ∧ x < a + 2 * l.px.length)) → memByte u.mem x = memByte s.mem x)
            ∧ ∃ fr', (u.dev.ip p.val).ring = t.ring ++ [fr'] ∧ fr'.slot = some k ∧ fr'.num = fr.num)
      ∧ (∀ (fr : CFrame) (rest : List CFrame), t.wait = fr :: rest → d.ipOk p.val = true →
          let w := (fr.record (d.g (F.ip_IP_MAP_LOGICAL p.val))).1
          let a := d.g (F.ip_REC_BASE_LO p.val) * 64 + d.g (F.ip_REC_BASE_HI p.val) * 2 ^ 32
          ∃ u, exec (.featureRecordComplete p) s = .next u ∧ (u.dev.ip p.val).wait.length = rest.length ∧ evt u.dev 0 ∧ others u.dev ∧ u.nor = s.nor ∧ u.otp = s.otp
            ∧ u.iso = s.iso
            ∧ (d.g (F.ip_REC_LOG2 p.val) = 0 → t.recQ = [] → u.mem = s.mem ∧ (u.dev.ip p.val).recQ = [])
            ∧ (d.g (F.ip_REC_LOG2 p.val) ≠ 0 → t.recQ = [] → u.mem = s.mem ∧ (u.dev.ip p.val).recQ = [w]
                ∧ u.dev.g (F.ip_REC_WR p.val) = d.g (F.ip_REC_WR p.val))
            ∧ (d.quiet = true → d.g (F.ip_REC_LOG2 p.val) ≠ 0 → d.g (F.ip_REC_WR p.val) < 2 ^ d.g (F.ip_REC_LOG2 p.val) →
                (∀ x, ¬ (a ≤ x ∧ x < a + 64 * 2 ^ d.g (F.ip_REC_LOG2 p.val)) → memByte u.mem x = memByte s.mem x)
                  ∧ (u.dev.ip p.val).recQ.length ≤ max 16 t.recQ.length))
      ∧ (∀ c : Fin 2, d.ipOk p.val = true → (c = 0 ∨ t.wait ≠ []) →
          Answers (.pipelineFail p c) s (fun e => (e.ip p.val).wait = [] ∧ (e.ip p.val).ring = [] ∧ others e ∧ e.g (F.ip_IP_STAT_FAILED p.val) = 1
            ∧ e.g (F.ip_IP_FLAGS_FAULT p.val) = 1 ∧ evt e 4 ∧ ∀ n < 12, ∀ fr, (e.cp n).held = some fr → fr.pipe ≠ p.val))
      ∧ ∀ b : Fin 2, d.g (F.ips_DPC_STAT_STATE p.val b.val) = 1 → d.quiet = true →
          Answers (.dpcLoaded p b) s (fun e => others e ∧ (if b = 0 then (e.ip p.val).ready0 else (e.ip p.val).ready1) = true
            ∧ (e.g (F.ips_DPC_STAT_STATE p.val b.val) = 2 ∧ evt e 6
               ∨ e.g (F.ips_DPC_STAT_STATE p.val b.val) = 3 ∧ e.g (F.ip_IP_FLAGS_DPC_REFUSED p.val) = 1 ∧ (e.ip p.val).dpc0 = t.dpc0 ∧ (e.ip p.val).dpc1 = t.dpc1)
            ∧ (1024 < d.v (F.ips_DPC_COUNT p.val b.val) → e.g (F.ips_DPC_STAT_STATE p.val b.val) = 3)))


/-! ### Auxiliary axes and bridge ports (10) -/

/-- AUX_TICK: with the PLLs locked, a tick is computed once in its frame. Of a port that is not OFF: BRIDGE_FRAME_RX takes one good upstream frame of the tick, and
BRIDGE_FRAME_MISSING counts a missing one. PORT_UP: 16 good ones in a row bring a port from SYNC to UP; PORT_LOST: LOSS_TICKS missing ones take it from UP to LOST, and
its axes that are not DISABLED to ERROR 3; PORT_RESYNC: 8 ticks later it synchronises again. -/
def Obligations.BridgePortsFollowTheirFrames : Prop :=
  (∀ s : State, s.dev.time.frame % 8 = 0 → s.dev.aux.tick ≠ s.dev.time.frame / 8 + 1 → s.dev.ctl.pllLocked = true →
    Answers .auxTick s (fun e => e.aux.tick = s.dev.time.frame / 8 + 1 ∧ e.aux.samples = []))
  ∧ ∀ (p : Fin 8) (s : State),
      let d := s.dev
      let n := p.val
      let t := d.bpSt n
      let others := fun (e : Dev) => ∀ k, k ≠ n → e.bpSt k = d.bpSt k
      (∀ (start : BitVec 10) (groups : List (BitVec 10)),
        let r := rxFrame t.rdRx (start :: groups)
        let c := r.chars
        d.g (F.bp_BP_STAT_STATE n) ≠ 0 → t.got = 0 → r.sof = true → blockOk c r.bad 1 24 = true → leAt c 1 2 = d.time.frame / 8 % 65536 →
        Answers (.bridgeFrameRx p start groups) s (fun e => e.bpSt n = { t with got := 1, good := t.good + 1, missing := 0, rdRx := r.rd } ∧ others e
          ∧ e.gi (F.bps_MEAS_I_IA n 0) = sx 16 (leAt c 4 2) ∧ e.gi (F.bps_MEAS_I_IA n 1) = sx 16 (leAt c 15 2)))
      ∧ (d.g (F.bp_BP_STAT_STATE n) ≠ 0 → t.got = 0 →
          Answers (.bridgeFrameMissing p) s (fun e => e.bpSt n = { t with got := 2, good := 0, missing := t.missing + 1 } ∧ others e
            ∧ e.g (F.bp_CNT_MISSING n) = satU 16 (d.g (F.bp_CNT_MISSING n) + 1) ∧ d.regsBut e [(F.bp_CNT_MISSING n).addr]))
      ∧ (d.g (F.bp_BP_STAT_STATE n) = 1 → 16 ≤ t.good →
          Answers (.portUp p) s (fun e => e.g (F.bp_BP_STAT_STATE n) = 2 ∧ e.bpSt n = { t with missing := 0 } ∧ others e ∧ e.g ⟨bpPage n + 0x10, 0, 0⟩ = 1
            ∧ d.regsBut e ((F.bp_BP_STAT_STATE n).addr :: evtAddrs (bpPage n))))
      ∧ (d.g (F.bp_BP_STAT_STATE n) = 2 → d.g (F.bp_LOSS_TICKS n) ≤ t.missing →
          Answers (.portLost p) s (fun e => e.g (F.bp_BP_STAT_STATE n) = 3 ∧ e.bpSt n = { t with lostTick := d.time.frame / 8, good := 0 } ∧ others e
            ∧ e.g ⟨bpPage n + 0x10, 1, 1⟩ = 1 ∧ ∀ k < 2, d.axState (2 * n + k) ≠ 0 → e.axState (2 * n + k) = 5 ∧ e.g (F.ax_AX_STAT_CAUSE (2 * n + k)) = 3))
      ∧ (d.g (F.bp_BP_STAT_STATE n) = 3 → t.lostTick + 8 ≤ d.time.frame / 8 →
          Answers (.portResync p) s (fun e => e.g (F.bp_BP_STAT_STATE n) = 1 ∧ e.bpSt n = { t with good := 0, missing := 0 } ∧ others e
            ∧ d.regsBut e [(F.bp_BP_STAT_STATE n).addr]))

/-- AX_CMD with its key, where the sequencer has started no move of the axis in this tick. MOVE, but in FAULT_LATCHED, is accepted from IDLE or MOVING with limits that
are not 0 and no limit input active ahead, and else refused with its code, START_REFUSED and its event; in FAULT_LATCHED with 1. HOME, but in FAULT_LATCHED, is accepted
from IDLE with speeds and stop limits that are not 0. AX_STOP ramps a moving or homing axis to rest from the tick after. CLEAR_ERR leaves ERROR once its cause has ended:
a bridge fault with a good driver status, lost inputs with DI levels again, another cause at rest. In the tick of a start by the sequencer each of the four is refused
with 2. A wrong key changes CMD_RESULT alone, to 3. -/
def Obligations.AxisCommands : Prop :=
  ∀ (a : Fin 16) (v : Word) (s : State), s.lets (F.ax_AX_CMD_OP a.val).addr →
    let d := s.dev
    let n := a.val
    let t := d.ax n
    let others := fun (e : Dev) => ∀ k, k ≠ n → e.ax k = d.ax k
    (Word.f v 31 16 = 0x4158 →
      (Word.f v 2 0 = 1 → d.st ≠ 8 → t.seqTick ≠ d.tickNo → d.axRefusal n (Word.f v 6 4) 0 = 0 →
        Answers (.move a v) s (fun e => e.axState n = 2 ∧ e.g (F.ax_AX_STAT_DONE n) = 0 ∧ e.g (F.ax_AX_STAT_CMD_RESULT n) = 0 ∧ others e
          ∧ (e.ax n).next = some (.move ((d.vi (F.ax_MOVEk_TARGET n (Word.f v 6 4)) + 0) * nmU) (d.v (F.ax_MOVEk_VMAX n (Word.f v 6 4)))
              (d.v (F.ax_MOVEk_AMAX n (Word.f v 6 4))) (d.v (F.ax_MOVEk_JMAX n (Word.f v 6 4))))
          ∧ d.regsBut e [(F.ax_AX_STAT_STATE n).addr]))
      ∧ (Word.f v 2 0 = 1 → d.st ≠ 8 → t.seqTick ≠ d.tickNo → d.axRefusal n (Word.f v 6 4) 0 ≠ 0 →
        Answers (.move a v) s (fun e => e.axState n = d.axState n ∧ e.g (F.ax_AX_STAT_CMD_RESULT n) = d.axRefusal n (Word.f v 6 4) 0
          ∧ e.g (F.ax_AX_FLAGS_START_REFUSED n) = 1 ∧ e.g ⟨axPage n + 0x10, 7, 7⟩ = 1
          ∧ e.ax n = { t with hostTick := d.tickNo, undo := (e.ax n).undo } ∧ others e))
      ∧ (Word.f v 2 0 = 1 → d.st = 8 → t.seqTick ≠ d.tickNo → Answers (.move a v) s (fun e => d.onlyEvent e ∧ e.g (F.ax_AX_STAT_CMD_RESULT n) = 1
          ∧ e.g (F.ax_AX_FLAGS_START_REFUSED n) = 1 ∧ e.axState n = d.axState n))
      ∧ (Word.f v 2 0 = 2 → d.st ≠ 8 → t.seqTick ≠ d.tickNo → d.axState n = 1 → d.v (F.ax_HOME_VFAST n) ≠ 0 → d.v (F.ax_HOME_VSLOW n) ≠ 0 →
          d.v (F.ax_ALIM_STOP n) ≠ 0 → d.v (F.ax_JLIM_STOP n) ≠ 0 →
        Answers (.home a v) s (fun e => e.axState n = 4 ∧ e.g (F.ax_AX_STAT_HOMED n) = 0 ∧ e.g (F.ax_AX_STAT_CMD_RESULT n) = 0 ∧ others e
          ∧ e.g (F.ax_AX_STAT_HOME_STEP n) = (if t.home.deb = true then 4 else 1) ∧ d.regsBut e [(F.ax_AX_STAT_STATE n).addr]))
      ∧ (Word.f v 2 0 = 3 → t.seqTick ≠ d.tickNo → d.axState n = 2 ∨ d.axState n = 4 →
        Answers (.axStop a v) s (fun e => e.axState n = 3 ∧ e.g (F.ax_AX_STAT_CMD_RESULT n) = 0 ∧ others e ∧ (e.ax n).after = 0
          ∧ (e.ax n).plan = t.plan ∧ (e.ax n).next = some (.stop (d.v (F.ax_ALIM_STOP n)) (d.v (F.ax_JLIM_STOP n))) ∧ d.regsBut e [(F.ax_AX_STAT_STATE n).addr]))
      ∧ (Word.f v 2 0 = 4 → t.seqTick ≠ d.tickNo → d.axState n = 5 → d.bpUp (n / 2) = true →
          (t.bridge = true ∨ d.g (F.ax_AX_STAT_CAUSE n) = 3 → d.g (F.bps_DRV_STAT (n / 2) (n % 2)) % 16 = 1) →
          (t.bridge = false → d.g (F.ax_AX_STAT_CAUSE n) = 4 → d.time.frame < d.aux.diFrame + 3) →
          (t.bridge = false → d.g (F.ax_AX_STAT_CAUSE n) ≠ 3 → d.g (F.ax_AX_STAT_CAUSE n) ≠ 4 → t.mot.still = true) →
        Answers (.clearErr a v) s (fun e => e = { d with regs := e.regs, axes := e.axes } ∧ others e ∧ (e.ax n).bridge = false ∧ (e.ax n).mot = t.mot ∧ e.axState n = 1 ∧ e.g (F.ax_AX_STAT_CAUSE n) = 0 ∧ e.g (F.ax_AX_STAT_CMD_RESULT n) = 0
          ∧ d.regsBut e [(F.ax_AX_STAT_STATE n).addr]))
      ∧ (t.seqTick = d.tickNo → ∀ c ∈ [(1, Instr.move a v), (2, .home a v), (3, .axStop a v), (4, .clearErr a v)], Word.f v 2 0 = c.1 →
        Answers c.2 s (fun e => d.onlyRegs e ∧ e.g (F.ax_AX_STAT_CMD_RESULT n) = 2 ∧ e.axState n = d.axState n ∧ d.regsBut e [(F.ax_AX_STAT_STATE n).addr])))
    ∧ (Word.f v 31 16 ≠ 0x4158 → ∀ c ∈ [Instr.move a v, .home a v, .axStop a v, .clearErr a v],
        Answers c s (fun e => d.onlyRegs e ∧ e.g (F.ax_AX_STAT_CMD_RESULT n) = 3 ∧ e.axState n = d.axState n ∧ d.regsBut e [(F.ax_AX_STAT_STATE n).addr]))

/-- MOVE_DONE: a move at its target at rest is IDLE with DONE and its event. STOP_AT_REST: a ramp at rest is IDLE, or ERROR with its cause. LIMIT_RELEASE: a limit input
that has held its released level for DEBOUNCE is inactive. INPUT_LOST: an axis that uses an input goes, without DI levels for 2 frames, from IDLE to ERROR 4, and else
ramps there. AXIS_STALL: STALL_N ticks of stall are flagged, and with STALL_ACT lead to ERROR 2. STANDBY_ENTRY: STBY_DELAY at rest lowers the current. While homing:
HOME_AT_REST goes from step 3 to 4 and from 4 to 5, HOME_BACK_OFF_DONE ends the back-off once the input has held its released level for DEBOUNCE, HOME_QUALIFIED_EDGE ends
the second seek once it has held its active one, HOME_ZERO sets the position and is IDLE with HOMED, SWITCH_UNSTABLE and HOME_MAXDIST fail it with a ramp to rest. -/
def Obligations.AxesMoveAndHome : Prop :=
  ∀ (a : Fin 16) (s : State),
    let d := s.dev
    let n := a.val
    let t := d.ax n
    let others := fun (e : Dev) => ∀ k, k ≠ n → e.ax k = d.ax k
    let evt := fun (e : Dev) (b : Nat) => e.g ⟨axPage n + 0x10, b, b⟩ = 1
    let stop := Plan.stop (d.v (F.ax_ALIM_STOP n)) (d.v (F.ax_JLIM_STOP n))
    (∀ x v m j, t.plan = .move x v m j → d.axState n = 2 → t.next = none → t.hold = false → t.mot.still = true → t.mot.p = x →
      Answers (.moveDone a) s (fun e => e.axState n = 1 ∧ e.g (F.ax_AX_STAT_DONE n) = 1 ∧ evt e 0 ∧ e.ax n = { t with plan := .rest } ∧ others e))
    ∧ (d.axState n = 3 → t.next = none → t.mot.still = true →
        Answers (.stopAtRest a) s (fun e => e.axState n = (if t.after = 0 then 1 else 5) ∧ e.g (F.ax_AX_STAT_CAUSE n) = t.after % 16
          ∧ e.ax n = { t with plan := .rest, after := 0 } ∧ others e ∧ d.regsBut e [(F.ax_AX_STAT_STATE n).addr]))
    ∧ (t.limN.deb = true → t.limN.raw = false → d.axHeld n t.limN d.aux.diFrame = true →
        Answers (.limitRelease a 0) s (fun e => e.ax n = { t with limN := { t.limN with deb := false } } ∧ others e
          ∧ e.g (F.ax_AX_STAT_INPUTS n) = 2 * b2n t.limP.deb + b2n t.home.deb))
    ∧ (t.limP.deb = true → t.limP.raw = false → d.axHeld n t.limP d.aux.diFrame = true →
        Answers (.limitRelease a 1) s (fun e => e.ax n = { t with limP := { t.limP with deb := false } } ∧ others e
          ∧ e.g (F.ax_AX_STAT_INPUTS n) = 4 * b2n t.limN.deb + b2n t.home.deb))
    ∧ (d.v (F.ax_AX_IN_HOME_EN n) = 1 ∨ d.v (F.ax_AX_IN_LIMN_EN n) = 1 ∨ d.v (F.ax_AX_IN_LIMP_EN n) = 1 → d.aux.diFrame + 3 ≤ d.time.frame →
        1 ≤ d.axState n → d.axState n ≤ 4 → t.after ≠ 4 →
        Answers (.inputLost a) s (fun e => e.g (F.ax_AX_FLAGS_INPUT_LOST n) = 1 ∧ evt e 6 ∧ others e
          ∧ (d.axState n = 1 → e.axState n = 5 ∧ e.g (F.ax_AX_STAT_CAUSE n) = 4) ∧ (d.axState n ≠ 1 → e.axState n = 3 ∧ (e.ax n).after = 4)))
    ∧ (d.v (F.ax_AX_CFG_STALL_EN n) = 1 → 1 ≤ d.axState n → d.axState n ≤ 4 → 0 < t.stallRun → d.v (F.ax_STALL_N n) ≤ t.stallRun →
        Answers (.axisStall a) s (fun e => e.g (F.ax_AX_FLAGS_STALL n) = 1 ∧ evt e 2 ∧ others e ∧ (e.ax n).stallRun = 0
          ∧ (d.v (F.ax_AX_CFG_STALL_ACT n) = 1 → e.axState n = 5 ∧ e.g (F.ax_AX_STAT_CAUSE n) = 2 ∧ e.g (F.ax_AX_STAT_HOMED n) = 0)))
    ∧ (d.g (F.ax_AX_STAT_LEVEL n) = 2 → d.axState n ≠ 5 → 50 * d.v (F.ax_STBY_DELAY n) ≤ t.restTicks →
        Answers (.standbyEntry a) s (fun e => e.g (F.ax_AX_STAT_LEVEL n) = 3 ∧ e.ax n = { t with standby := true, ramp := 0 } ∧ others e))
    ∧ (d.axState n = 4 →
        (∀ al jl, t.plan = .stop al jl → t.next = none → t.mot.still = true → d.g (F.ax_AX_STAT_HOME_STEP n) = 3 ∨ d.g (F.ax_AX_STAT_HOME_STEP n) = 4 →
          Answers (.homeAtRest a) s (fun e => e.g (F.ax_AX_STAT_HOME_STEP n) = d.g (F.ax_AX_STAT_HOME_STEP n) + 1 ∧ others e
            ∧ (e.ax n).next = some (d.axSeek n (decide (d.g (F.ax_AX_STAT_HOME_STEP n) = 4)) (d.v (F.ax_HOME_VSLOW n)))))
        ∧ (d.g (F.ax_AX_STAT_HOME_STEP n) = 4 → t.backDone = false → t.home.deb = false → t.home.raw = false → d.axHeld n t.home d.aux.diFrame = true →
          Answers (.homeBackOffDone a) s (fun e => e.ax n = { t with backDone := true, next := some stop } ∧ e.regs = d.regs ∧ others e))
        ∧ (d.g (F.ax_AX_STAT_HOME_STEP n) = 5 → t.home.deb = true → t.home.raw = true → t.seekAt ≤ t.home.since →
            d.axHeld n t.home d.aux.diFrame = true →
          Answers (.homeQualifiedEdge a) s (fun e => e.g (F.ax_AX_STAT_HOME_STEP n) = 6 ∧ e.ax n = { t with next := some stop } ∧ others e))
        ∧ (6 ≤ d.g (F.ax_AX_STAT_HOME_STEP n) → t.next = none → t.mot.still = true →
          Answers (.homeZero a) s (fun e => e.axState n = 1 ∧ e.g (F.ax_AX_STAT_HOMED n) = 1 ∧ e.g (F.ax_AX_STAT_HOME_STEP n) = 0
            ∧ e.g (F.ax_AX_STAT_DONE n) = 1 ∧ evt e 3 ∧ others e
            ∧ (e.ax n).mot = (⟨t.mot.p + (d.vi (F.ax_HOME_OFS n) * nmU - t.edgePos), 0, 0⟩ : Mot).grid))
        ∧ (d.axChatHit n = true →
          Answers (.switchUnstable a) s (fun e => e.axState n = 3 ∧ e.g (F.ax_AX_FLAGS_SWITCH_UNSTABLE n) = 1 ∧ e.g (F.ax_AX_FLAGS_HOME_FAIL n) = 1
            ∧ evt e 4 ∧ (e.ax n).after = 5 ∧ others e))
        ∧ (d.v (F.ax_HOME_MAXDIST n) ≠ 0 → d.g (F.ax_AX_STAT_HOME_STEP n) ∈ [1, 4, 5] →
            (d.v (F.ax_HOME_MAXDIST n) : Int) * nmU ≤ absI (t.mot.p - t.base) →
          Answers (.homeMaxdist a) s (fun e => e.axState n = 3 ∧ e.g (F.ax_AX_FLAGS_HOME_FAIL n) = 1 ∧ evt e 4 ∧ (e.ax n).after = 6 ∧ others e)))


/-! ### The LED matrix and the isolated die (11, 17, 20 R523) -/

/-- Of an enabled matrix. MATRIX_FRAME_START: a frame starts at row 0 when it begins to run or after row 15, and swaps the buffers where an arming waits for it.
ROW_SLOT_START: row slots follow each other. SYNC_EDGE: an edge of the selected input and polarity is counted; in RESTART mode it starts a frame; in NEXT mode the first
of a matrix frame arms the next frame's swap, or is told where nothing is armed, and a further one does nothing else. LAMP_TEMP_MEASURE: once in 64 matrix frames, a
reading from -40 to 150 C sets SCALE, where it lowers it, lies 2 C below the last one that set it or ends a fault, and HOT with its 2 C of hysteresis. DIAG_UNAVAILABLE:
an LED that needs a stretched pulse and has found no slot for it in 256 matrix frames is recorded. -/
def Obligations.LedMatrixRuns : Prop :=
  ∀ s : State,
    let x := s.iso.st
    let l := x.led
    (l.en = true → 2 ≤ s.dev.st → (l.running = false ∨ l.row = 15 ∧ l.begun = true) →
      AnswersBoth .matrixFrameStart s (fun d y => d = s.dev ∧ y.st.led.running = true ∧ y.st.led.row = 0 ∧ y.st.led.begun = false
        ∧ y.st.led.mf = (if l.running = true then l.mf + 1 else l.mf)
        ∧ (l.armed = true → x.f F.led_LED_CTRL_SYNC_SRC = 0 ∨ l.synced = true → y.st.led.front = 1 - l.front ∧ y.st.led.armed = false
            ∧ y.st.led.swaps = l.swaps + 1 ∧ (ledPage, 0, []) ∈ y.evts)
        ∧ (l.armed = false → y.st.led.front = l.front ∧ y.st.led.swaps = l.swaps)))
    ∧ (∀ (b : Option Nat) (ua mv : List Nat), l.en = true → l.running = true → ¬ (l.begun = true ∧ l.row = 15) →
        AnswersBoth (.rowSlotStart b ua mv) s (fun d y => d = s.dev ∧ y.st.led.begun = true
          ∧ y.st.led.row = (if l.begun = true then l.row + 1 else l.row) ∧ y.st.led.mf = l.mf ∧ y.st.led.front = l.front))
    ∧ (∀ (act : Bool) (n : Fin 4096), l.en = true → l.cf F.led_LED_CTRL_SYNC_SRC = 1 ∨ l.cf F.led_LED_CTRL_SYNC_SRC = 2 →
        bit l.ctl.toNat 3 = act →
        AnswersBoth (.syncEdge act n) s (fun d y => d = s.dev ∧ y.st.led.syncs = l.syncs + 1
          ∧ (bit l.ctl.toNat 4 = true → y.st.led.row = 0 ∧ y.st.led.running = true ∧ (l.armed = false → (ledPage, 1, []) ∈ y.evts))
          ∧ (bit l.ctl.toNat 4 = false → l.edged = false → y.st.led = { l with syncs := l.syncs + 1, edged := true, synced := l.synced || l.armed }
              ∧ y.evts = s.iso.evts ++ (if l.armed = true then [] else [(ledPage, 1, [])]))
          ∧ (bit l.ctl.toNat 4 = false → l.edged = true → y.st.led = { l with syncs := l.syncs + 1 } ∧ y.evts = s.iso.evts)))
    ∧ (∀ temp : BitVec 16, l.en = true → (∀ f, l.measAt = some f → f + 64 ≤ l.mf) → -640 ≤ temp.toInt → temp.toInt ≤ 2400 →
        AnswersBoth (.lampTempMeasure temp) s (fun d y => d = s.dev ∧ y.st.led.tLamp = temp.toInt ∧ y.st.led.therm = false
          ∧ y.st.led.scale = (if l.therm = true ∨ l.scaleOf temp.toInt < l.scale ∨ temp.toInt + 32 ≤ l.setT then l.scaleOf temp.toInt else l.scale)
          ∧ y.st.led.measAt = some l.mf
          ∧ (l.hfi F.led_T_OFF ≤ temp.toInt → y.st.led.hot = true) ∧ (temp.toInt < l.hfi F.led_T_OFF - 32 → y.st.led.hot = false)))
    ∧ ∀ led : Fin 512, l.en = true → l.wantsStretch led.val = true → Tab.at 0 l.due led.val + 256 ≤ l.mf →
        AnswersDie (.diagUnavailable led) s (fun y => led.val ∈ y.led.unavail ∧ Tab.at 0 y.led.due led.val = l.mf ∧ y.led.diag = l.diag)
          [(ledPage, 4, [led.val])]

/-- What the host writes for the matrix goes to the isolated die with the next command frame. LED_FRAME_WRITE: a word of the back buffer while nothing is armed; one of
the front buffer, or any while an arming waits, is refused, counted in ERR_INFO and recorded. LED_ARM and LED_DISARM, the writes of LED_SWAP, and DIAG_CLEAR. -/
def Obligations.LedWritesJoinTheCommandFrame : Prop :=
  ∀ (v : Word) (s : State),
    let d := s.dev
    (∀ ofs : BitVec 12, s.lets (0x10A0000 + ofs.toNat) → ofs.toNat % 4 = 0 →
      (ofs.toNat / 4 / 512 ≠ d.g F.led_LED_STAT_FRONT → d.g F.led_LED_STAT_ARMED = 0 → d.link.ledArm = 0 →
        Answers (.ledFrameWrite ofs v) s (fun e => e = { d with link := e.link } ∧ Tab.at 0 e.link.ledWin (ofs.toNat / 4) = v &&& 0xFFF
          ∧ (∀ k, k ≠ ofs.toNat / 4 → Tab.at 0 e.link.ledWin k = Tab.at 0 d.link.ledWin k)
          ∧ e.link.queue = d.link.queue ++ [(0x10A0000 + ofs.toNat, (v &&& 0xFFF).toNat)]))
      ∧ (ofs.toNat / 4 / 512 = d.g F.led_LED_STAT_FRONT ∨ d.g F.led_LED_STAT_ARMED = 1 ∨ d.link.ledArm ≠ 0 →
        Answers (.ledFrameWrite ofs v) s (fun e => d.onlyEvent e ∧ e.g ⟨ledPage + 0x10, 8, 8⟩ = 1
          ∧ e.g (F.hdr_ERR_INFO_COUNT ledPage) = min (d.g (F.hdr_ERR_INFO_COUNT ledPage) + 1) 255
          ∧ d.regsBut e ([ledPage + 0x20, ledPage + 0x24] ++ evtAddrs ledPage))))
    ∧ (s.lets F.led_LED_SWAP_ARM.addr →
        (Word.f v 0 0 = 1 → Word.f v 1 1 = 0 → Answers (.ledArm v) s (fun e => e = { d with link := e.link } ∧ e.link.ledArm = 1
          ∧ e.link.queue = d.link.queue ++ [(ledPage + 0x4C, v.toNat)]))
        ∧ (Word.f v 1 1 = 1 → Answers (.ledDisarm v) s (fun e => e = { d with link := e.link } ∧ e.link.ledArm = 0
          ∧ e.link.queue = d.link.queue ++ [(ledPage + 0x4C, v.toNat)])))
    ∧ (s.lets F.led_DIAG_CLEAR.addr → Answers (.diagClear v) s (fun e => e = { d with link := e.link }
        ∧ e.link.queue = d.link.queue ++ [(ledPage + 0x1C0, v.toNat)]))

/-- With the PLLs locked and neither yet in this frame: ISO_REPORT_RX shows the link good, brings the vote, recording its return, and the inputs, and takes over the
events it carries; ISO_REPORT_MISSING is counted, the second in a row ends LINK_OK. PERMIT_LOST: a vote that a report shows lost in ARMED or RUNNING is recorded once, and
asks for an ABORT where none is asked for and no controlled stop runs. PERMIT_CLEAR with its key goes to the die in IDLE with a channel that can be cleared, and else is
refused and counted. DO_OUT_WRITE on the unlocked page takes the host's bits but for those that OUT_SET wrote in the same frame. -/
def Obligations.BarrierLinkAndPermit : Prop :=
  ∀ s : State,
    let d := s.dev
    (d.ctl.pllLocked = true → d.link.rxFrame ≠ d.time.frame + 1 →
      AnswersBoth .isoReportRx s (fun e y => y = { s.iso with repEvts := [] } ∧ e.link.rxFrame = d.time.frame + 1 ∧ e.link.everRx = true ∧ e.link.missRun = 0
        ∧ e.link.vote = s.iso.rep.vote ∧ e.g F.iso_ISO_STAT_LINK_OK = 1 ∧ e.g F.iso_ISO_STAT_AGE = 0 ∧ e.aux.diFrame = d.time.frame
        ∧ e.aux.samples = d.aux.samples ++ [(d.time.frame, s.iso.rep.di, d.time.bSec, d.time.bNs)]
        ∧ (s.iso.rep.vote = true → d.link.vote = false → e.g ⟨isoPage + 0x10, 1, 1⟩ = 1)))
    ∧ (d.ctl.pllLocked = true → d.link.rxFrame ≠ d.time.frame + 1 → Answers .isoReportMissing s (fun e => e.link.missRun = d.link.missRun + 1
        ∧ e.link.rxFrame = d.time.frame + 1 ∧ e.g F.iso_CNT_LINK_ERR = satU F.iso_CNT_LINK_ERR.width (d.g F.iso_CNT_LINK_ERR + 1)
        ∧ e.g ⟨isoPage + 0x10, 8, 8⟩ = 1 ∧ (d.link.missRun = 1 → e.g F.iso_ISO_STAT_LINK_OK = 0 ∧ e.g ⟨isoPage + 0x10, 9, 9⟩ = 1)))
    ∧ (d.link.everRx = true → d.g F.iso_PERMIT_STAT_VOTE = 0 → d.st = 6 ∨ d.st = 7 → d.link.permitTold = false →
        Answers .permitLost s (fun e => e.ctl = (if d.ctl.abortInt = none ∧ d.ctl.stop = none then { d.ctl with abortInt := some false, abortFrame := d.time.frame } else d.ctl)
          ∧ e.link = { d.link with permitTold := true } ∧ e.g ⟨isoPage + 0x10, 0, 0⟩ = 1 ∧ d.regsBut e (evtAddrs isoPage)))
    ∧ (∀ v : Word, s.lets F.iso_PERMIT_CLEAR_KEY.addr →
        (d.st = 5 → d.g F.iso_PERMIT_STAT_CLEARABLE ≠ 0 → Word.f v 31 16 = 0x5043 →
          Answers (.permitClear v) s (fun e => e = { d with link := e.link } ∧ e.link.queue = d.link.queue ++ [(isoPage + 0x4C, v.toNat)]))
        ∧ (d.st = 5 → d.g F.iso_PERMIT_STAT_CLEARABLE ≠ 0 → Word.f v 31 16 ≠ 0x5043 → Answers (.permitClear v) s (d.refused 0x87 (isoPage + 0x4C)))
        ∧ (d.st ≠ 5 ∨ d.g F.iso_PERMIT_STAT_CLEARABLE = 0 → Answers (.permitClear v) s (d.refused 0x82 (isoPage + 0x4C))))
    ∧ ∀ v : Word, s.lets F.iso_DO_OUT.addr → d.g (F.hdr_PAGE_CTRL_LOCK isoPage) = 0 →
        Answers (.doOutWrite v) s (fun e => d.onlyRegs e ∧ d.regsBut e [F.iso_DO_OUT.addr]
          ∧ ∀ b < 16, bit (e.g F.iso_DO_OUT) b
              = if d.link.outSet.1 = d.time.frame ∧ bit d.link.outSet.2.1 b = true then bit d.link.outSet.2.2 b else bit v.toNat b)

/-- What happens on the isolated die. COMMAND_LOSS: after two missing command frames the LE commands are 0 and of the outputs those of DO_SAFE alone stay.
PERMIT_CHANNEL_CHANGE: a filtered level takes part in the vote of two good channels out of three. PERMIT_DISCREPANCY: a channel that differs from the two others for
DISC_MS is faulted; PERMIT_CLEARABLE: once all have read false and then true for DISC_MS it may be cleared. LE_OVERLOAD and DO_FAULT latch the overload of an output that
is on, LE_STUCK one that reads on although it is switched off. DI_CHANGE: the inputs follow. VSYS_UV switches all outputs off but stuck ones, until VSYS_RESTORE; ISO_HOT
and ISO_COOL set and clear HOT. ISO_DIE_POWER_UP: the die starts anew with all outputs off. -/
def Obligations.IsolatedDieFollowsItsInputs : Prop :=
  ∀ s : State,
    let x := s.iso.st
    (2 ≤ s.iso.missed → x.lost = false →
      AnswersDie .commandLoss s (fun y => y = { x with leCmd := 0, doCmd := x.doCmd &&& x.f F.iso_DO_SAFE, lost := true }) [])
    ∧ (∀ (c : Fin 3) (on : Bool), bit x.level c.val ≠ on →
        AnswersDie (.permitChannelChange c on) s (fun y => y.level = setBitN x.level c.val on ∧ y.since = s.dev.now ∧ y.faulted = x.faulted
          ∧ y.vote = decide (2 ≤ ((List.range 3).filter (fun k => bit y.level k && !bit y.faulted k)).length) ∧ y.leCmd = x.leCmd) [])
    ∧ (∀ c : Fin 3, bit x.level ((c.val + 1) % 3) = bit x.level ((c.val + 2) % 3) → bit x.level c.val ≠ bit x.level ((c.val + 1) % 3) →
        x.since + x.disc ≤ s.dev.now → bit x.faulted c.val = false →
        AnswersDie (.permitDiscrepancy c) s (fun y => bit y.faulted c.val = true ∧ bit y.clearable c.val = false ∧ y.level = x.level
          ∧ y.vote = decide (2 ≤ ((List.range 3).filter (fun k => bit y.level k && !bit y.faulted k)).length)) [(isoPage, 2, [c.val])])
    ∧ (x.level = 7 → x.since + x.disc ≤ s.dev.now →
        AnswersDie .permitClearable s (fun y => y = { x with clearable := x.clearable ||| (x.faulted &&& x.falseSeen) }) [])
    ∧ (∀ n : Fin 48, (x.leOut n.val = true → bit x.ovl n.val = false →
          AnswersDie (.leOverload n) s (fun y => y = { x with ovl := setBitN x.ovl n.val true, ovlAt := y.ovlAt } ∧ bit y.ovl n.val = true) [(isoPage, 3, [n.val])])
        ∧ (x.vote = false ∨ bit x.leCmd n.val = false ∨ bit x.ovl n.val = true ∨ x.uv = true → bit x.stuck n.val = false →
          AnswersDie (.leStuck n) s (fun y => y = { x with stuck := setBitN x.stuck n.val true } ∧ y.leOut n.val = true) [(isoPage, 4, [n.val])])
        ∧ ∀ on : Bool, AnswersDie (.diChange n on) s (fun y => y = { x with di := setBitN x.di n.val on } ∧ bit y.di n.val = on) [])
    ∧ (∀ n : Fin 16, x.doOut n.val = true →
        AnswersDie (.doFault n) s (fun y => y = { x with doFault := setBitN x.doFault n.val true, doAt := y.doAt } ∧ y.doOut n.val = false) [(isoPage, 5, [n.val])])
    ∧ (x.uv = false → AnswersDie .vsysUv s (fun y => y = { x with uv := true } ∧ (∀ n < 48, bit x.stuck n = false → y.leOut n = false)
        ∧ ∀ n < 16, y.doOut n = false) [(isoPage, 6, [])])
    ∧ AnswersDie .vsysRestore s (fun y => y = { x with uv := false }) []
    ∧ (x.hot = false → AnswersDie .isoHot s (fun y => y = { x with hot := true }) [(isoPage, 7, [])])
    ∧ AnswersDie .isoCool s (fun y => y = { x with hot := false }) []
    ∧ AnswersBoth .isoDiePowerUp s (fun d y => d = s.dev ∧ y.st = { since := s.dev.now } ∧ y.evts = [] ∧ (∀ n < 48, y.st.leOut n = false)
        ∧ ∀ n < 16, y.st.doOut n = false)


/-! ### DMA (13) -/

/-- DMA_START, DMA_STOP, RESUME and SKIP, CH_CMD with its key and OP: DMA_START of an enabled channel in IDLE, in IDLE or later, fetches its first descriptor, and is
refused with 2 or 3 elsewhere. DMA_STOP takes a channel that is not in IDLE there, with ABORTED written back for one in WAIT_TRIG; of one in execution a part of the
operation is done first (log 28). RESUME of a halted channel fetches its descriptor again, and SKIP reads its LINK. DOORBELL in TAIL_WAIT has the tail's LINK read, and in
RUNNING and WAIT_TRIG is remembered. A read is done at once, and changes no byte, for a channel that runs alone. Else CMD_RESULT alone changes, to 1 for a wrong key.
DESCRIPTOR_FETCH_DONE and LINK_READ_DONE end a read that the engine has served, or serves first. DESCRIPTOR_FETCH_DONE: a bad read halts with code 5, a failed check with
its own; else BYTES_LEFT shows LENGTH, and the descriptor waits for its trigger or is in execution. LINK_READ_DONE: a bad read halts with 5, a NEXT in the device region
with 7; a last descriptor ends in TAIL_WAIT, or has its LINK read again after a doorbell; else the one at NEXT is fetched. DMA_TRIGGER, of an enabled channel, starts a
waiting descriptor, is latched or is missed. DMA_TIMER: the timer of a channel with that source counts on from its START. -/
def Obligations.DmaCommandsAndChains : Prop :=
  (
    ∀ (c : Fin 32) (v : Word) (s : State),
      let d := s.dev
      let n := c.val
      let t := d.dma n
      let cur := d.dmaCur n
      let chain := d.g (F.dma_CHAIN_LO n) * 64 + d.g (F.dma_CHAIN_HI n) * 2 ^ 32
      let others := fun (e : Dev) => ∀ k, k ≠ n → e.dma k = d.dma k
      let issues := fun (i : Instr) (phase a k : Nat) (P : Dev → Prop) => ∃ u, exec i s = .next u ∧ u = { s with dev := u.dev, mem := u.mem } ∧ P u.dev
        ∧ (u.dev.dma n).phase = phase ∧ u.dev.dmaCur n = a
        ∧ (d.dmaAlone n → u.mem = s.mem ∧ others u.dev ∧ (u.dev.dma n).served = true ∧ (u.dev.dma n).read = memBytes s.mem a k)
      let only := fun (r : Nat) (e : Dev) => d.onlyRegs e ∧ e.g (F.dma_CH_STAT_CMD_RESULT n) = r ∧ e.dmaSt n = d.dmaSt n
        ∧ d.regsBut e [(F.dma_CH_STAT_STATE n).addr]
      (s.lets (F.dma_CH_CMD_OP n).addr →
        (Word.f v 31 16 = 0x444D →
          (Word.f v 2 0 = 1 → d.dmaSt n = 0 → d.g (F.hdr_PAGE_CTRL_ENABLE (dmaPage n)) = 1 → 5 ≤ d.st →
            issues (.dmaStart c v) 1 chain 64 (fun e => e.dmaSt n = 1 ∧ e.g (F.dma_CH_STAT_CMD_RESULT n) = 0 ∧ e.g (F.dma_CH_STAT_TRIG_PEND n) = 0
              ∧ (e.dma n).timer = some (d.now + 500 * d.g (F.dma_TIMER_US n)) ∧ (e.dma n).desc = []))
          ∧ (Word.f v 2 0 = 1 → d.dmaSt n ≠ 0 ∨ d.g (F.hdr_PAGE_CTRL_ENABLE (dmaPage n)) = 0 → Answers (.dmaStart c v) s (only 2))
          ∧ (Word.f v 2 0 = 1 → d.dmaSt n = 0 → d.g (F.hdr_PAGE_CTRL_ENABLE (dmaPage n)) = 1 → d.st < 5 → Answers (.dmaStart c v) s (only 3))
          ∧ (Word.f v 2 0 = 2 → d.dmaSt n ≠ 0 → ∃ u, exec (.dmaStop c v) s = .next u ∧ u = { s with dev := u.dev, mem := u.mem } ∧ u.dev.dmaSt n = 0
              ∧ u.dev.g (F.dma_CH_STAT_CMD_RESULT n) = 0 ∧ u.dev.g (F.dma_CH_STAT_TRIG_PEND n) = 0 ∧ u.dev.g (F.dma_CH_STAT_DB_PEND n) = 0
              ∧ u.dev.g ⟨dmaPage n + 0x10, 6, 6⟩ = 1 ∧ (u.dev.dma n).phase = 0
              ∧ (¬ (d.dmaSt n = 1 ∧ t.phase = 2) → d.dmaSt n ≠ 2 ∨ bit (descCtrl t.desc) 9 = false →
                  u.dev.dma n = { t with phase := 0, read := [] } ∧ others u.dev ∧ u.mem = s.mem)
              ∧ (d.dmaSt n = 2 → bit (descCtrl t.desc) 9 = true → cur + 64 ≤ d.devRegion → d.dmaAlone n →
                  ∀ a, memByte u.mem a = if cur + 0x30 ≤ a ∧ a < cur + 0x40 then (leBytes 8 (2 ^ 28) ++ leBytes 8 (2 ^ 64 - 1)).getD (a - (cur + 0x30)) 0
                    else memByte s.mem a))
          ∧ (Word.f v 2 0 = 2 → d.dmaSt n = 0 → Answers (.dmaStop c v) s (only 2))
          ∧ (Word.f v 2 0 = 3 → d.dmaSt n = 4 →
            issues (.resume c v) 1 cur 64 (fun e => e.dmaSt n = 1 ∧ e.g (F.dma_CH_STAT_CMD_RESULT n) = 0 ∧ e.g (F.dma_CH_STAT_ERR_CODE n) = 0))
          ∧ (Word.f v 2 0 = 3 → d.dmaSt n ≠ 4 → Answers (.resume c v) s (only 2))
          ∧ (Word.f v 2 0 = 4 → d.dmaSt n = 4 →
            issues (.skip c v) 3 cur 8 (fun e => e.dmaSt n = 1 ∧ e.g (F.dma_CH_STAT_CMD_RESULT n) = 0 ∧ e.g (F.dma_CH_STAT_ERR_CODE n) = 0
              ∧ e.g (F.dma_CH_STAT_DB_PEND n) = 0))
          ∧ (Word.f v 2 0 = 4 → d.dmaSt n ≠ 4 → Answers (.skip c v) s (only 2)))
        ∧ (Word.f v 31 16 ≠ 0x444D → ∀ i ∈ [Instr.dmaStart c v, .dmaStop c v, .resume c v, .skip c v], Answers i s (only 1)))
      ∧ (s.lets (F.dma_DOORBELL n).addr →
        (d.dmaSt n = 3 → issues (.doorbell c v) 3 (d.g2 (F.dma_TAIL_LO n) (F.dma_TAIL_HI n)) 8 (fun e => e.dmaSt n = 3 ∧ e.g (F.dma_CH_STAT_DB_PEND n) = 0))
        ∧ (d.dmaSt n = 1 ∨ d.dmaSt n = 2 → Answers (.doorbell c v) s (fun e => d.onlyRegs e ∧ e.g (F.dma_CH_STAT_DB_PEND n) = 1 ∧ e.dmaSt n = d.dmaSt n
          ∧ d.regsBut e [(F.dma_CH_STAT_STATE n).addr]))
        ∧ (d.dmaSt n = 0 ∨ d.dmaSt n = 4 → Answers (.doorbell c v) s (fun e => e = d))))
  ∧ (
    ∀ (c : Fin 32) (s : State),
      let d := s.dev
      let n := c.val
      let t := d.dma n
      let r1 := dmaAwait n (d, s.mem)
      let d1 := r1.1
      let t1 := d1.dma n
      let others := fun (e : Dev) => ∀ k, k ≠ n → e.dma k = d.dma k
      let others1 := fun (e : Dev) => ∀ k, k ≠ n → e.dma k = d1.dma k
      let evt := fun (e : Dev) (b : Nat) => e.g ⟨dmaPage n + 0x10, b, b⟩ = 1
      let moves := fun (i : Instr) (P : Dev → List Host.Cell → Prop) => ∃ u, exec i s = .next u ∧ u = { s with dev := u.dev, mem := u.mem } ∧ P u.dev u.mem
      let halted := fun (code : Nat) (e : Dev) => e.dmaSt n = 4 ∧ e.g (F.dma_CH_STAT_ERR_CODE n) = code ∧ evt e 4 ∧ (e.dma n).phase = 0
      let fetches := fun (phase a k : Nat) (e : Dev) (m : List Host.Cell) => (e.dma n).phase = phase ∧ e.dmaCur n = a
        ∧ (d1.dmaAlone n → m = r1.2 ∧ others1 e ∧ (e.dma n).served = true ∧ (e.dma n).read = memBytes r1.2 a k)
      (t.phase = 1 ∨ t.phase = 3 →
        (t.served = true → r1 = (d, s.mem))
        ∧ (t.served = false → d.dmaAlone n → r1.2 = s.mem ∧ others d1 ∧ d1.dmaSt n = d.dmaSt n ∧ d1.dmaCur n = d.dmaCur n ∧ d1.dmaAlone n
            ∧ t1 = { t with served := true, read := memBytes s.mem (d.dmaCur n) (if t.phase = 1 then 64 else 8), bad := t1.bad }))
      ∧ (t.phase = 1 →
        (t1.bad = true → moves (.descriptorFetchDone c) (fun e m => halted 5 e ∧ others1 e ∧ m = r1.2))
        ∧ (t1.bad = false → d1.descCheck n (d1.dmaCur n) t1.read ≠ 0 →
          moves (.descriptorFetchDone c) (fun e m => halted (d1.descCheck n (d1.dmaCur n) t1.read) e ∧ others1 e ∧ m = r1.2))
        ∧ (t1.bad = false → d1.descCheck n (d1.dmaCur n) t1.read = 0 →
          moves (.descriptorFetchDone c) (fun e m => m = r1.2 ∧ d1.onlyRegs { e with dmas := d1.dmas } ∧ e.g (F.dma_BYTES_LEFT n) = descLen t1.read
            ∧ (e.dma n).desc = t1.read ∧ others1 e ∧ d1.regsBut e [(F.dma_BYTES_LEFT n).addr, (F.dma_CH_STAT_STATE n).addr]
            ∧ (bit (descCtrl t1.read) 7 = false → (e.dma n).phase = 2 ∧ e.dmaSt n = d1.dmaSt n)
            ∧ (bit (descCtrl t1.read) 7 = true → d1.g (F.dma_CH_STAT_TRIG_PEND n) = 1 →
                (e.dma n).phase = 2 ∧ e.dmaSt n = d1.dmaSt n ∧ e.g (F.dma_CH_STAT_TRIG_PEND n) = 0)
            ∧ (bit (descCtrl t1.read) 7 = true → d1.g (F.dma_CH_STAT_TRIG_PEND n) = 0 → (e.dma n).phase = 0 ∧ e.dmaSt n = 2))))
      ∧ (t.phase = 3 →
        let w := descF t1.read 0 8
        (∀ code, (t1.bad = true ∧ code = 5) ∨ (t1.bad = false ∧ d1.devRegion ≤ w / 64 * 64 ∧ code = 7) →
          moves (.linkReadDone c) (fun e m => halted code e ∧ (bit (descCtrl t1.desc) 9 = false → m = r1.2 ∧ others1 e)))
        ∧ (t1.bad = false → w / 64 * 64 < d1.devRegion →
          (w % 2 = 1 → d1.g (F.dma_CH_STAT_DB_PEND n) = 0 →
            moves (.linkReadDone c) (fun e m => m = r1.2 ∧ e.dmaSt n = 3 ∧ e.g2 (F.dma_TAIL_LO n) (F.dma_TAIL_HI n) = d1.dmaCur n ∧ evt e 1
              ∧ e.dma n = { t1 with phase := 0, read := [] } ∧ others1 e))
          ∧ (w % 2 = 1 → d1.g (F.dma_CH_STAT_DB_PEND n) = 1 →
            moves (.linkReadDone c) (fun e m => fetches 3 (d1.dmaCur n) 8 e m ∧ e.dmaSt n = 3 ∧ e.g2 (F.dma_TAIL_LO n) (F.dma_TAIL_HI n) = d1.dmaCur n
              ∧ e.g (F.dma_CH_STAT_DB_PEND n) = 0))
          ∧ (w % 2 = 0 → moves (.linkReadDone c) (fun e m => fetches 1 (w / 64 * 64) 64 e m ∧ e.dmaSt n = 1 ∧ (e.dma n).desc = []))))
      ∧ (0 < t.due →
        let u := { t with due := t.due - 1 }
        (d.g (F.hdr_PAGE_CTRL_ENABLE (dmaPage n)) = 1 →
          (d.dmaSt n = 2 → Answers (.dmaTrigger c) s (fun e => e.dmaSt n = 1
            ∧ e.dma n = { u with phase := 2, pos := 0, done := 0, err := 0, miss := none } ∧ others e
            ∧ d.regsBut e [(F.dma_CH_STAT_STATE n).addr]))
          ∧ (d.dmaSt n ≠ 2 → d.g (F.dma_CH_CTRL_TRIG_LATCH n) = 1 → d.g (F.dma_CH_STAT_TRIG_PEND n) = 0 →
            Answers (.dmaTrigger c) s (fun e => e.g (F.dma_CH_STAT_TRIG_PEND n) = 1 ∧ e.dmaSt n = d.dmaSt n ∧ e.dma n = u ∧ others e
              ∧ d.regsBut e [(F.dma_CH_STAT_STATE n).addr]))
          ∧ (d.dmaSt n ≠ 2 → d.g (F.dma_CH_CTRL_TRIG_LATCH n) = 0 ∨ d.g (F.dma_CH_STAT_TRIG_PEND n) = 1 →
            Answers (.dmaTrigger c) s (fun e => e.g (F.dma_TRIG_MISSED n) = min (d.g (F.dma_TRIG_MISSED n) + 1) 65535 ∧ e.g (F.dma_CH_FLAGS_TRIG_MISSED n) = 1
              ∧ evt e 5 ∧ e.dmaSt n = d.dmaSt n ∧ e.dma n = u ∧ others e)))
        ∧ (d.g (F.hdr_PAGE_CTRL_ENABLE (dmaPage n)) = 0 → Answers (.dmaTrigger c) s (fun e => e.regs = d.regs ∧ e.dma n = u ∧ others e)))
      ∧ ∀ x, t.timer = some x → d.g (F.dma_CH_CTRL_TRIG_SRC n) = 1 → x ≤ d.now →
          Answers (.dmaTimer c) s (fun e => e.regs = d.regs ∧ others e
            ∧ e.dma n = { t with timer := some (x + 500 * max 1 (d.g (F.dma_TIMER_US n))), due := t.due + 1 }))

/-- DESCRIPTOR_COMPLETE of a descriptor in execution (R383, R385, R387): a COPY leaves the bytes that the source held before it at the destination, overlapping or not; a
FILL leaves the pattern; a COMPARE changes no byte and reports the first difference, which halts with 8 under HALT_MISMATCH. No other byte of DRAM changes but the
written-back STATUS and MISMATCH_OFS, and the LINK read follows; a read error halts the channel with its code. So for a channel that runs alone while nothing waits in the
memory controller; with others in execution their fragments are served between its own, PRIO 1 before PRIO 0, in turn within a level and at most 16 outstanding, and no
byte outside their destinations and write-backs changes. -/
def Obligations.DmaDescriptorsComplete : Prop :=
  (∀ d : Dev,
    let first := fun (p last : Nat) => ∃ k < 32, d.dmaNext = some k ∧ d.g (F.dma_CH_CTRL_PRIO k) = p ∧ d.dmaReady k = true
      ∧ ∀ j < 32, d.g (F.dma_CH_CTRL_PRIO j) = p → d.dmaReady j = true → (k + 31 - last % 32) % 32 ≤ (j + 31 - last % 32) % 32
    ((∃ j < 32, d.dmaReady j = true ∧ d.g (F.dma_CH_CTRL_PRIO j) = 1) → first 1 d.eng.last1)
    ∧ ((∀ j < 32, d.dmaReady j = true → d.g (F.dma_CH_CTRL_PRIO j) ≠ 1) → (∃ j < 32, d.dmaReady j = true) → first 0 d.eng.last0)
    ∧ ((∀ j < 32, d.dmaReady j = false) → d.dmaNext = none)
    ∧ ∀ (m : List Host.Cell) (n : Fin 32), d.eng.out.length ≤ 16 →
        let e := (dmaTurn n.val (d, m)).1
        e.eng.out.length ≤ 16 ∧ ((d.dma n.val).phase = 2 → (e.dma n.val).pos = (d.dma n.val).pos + 1) ∧ ∀ k, k ≠ n.val → (e.dma k).pos = (d.dma k).pos)
  ∧ ∀ (c : Fin 32) (s : State),
    let d := s.dev
    let n := c.val
    let t := d.dma n
    let b := t.desc
    let ctl := descCtrl b
    let src := descSrc b
    let dst := descDst b
    let len := descLen b
    let r := (dmaRun n (descFrags b) (d, s.mem)).1.dma n
    let alone := d.dmaAlone n ∧ t.pos = 0 ∧ t.done = 0 ∧ t.err = 0 ∧ t.miss = none
    let pat := fun (a : Nat) => BitVec.ofNat 8 (descPat b / 256 ^ (a % 8) % 256)
    let back := fun (a : Nat) => bit ctl 9 = true ∧ d.dmaCur n + 0x30 ≤ a ∧ a < d.dmaCur n + 0x40
    let evt := fun (e : Dev) (b : Nat) => e.g ⟨dmaPage n + 0x10, b, b⟩ = 1
    let done := fun (e : Dev) => e.dmaSt n = 1 ∧ e.g (F.dma_DONE_COUNT n) = (d.g (F.dma_DONE_COUNT n) + 1) % 2 ^ 32 ∧ e.g (F.dma_BYTES_LEFT n) = 0
      ∧ (e.dma n).phase = 3 ∧ (e.dma n).desc = b
      ∧ (bit ctl 8 = true → evt e 0 ∧ ∀ k < 32, k ≠ n →
          e.dma k = { d.dma k with due := (d.dma k).due + b2n (d.g (F.dma_CH_CTRL_TRIG_SRC k) == 2 && d.g (F.dma_TRIG_CH k) == n) })
      ∧ (bit ctl 8 = false → ∀ k, k ≠ n → e.dma k = d.dma k)
    t.phase = 2 → d.dmaSt n = 1 → 0 < len → len ≤ 0x40000000 →
      (∃ u, exec (.descriptorComplete c) s = .next u ∧ u = { s with dev := u.dev, mem := u.mem } ∧ (∀ f ∈ u.dev.eng.out, f.chan = n → f.data = [] ∧ f.poison = false)
        ∧ (r.err = 0 → r.miss = none → u.dev.dmaSt n = 1 ∧ (u.dev.dma n).phase = 3
            ∧ u.dev.g (F.dma_DONE_COUNT n) = (d.g (F.dma_DONE_COUNT n) + 1) % 2 ^ 32)
        ∧ (r.err ≠ 0 → u.dev.dmaSt n = 4 ∧ u.dev.g (F.dma_CH_STAT_ERR_CODE n) = r.err % 256)
        ∧ ∀ a, d.quiet = true → ¬ back a → (∀ f ∈ d.eng.out, ¬ (f.dst ≤ a ∧ a < f.dst + f.data.length)) →
            (∀ k < 32, d.dmaReady k = true → ¬ (descDst (d.dma k).desc ≤ a ∧ a < descDst (d.dma k).desc + descLen (d.dma k).desc)
              ∧ ¬ ((d.dma k).phase = 4 ∧ d.dmaCur k + 0x30 ≤ a ∧ a < d.dmaCur k + 0x40)) →
            memByte u.mem a = memByte s.mem a)
      ∧ (alone → ctl % 16 = 1 → r.err = 0 → dst + len ≤ d.capacity → ∃ u, exec (.descriptorComplete c) s = .next u ∧ u = { s with dev := u.dev, mem := u.mem } ∧ done u.dev
        ∧ (∀ a, ¬ back a → memByte u.mem a = if dst ≤ a ∧ a < dst + len then memByte s.mem (src + (a - dst)) else memByte s.mem a)
        ∧ (src < dst + len ∧ dst < src + len → u.dev.g (F.dma_CH_FLAGS_OVERLAP n) = 1 ∧ evt u.dev 3))
      ∧ (alone → ctl % 16 = 2 → dst + len ≤ d.capacity → ∃ u, exec (.descriptorComplete c) s = .next u ∧ u = { s with dev := u.dev, mem := u.mem } ∧ done u.dev
        ∧ (∀ a, ¬ back a → memByte u.mem a = if dst ≤ a ∧ a < dst + len then pat a else memByte s.mem a))
      ∧ (alone → ctl % 16 = 3 → r.err = 0 →
        let first := (List.range len).find? (fun i => memByte s.mem (dst + i) != if bit ctl 11 = true then pat (dst + i) else memByte s.mem (src + i))
        ∃ u, exec (.descriptorComplete c) s = .next u ∧ u = { s with dev := u.dev, mem := u.mem }
          ∧ (∀ a, ¬ back a → memByte u.mem a = memByte s.mem a)
          ∧ u.dev.g2 (F.dma_MISMATCH_LO n) (F.dma_MISMATCH_HI n) = first.getD (2 ^ 64 - 1)
          ∧ (first ≠ none → u.dev.g (F.dma_CH_FLAGS_MISMATCH n) = 1 ∧ evt u.dev 2)
          ∧ (first = none ∨ bit ctl 10 = false → done u.dev)
          ∧ (first ≠ none → bit ctl 10 = true → u.dev.dmaSt n = 4 ∧ u.dev.g (F.dma_CH_STAT_ERR_CODE n) = 8 ∧ evt u.dev 4))
      ∧ (alone → ctl % 16 ∈ [1, 2, 3] → r.err ≠ 0 → ∃ u, exec (.descriptorComplete c) s = .next u ∧ u = { s with dev := u.dev, mem := u.mem } ∧ u.dev.dmaSt n = 4
        ∧ u.dev.g (F.dma_CH_STAT_ERR_CODE n) = r.err ∧ r.err ∈ [4, 6] ∧ evt u.dev 4 ∧ (u.dev.dma n).phase = 0)


/-! ### DRAM's controller (12) -/

/-- The end of a fragment on a subchannel. DRAM_READ_DONE: the read is judged by R360 with the marked device's symbols as erasures, and counted, corrected or recorded
accordingly; a corrected burst is written back unless a newer write of it waits; an uncorrectable or poisoned burst raises UE, and gives a management processor a bus
error. DRAM_WRITE changes the bytes it carries and no other, and leaves a burst that held bad data poisoned unless it writes it whole. DEV_MARKED: MARK_N corrections in a
row on one device mark it, where the subchannel has no mark yet. -/
def Obligations.DramFragmentsEnd : Prop :=
  ∀ (sc : Fin 2) (s : State),
    let d := s.dev
    let evt := fun (e : Dev) (b : Nat) => e.g ⟨ddrPage + 0x10, b, b⟩ = 1
    (∀ (k cls t : Nat) (tr : Bool) (syms : List (Fin 80)),
      let b := Tab.at {} d.ddr.bursts k
      let all := (b.syms ++ syms.map (fun (x : Fin 80) => x.val)).eraseDups
      let within := match d.marked (burstSc k) with
        | none => decide (all.length ≤ 8)
        | some v => decide ((all.filter (fun x => decide (x / 8 ≠ v))).length ≤ 4)
      let counts := fun (e : Dev) (ce ue poison : Nat) => e.g F.ddr_CE_COUNT = satU 32 (d.g F.ddr_CE_COUNT + ce)
        ∧ e.g F.ddr_UE_COUNT = satU 16 (d.g F.ddr_UE_COUNT + ue) ∧ e.g F.ddr_POISON_COUNT = satU 16 (d.g F.ddr_POISON_COUNT + poison)
      let last := fun (e : Dev) => e.g2 F.ddr_LAST_UE_LO F.ddr_LAST_UE_HI = 64 * k ∧ e.g F.ddr_LAST_UE_INFO_CLASS = cls
      d.ddr.run sc.val = some ⟨k, cls, t, tr, none⟩ → cls < 4 → 64 * k < d.capacity →
        Answers (.dramReadDone sc syms) s (fun e => d.onlyDdr e ∧ e.ddr.rdata = memBytes s.mem (64 * k) 64 ∧ (d.ddr.frags = [] → e.ddr.run sc.val = none))
        ∧ (all = [] → b.poison = false → Answers (.dramReadDone sc syms) s (fun e => e.ddr.rdRes = 0 ∧ counts e 0 0 0))
        ∧ (all ≠ [] → b.poison = false → within = true → Answers (.dramReadDone sc syms) s (fun e => e.ddr.rdRes = 1 ∧ counts e 1 0 0 ∧ evt e 0
            ∧ (d.newerWrite k = false → Tab.at {} e.ddr.bursts k = {}) ∧ (d.newerWrite k = true → Tab.at {} e.ddr.bursts k = ⟨false, all⟩)))
        ∧ (all = [] → b.poison = true → Answers (.dramReadDone sc syms) s (fun e => e.ddr.rdRes = 2 ∧ counts e 0 0 1 ∧ evt e 2 ∧ evt e 1 ∧ last e
            ∧ e.ddr.busErr = if cls = 3 then some (64 * k) else d.ddr.busErr))
        ∧ (all ≠ [] → b.poison = true ∨ within = false → Answers (.dramReadDone sc syms) s (fun e => e.ddr.rdRes = 3 ∧ counts e 0 1 0 ∧ evt e 1 ∧ last e
            ∧ (e.ddr.busErr = if cls = 3 then some (64 * k) else d.ddr.busErr)
            ∧ (∀ v, d.marked (burstSc k) = some v → v < 10 → e.g F.ddr_LAST_UE_INFO_DEVS = 2 ^ v)
            ∧ (d.marked (burstSc k) = none → e.g F.ddr_LAST_UE_INFO_DEVS = 0))))
    ∧ (∀ (k cls t o : Nat) (tr : Bool) (bs : List Byte),
        d.ddr.run sc.val = some ⟨k, cls, t, tr, some (o, bs)⟩ → 0 < bs.length → o + bs.length ≤ 64 → 64 * k + 64 ≤ d.capacity →
          ∃ u, exec (.dramWrite sc) s = .next u ∧ u = { s with dev := u.dev, mem := u.mem } ∧ d.onlyDdr u.dev
            ∧ (∀ a, memByte u.mem a = if 64 * k + o ≤ a ∧ a < 64 * k + o + bs.length then bs.getD (a - (64 * k + o)) 0 else memByte s.mem a)
            ∧ (bs.length = 64 → Tab.at {} u.dev.ddr.bursts k = {})
            ∧ (bs.length < 64 → 2 ≤ d.judge k → Tab.at {} u.dev.ddr.bursts k = ⟨true, []⟩)
            ∧ (bs.length < 64 → d.judge k ≤ 1 → Tab.at {} u.dev.ddr.bursts k = {} ∨ Tab.at {} u.dev.ddr.bursts k = Tab.at {} d.ddr.bursts k))
    ∧ (∀ v < 10, d.g F.ddr_MARK_N ≠ 0 → d.g F.ddr_MARK_N ≤ Tab.at 0 d.ddr.runs (10 * sc.val + v) →
        (∀ w < v, Tab.at 0 d.ddr.runs (10 * sc.val + w) < d.g F.ddr_MARK_N) →
        (d.marked sc.val = none → Answers (.devMarked sc) s (fun e => d.onlyEvent e ∧ e.marked sc.val = some v ∧ evt e 3
          ∧ e.marked (1 - sc.val) = d.marked (1 - sc.val) ∧ d.regsBut e (F.ddr_MARK_M0_EN.addr :: evtAddrs ddrPage)))
        ∧ (d.marked sc.val ≠ none → Answers (.devMarked sc) s (fun e => e = d)))

/-- Requests, refresh, row disturbance and power-down, with the memory trained. DRAM_REQUEST: the fragments join those that wait and none is lost. REFRESH_DUE: the
refresh is issued, postponed up to POSTPONE_MAX, or forced. OWED_REFRESH: an owed refresh is issued when no class 0 fragment waits. RFM is counted on a bank that has
reached RAAIMT. POWER_DOWN_ENTRY: an idle subchannel enters power-down where PD_EN and RUN_PD let it. SCRUB_STEP: with nothing waiting in the controller the patrol scrub
goes on to the next burst, and counts a pass at the end of the capacity. PPR_REPAIR_DONE: the first committed row is repaired and its entry shown soft-repaired, or shown
exhausted where its bank group has no resource left. PPR_CMD with its key marks soft repairs for hardening (HARDEN, in IDLE alone) or empties the pending entries that are
not being repaired (CLEAR_PENDING); without it, it does nothing. -/
def Obligations.DramServesRefreshesAndRepairs : Prop :=
  (
    ∀ s : State, s.dev.g F.ddr_CFG_TRAINED = 1 →
      let d := s.dev
      let evt := fun (e : Dev) (b : Nat) => e.g ⟨ddrPage + 0x10, b, b⟩ = 1
      let held := fun (e : Dev) => e.ddr.frags ++ e.ddr.run0.toList ++ e.ddr.run1.toList
      (∀ (addr : BitVec 36) (len : BitVec 16) (cls : Fin 4) (tr : Bool) (wr : Option (List Byte)),
        let n := match wr with | some b => b.length | none => len.toNat
        addr.toNat + n ≤ d.capacity →
        let fs := fragsOf addr.toNat n cls.val d.now (tr && cls.val == 0) wr
        Answers (.dramRequest addr len cls tr wr) s (fun e => d.onlyDdr e ∧ (held e).Perm (held d ++ fs)
          ∧ (∀ x ∈ fs, burstSc x.burst ∉ e.ddr.powerDown) ∧ e.ddr.bursts = d.ddr.bursts))
      ∧ (∀ (sc : Fin 2) (hot : Bool),
        let o := d.g (owed sc.val)
        let after := fun (e : Dev) (o f : Nat) => d.onlyDdr e
          ∧ e.g (owed sc.val) = o ∧ e.g F.ddr_REF_STAT_FORCED_COUNT = f ∧ e.g F.ddr_REF_CTRL_TEMP_2X = b2n hot
          ∧ (hot = true → d.g F.ddr_REF_CTRL_TEMP_2X = 0 → evt e 10)
        (d.ddr.class0 sc.val = false →
          Answers (.refreshDue sc hot) s (fun e => after e o (d.g F.ddr_REF_STAT_FORCED_COUNT) ∧ sc.val ∉ e.ddr.powerDown))
        ∧ (d.ddr.class0 sc.val = true → o < d.g F.ddr_REF_CTRL_POSTPONE_MAX →
          Answers (.refreshDue sc hot) s (fun e => after e (o + 1) (d.g F.ddr_REF_STAT_FORCED_COUNT)))
        ∧ (d.ddr.class0 sc.val = true → d.g F.ddr_REF_CTRL_POSTPONE_MAX ≤ o →
          Answers (.refreshDue sc hot) s (fun e => after e o (satU 16 (d.g F.ddr_REF_STAT_FORCED_COUNT + 1)) ∧ evt e 4
            ∧ ((d.ddr.run sc.val).isSome = true → sc.val ∈ e.ddr.forced)))
        ∧ (d.ddr.class0 sc.val = false → 0 < o →
          Answers (.owedRefresh sc) s (fun e => d.onlyDdr e ∧ e.g (owed sc.val) = o - 1 ∧ sc.val ∉ e.ddr.powerDown)))
      ∧ (∀ (sc : Fin 2) (bank : Fin 32),
        let n := Tab.at 0 d.ddr.raa (32 * sc.val + bank.val)
        d.g F.ddr_NR_CTRL_RFM_REQ = 1 → n ≠ 0 → d.ddr.raaimt ≤ n → d.ddr.run sc.val = none →
          Answers (.rfm sc bank) s (fun e => d.onlyDdr e ∧ evt e 5 ∧ satU 16 (d.g F.ddr_RFM_COUNT + 1) ≤ e.g F.ddr_RFM_COUNT
            ∧ (d.ddr.frags = [] → e.g F.ddr_RFM_COUNT = satU 16 (d.g F.ddr_RFM_COUNT + 1) ∧ Tab.at 0 e.ddr.raa (32 * sc.val + bank.val) ≤ n - d.ddr.raaimt)))
      ∧ ∀ sc : Fin 2, d.g F.ddr_PD_CTRL_PD_EN = 1 → d.g F.ddr_PD_CTRL_RUN_PD = 1 ∨ (d.st ≠ 6 ∧ d.st ≠ 7) →
          (d.ddr.frags ++ (d.ddr.run sc.val).toList).all (fun x => burstSc x.burst != sc.val) = true →
          d.g F.ddr_PD_CTRL_PD_IDLE * 5 ≤ (d.now - Tab.at 0 d.ddr.lastFrag sc.val) * 8 → sc.val ∉ d.ddr.powerDown →
          Answers (.powerDownEntry sc) s (fun e => e = { d with ddr := e.ddr } ∧ sc.val ∈ e.ddr.powerDown ∧ e.ddr.frags = d.ddr.frags))
  ∧ (
    ∀ s : State,
      let d := s.dev
      let evt := fun (e : Dev) (b : Nat) => e.g ⟨ddrPage + 0x10, b, b⟩ = 1
      let log := fun (e : Dev) (i : Nat) => e.g (F.ddr_PPR_LOGi_STATE i)
      (∀ (syms : List (Fin 80)) (counts : List Word), d.g F.ddr_CFG_TRAINED = 1 → d.g F.ddr_SCRUB_HOURS ≠ 0 → d.quiet = true →
        let total := d.capacity / 64
        (d.ddr.scrub + 1 < total →
          Answers (.scrubStep syms counts) s (fun e => d.onlyDdr e ∧ e.ddr.scrub = d.ddr.scrub + 1 ∧ e.g F.ddr_SCRUB_STAT_PCT = (d.ddr.scrub + 1) * 100 / total
            ∧ e.g F.ddr_SCRUB_STAT_PASSES = d.g F.ddr_SCRUB_STAT_PASSES))
        ∧ (d.ddr.scrub + 1 = total →
          Answers (.scrubStep syms counts) s (fun e => d.onlyDdr e ∧ e.ddr.scrub = 0 ∧ e.g F.ddr_SCRUB_STAT_PCT = 0 ∧ evt e 9
            ∧ e.g F.ddr_SCRUB_STAT_PASSES = satU 16 (d.g F.ddr_SCRUB_STAT_PASSES + 1))))
      ∧ (∀ i rest, d.ddr.committed = i :: rest → i < 8 →
          let group := d.g (F.ddr_PPR_LOGi_DEV i) * 8 + burstBg (d.g2 (F.ddr_PPR_LOGi_ADDR_LO i) (F.ddr_PPR_LOGi_ADDR_HI i) / 64)
          (Tab.at 0 d.ddr.res group ≠ 0 → Answers .pprRepairDone s (fun e => d.onlyDdr e ∧ e.ddr.committed = rest ∧ log e i = 2 ∧ evt e 7
            ∧ e.g F.ddr_PPR_STAT_SOFT = satU 8 (d.g F.ddr_PPR_STAT_SOFT + 1) ∧ Tab.at 0 e.ddr.res group = Tab.at 0 d.ddr.res group - 1))
          ∧ (Tab.at 0 d.ddr.res group = 0 → Answers .pprRepairDone s (fun e => d.onlyDdr e ∧ e.ddr.committed = rest ∧ log e i = 4 ∧ evt e 8
            ∧ e.g F.ddr_PPR_STAT_SOFT = d.g F.ddr_PPR_STAT_SOFT)))
      ∧ ∀ v : Word, s.lets F.ddr_PPR_CMD_OP.addr →
          (Word.f v 31 16 = 0x5050 →
            (Word.f v 1 0 = 1 → d.st = 5 → Answers (.harden v) s (fun e => d.onlyRegs e ∧ ∀ i < 8, log e i = if log d i = 2 then 3 else log d i))
            ∧ (Word.f v 1 0 = 1 → d.st ≠ 5 → Answers (.harden v) s (fun e => d.onlyRegs e ∧ e.g F.ddr_PPR_STAT_STATE = 3 ∧ d.regsBut e [F.ddr_PPR_STAT_STATE.addr]))
            ∧ (Word.f v 1 0 = 2 → Answers (.clearPending v) s (fun e => d.onlyRegs e
                ∧ ∀ i < 8, log e i = if log d i = 1 ∧ i ∉ d.ddr.committed then 0 else log d i)))
          ∧ (Word.f v 31 16 ≠ 0x5050 → Answers (.harden v) s (fun e => e = d) ∧ Answers (.clearPending v) s (fun e => e = d)))


/-! ### Units, spares and health (14) -/

/-- Findings, bleats and failover. KAT_PASS_DONE: the pass is counted, a failed test becomes a finding of its class toward the coming boundary, and a spare that serves
nothing becomes bad. SRAM_PATROL_READ: a row with an uncorrectable or a second corrected error is queued for a spare. DIRECTED_PASS_DONE: a divergence without a finding
sends the standby to SYNCING. BLEAT_RX and, from cycle 1,150 on, BLEAT_MISSED judge both paths; PATH_FAULT and PATH_OK follow them; TAKEOVER_CLAIM is the standby's.
FAILOVER gives control at cycle 0 to the eligible standby, whom the downstream frames that begin there name, and moves no other state. -/
def Obligations.UnitsAreTestedAndFailOver : Prop :=
  ∀ s : State,
    let d := s.dev
    let evt := fun (e : Dev) (b : Nat) => e.g ⟨unitPage + 0x10, b, b⟩ = 1
    let passes := fun (u : Nat) => if u = 0 then F.unit_A_PASSES else F.unit_B_PASSES
    let fails := fun (u : Nat) => if u = 0 then F.unit_A_FAILS else F.unit_B_FAILS
    let due := if d.time.cycle ≤ 1248 then d.time.frame + 1 else d.time.frame + 2
    let room := ∃ i < 16, d.g (F.unit_REMAP_Qi_STATE i) = 0 ∨ d.g (F.unit_REMAP_Qi_STATE i) = 3
    let found := fun (u cls shown cause block index : Nat) (res : Option (Nat × Nat)) (e : Dev) =>
      e.units.finds = d.units.finds ++ [⟨u, cls, cause, res, due⟩] ∧ e.g (passes u) = (d.g (passes u) + 1) % 2 ^ 32 ∧ e.g (fails u) = satU 16 (d.g (fails u) + 1)
        ∧ e.g F.unit_LAST_FAIL_UNIT = u ∧ e.g F.unit_LAST_FAIL_CLASS = shown ∧ e.g F.unit_LAST_FAIL_BLOCK = block ∧ e.g F.unit_LAST_FAIL_INDEX = index
    let bad := fun (kind i : Nat) (e : Dev) => (kind, i) ∈ e.units.bad ∧ e.units.finds = d.units.finds ∧ e.unitSt 0 = d.unitSt 0 ∧ e.unitSt 1 = d.unitSt 1
    let row := fun (a r : Nat) (e : Dev) => room → e.entryOf 3 a r ≠ none
    (∀ u : Fin 2,
      Answers (.katPassDone u []) s (fun e => d.onlyRegs e ∧ e.g (passes u.val) = (d.g (passes u.val) + 1) % 2 ^ 32 ∧ d.regsBut e [(passes u.val).addr])
      ∧ ∀ (k : KatFail),
        (∀ i : BitVec 16, k.part = .block i → Answers (.katPassDone u [k]) s (fun e => found u.val 1 1 2 k.block.toNat i.toNat none e
            ∧ e.units = { d.units with finds := e.units.finds }))
        ∧ (∀ (a : Fin 384) (r : Word), k.part = .sram a r → Answers (.katPassDone u [k]) s (fun e => found u.val 1 3 3 k.block.toNat a.val none e ∧ row a.val r.toNat e))
        ∧ (∀ (a : Fin 384) (r : Fin 4) (x : Nat), k.part = .spareRow a r → d.rowOf a.val r.val = some x → x < 2 ^ 32 →
            Answers (.katPassDone u [k]) s (fun e => found u.val 1 3 3 k.block.toNat a.val none e ∧ row a.val x e))
        ∧ (∀ (a : Fin 384) (r : Fin 4), k.part = .spareRow a r → d.rowOf a.val r.val = none → d.unitSt u.val ≠ 2 →
            Answers (.katPassDone u [k]) s (bad 3 (4 * a.val + r.val)))
        ∧ (∀ l : Fin 160, k.part = .loopSlot l → d.g (sf F.slot_SLOT_MAP_MAPPED l.val) = 0 → 144 ≤ l.val → d.unitSt u.val ≠ 2 →
            Answers (.katPassDone u [k]) s (bad 0 l.val))
        ∧ (∀ l : Fin 56, k.part = .powerSlot l → d.g (pf F.pl_PL_MAP_MAPPED l.val) = 0 → 48 ≤ l.val → d.unitSt u.val ≠ 2 →
            Answers (.katPassDone u [k]) s (bad 1 l.val))
        ∧ (∀ l : Fin 160, k.part = .loopSlot l → d.g (sf F.slot_SLOT_MAP_MAPPED l.val) = 1 →
            Answers (.katPassDone u [k]) s (fun e => found u.val 2 2 5 k.block.toNat l.val (some (0, l.val)) e ∧ e.units = { d.units with finds := e.units.finds }))
        ∧ (∀ l : Fin 56, k.part = .powerSlot l → d.g (pf F.pl_PL_MAP_MAPPED l.val) = 1 →
            Answers (.katPassDone u [k]) s (fun e => found u.val 2 2 5 k.block.toNat l.val (some (1, l.val)) e ∧ e.units = { d.units with finds := e.units.finds })))
    ∧ (∀ (owner : Fin 3) (array : Fin 384) (row : Word) (last : Bool),
        let again := d.units.ce.contains (owner.val, array.val, row.toNat)
        Answers (.sramPatrolRead owner array row 0 false) s (fun e => e = d)
        ∧ (again = false → Answers (.sramPatrolRead owner array row 1 false) s (fun e =>
            e = { d with units := { d.units with ce := (owner.val, array.val, row.toNat) :: d.units.ce } }))
        ∧ (room → (again = true → Answers (.sramPatrolRead owner array row 1 last) s (fun e => e.entryOf 3 array.val row.toNat ≠ none ∧ e.units.finds = d.units.finds))
          ∧ Answers (.sramPatrolRead owner array row 2 last) s (fun e => e.entryOf 3 array.val row.toNat ≠ none
                ∧ (owner.val ≠ 2 → e.units.finds = d.units.finds ++ [⟨owner.val, 1, 3, none, due⟩]) ∧ (owner.val = 2 → e.units.finds = d.units.finds))))
    ∧ (d.units.directed ≠ 0 → Answers (.directedPassDone [] []) s (fun e => e.units.directed = 0 ∧ (∀ u < 2, u ∉ d.units.spared → e.g (passes u) = (d.g (passes u) + 1) % 2 ^ 32)
        ∧ (d.units.directed = 2 → d.units.spared = [] → d.unitSt d.standbyUnit = 1 → e.unitSt d.standbyUnit = 3 ∧ e.g F.unit_UNEXPLAINED = satU 16 (d.g F.unit_UNEXPLAINED + 1))
        ∧ (d.units.directed ≠ 2 ∨ d.units.spared ≠ [] ∨ d.unitSt d.standbyUnit ≠ 1 → e.unitSt 0 = d.unitSt 0 ∧ e.unitSt 1 = d.unitSt 1 ∧ e.g F.unit_UNEXPLAINED = d.g F.unit_UNEXPLAINED)))
    ∧ (∀ (u p : Fin 2),
        let k := 2 * u.val + p.val
        (∀ w : BitVec 64, crc16 ((leBytes 6 (w.toNat / 65536)).map (fun (b : Byte) => b.toNat)) = w.toNat % 65536 →
            (bits w.toNat 63 48 + 1) % 65536 = d.time.frame % 65536 → bits w.toNat 47 47 = 1 - u.val → d.time.cycle ≤ 1150 → k ∉ d.units.judged →
          Answers (.bleatRx u p w) s (fun e => e.misses u.val p.val = 0 ∧ Tab.at 0 e.units.run k = Tab.at 0 d.units.run k + 1 ∧ k ∈ e.units.judged
            ∧ (∀ j, j ≠ k → Tab.at 0 e.units.miss j = Tab.at 0 d.units.miss j) ∧ d.regsBut e [F.unit_BLEAT_STAT_DIE_MISS.addr]))
        ∧ (k ∉ d.units.judged → 1150 ≤ d.time.cycle → Answers (.bleatMissed u p) s (fun e => e.misses u.val p.val = d.misses u.val p.val + 1 ∧ Tab.at 0 e.units.run k = 0
            ∧ k ∈ e.units.judged ∧ (∀ j, j ≠ k → Tab.at 0 e.units.miss j = Tab.at 0 d.units.miss j) ∧ e.unitSt 0 = d.unitSt 0 ∧ e.unitSt 1 = d.unitSt 1
            ∧ (2 ≤ d.misses u.val p.val → 3 ≤ d.misses u.val (1 - p.val) → (d.lostBoth u.val = false → evt e 7) ∧ (u.val = d.activeUnit → e.units.lostStandby = true)))))
    ∧ (∀ p : Fin 2,
        (d.g (pathOkFld p.val) = 1 → (∃ u < 2, 3 ≤ d.misses u p.val ∧ d.misses u (1 - p.val) = 0) →
          Answers (.pathFault p) s (fun e => d.onlyEvent e ∧ e.g (pathOkFld p.val) = 0 ∧ evt e 5 ∧ e.unitSt 0 = d.unitSt 0 ∧ e.unitSt 1 = d.unitSt 1
            ∧ e.activeUnit = d.activeUnit))
        ∧ (d.g (pathOkFld p.val) = 0 → (∀ u < 2, 400 ≤ Tab.at 0 d.units.run (2 * u + p.val)) →
          Answers (.pathOk p) s (fun e => d.onlyEvent e ∧ e.g (pathOkFld p.val) = 1 ∧ evt e 6)))
    ∧ (d.unitSt d.standbyUnit = 1 → d.lostBoth d.standbyUnit = true →
        Answers .takeoverClaim s (fun e => e = { d with units := { d.units with claim := true } }))
    ∧ ∀ c, d.units.failDue = some c → c < 16 → d.unitSt d.standbyUnit = 1 → d.unitWord d.standbyUnit < 2 → d.time.cycle = 0 →
        Answers .failover s (fun e => e = { d with regs := e.regs, pcie := e.pcie, evr := e.evr, units := e.units, lanes := e.lanes }
          ∧ (∀ h, e.lane h = { d.lane h with dsFlags := (e.lane h).dsFlags } ∧ (48 ≤ h ∨ (d.lane h).dsKind ≠ .normal → e.lane h = d.lane h))
          ∧ (∀ h < 48, (d.lane h).dsKind = .normal → bit (e.lane h).dsFlags 5 = decide (d.standbyUnit = 1)) ∧ e.unitWord d.activeUnit = 2 ∧ e.activeUnit = d.standbyUnit
          ∧ e.unitSt d.standbyUnit = 0 ∧ e.unitSt d.activeUnit = 2 ∧ e.g F.unit_FAILOVER_COUNT = satU 16 (d.g F.unit_FAILOVER_COUNT + 1)
          ∧ e.g F.unit_UNIT_STAT_LAST_CAUSE = c ∧ evt e 0 ∧ e.g F.unit_UNIT_STAT_REDUNDANT = 0
          ∧ d.regsBut e ([F.unit_UNIT_STAT_ACTIVE.addr, F.unit_FAILOVER_COUNT.addr, F.unit_REV_STAT_STATE.addr, F.unit_CONFLICT_COUNT.addr, F.unit_BLEAT_STAT_DIE_MISS.addr] ++ evtAddrs unitPage))

/-- Recovery, reversion, remaps and health. RECOVERY_START, RECOVERY_PASS_DONE, RECOVERY_RETRY, STATE_COPY_DONE and UNIT_STANDBY take a FAILED unit through its pass, the
state copy and 400 clean frames to STANDBY. DWELL_END loads DEFER_LEFT, which REV_DEFER can lower. UNIT_CMD acts with its key (DIRECTED_PASS, RETRY, CLEAR_COUNTERS).
SPARE_ROW_READY: the entry is ready, the nodes of its row being a free value (log 118); REMAP_GO releases ready entries; REMAP_REQ retires a resource; HEALTH writes the
report. -/
def Obligations.UnitsRecoverAndRemap : Prop :=
  ∀ s : State,
    let d := s.dev
    let evt := fun (e : Dev) (b : Nat) => e.g ⟨unitPage + 0x10, b, b⟩ = 1
    let passes := fun (u : Nat) => if u = 0 then F.unit_A_PASSES else F.unit_B_PASSES
    let room := ∃ i < 16, d.g (F.unit_REMAP_Qi_STATE i) = 0 ∨ d.g (F.unit_REMAP_Qi_STATE i) = 3
    (∀ u : Fin 2,
      let n := u.val
      let r := d.unitRec n
      let goes := fun (e : Dev) (x : UnitRec) => e = { d with units := e.units } ∧ e.unitRec n = x ∧ e.unitRec (1 - n) = d.unitRec (1 - n)
      (d.unitSt n = 2 → r.phase = 0 → d.remapWaits n = false → Answers (.recoveryStart u) s (fun e => goes e { phase := 1, since := d.time.frame }))
      ∧ (d.unitSt n = 2 → r.phase = 1 → ∀ l, l.any d.katCounts = false → Answers (.recoveryPassDone u l) s (fun e => e.unitSt n = 3 ∧ e.unitRec n = { since := d.time.frame }
          ∧ e.unitSt (1 - n) = d.unitSt (1 - n) ∧ (∀ x ∈ r.spares, x ∈ e.units.bad) ∧ e.g (passes n) = (d.g (passes n) + 1) % 2 ^ 32))
      ∧ (d.unitSt n = 2 → r.phase = 1 → ∀ l, l.any d.katCounts = true → Answers (.recoveryPassDone u l) s (fun e => e.unitSt n = 2
          ∧ e.unitRec n = { phase := 2, since := d.time.frame } ∧ e.unitSt (1 - n) = d.unitSt (1 - n)))
      ∧ (d.unitSt n = 2 → r.phase = 2 → r.since + 400000 ≤ d.time.frame → Answers (.recoveryRetry u) s (fun e => goes e { phase := 0, since := d.time.frame }))
      ∧ (d.unitSt n = 3 → r.phase = 0 → Answers (.stateCopyDone u) s (fun e => goes e { phase := 1, since := d.time.frame }))
      ∧ (d.unitSt n = 3 → r.phase = 1 → 400 ≤ r.clean → Answers (.unitStandby u) s (fun e => e.unitSt n = 1 ∧ evt e 3 ∧ e.unitSt (1 - n) = d.unitSt (1 - n)
          ∧ e.units.healthDue = true)))
    ∧ (d.units.dwellEnd = none → d.activeUnit = 1 → 400000 * max 1 (d.g F.unit_REV_DWELL) ≤ d.units.dwell →
        Answers .dwellEnd s (fun e => e = { d with regs := e.regs, units := { d.units with dwellEnd := some d.now } }
          ∧ e.g F.unit_REV_STAT_DEFER_LEFT = min 8 (d.g F.unit_REV_DEFER) ∧ e.g F.unit_REV_STAT_STATE = (if d.g F.unit_REV_DEFER = 0 then 3 else 2)
          ∧ e.g F.unit_REV_STAT_DWELL_LEFT = 0 ∧ d.regsBut e [F.unit_REV_STAT_STATE.addr]))
    ∧ (∀ v : Word, s.lets F.unit_REV_DEFER.addr → d.g (F.hdr_PAGE_CTRL_LOCK unitPage) = 0 →
        Answers (.revDefer v) s (fun e => d.onlyRegs e ∧ e.g F.unit_REV_DEFER = Word.f v 3 0 ∧ e.g F.unit_REV_STAT_DEFER_LEFT =
            (if d.g F.unit_REV_STAT_STATE = 2 then min (d.g F.unit_REV_STAT_DEFER_LEFT) (min 8 (Word.f v 3 0)) else d.g F.unit_REV_STAT_DEFER_LEFT)
          ∧ d.regsBut e [F.unit_REV_DEFER.addr, F.unit_REV_STAT_STATE.addr]))
    ∧ (∀ v : Word, s.lets F.unit_UNIT_CMD_OP.addr →
        (Word.f v 31 16 = 0x5554 →
          (Word.f v 3 0 = 1 → Answers (.directedPass v) s (fun e => e = { d with units := { d.units with directed := max 1 d.units.directed } }))
          ∧ (Word.f v 3 0 = 2 → Answers (.retry v) s (fun e => e = { d with units := e.units } ∧ ∀ u < 2, e.unitRec u =
              if d.unitSt u = 2 ∧ (d.unitRec u).phase = 2 then { phase := 1, since := d.time.frame } else d.unitRec u))
          ∧ (Word.f v 3 0 = 3 → Answers (.clearCounters v) s (fun e => d.onlyRegs e ∧ (∀ a ∈ [0x3044, 0x3058, 0x305C, 0x3070], e.reg a = 0)
              ∧ e.g F.unit_CONFLICT_COUNT = 0 ∧ d.regsBut e [0x3044, 0x3058, 0x305C, 0x3070, 0x308C])))
        ∧ (Word.f v 31 16 ≠ 0x5554 → ∀ i ∈ [Instr.directedPass v, .retry v, .clearCounters v], Answers i s (fun e => e = d)))
    ∧ (∀ i : Fin 16, d.g (F.unit_REMAP_Qi_STATE i.val) = 1 → Answers (.spareRowReady i) s (fun e =>
        e = { d with regs := e.regs, units := e.units, grid := e.grid, gridErr := e.gridErr, freeCtr := e.freeCtr }
          ∧ e.g (F.unit_REMAP_Qi_STATE i.val) = 2 ∧ d.regsBut e [(F.unit_REMAP_Qi_STATE i.val).addr]
          ∧ Tab.at {} e.units.entries i.val = { Tab.at {} d.units.entries i.val with at_ := d.now, nodes := (d.rowNodes i.val).1 }
          ∧ ∀ k, k ∉ (d.rowNodes i.val).1 → Tab.at 0 e.grid k = Tab.at 0 d.grid k ∧ Tab.at 0 e.gridErr k = Tab.at 0 d.gridErr k))
    ∧ (∀ v : Word, s.lets F.unit_REMAP_GO.addr → Answers (.remapGo v) s (fun e => e = { d with units := e.units }
        ∧ ∀ i < 16, Tab.at {} e.units.entries i = (if d.g (F.unit_REMAP_Qi_STATE i) = 2 then { Tab.at {} d.units.entries i with go := true }
          else Tab.at {} d.units.entries i)))
    ∧ (∀ v : Word, s.lets F.unit_REMAP_REQ_KEY.addr →
        let k := Word.f v 13 12
        let i := Word.f v 7 0
        let mapped := (k = 0 ∧ i < 144 ∧ d.g (sf F.slot_SLOT_MAP_MAPPED i) = 1) ∨ (k = 1 ∧ i < 48 ∧ d.g (pf F.pl_PL_MAP_MAPPED i) = 1)
          ∨ (k = 2 ∧ i < 6 ∧ d.g (F.ip_IP_MAP_MAPPED i) = 1)
        (Word.f v 31 16 = 0x524D → mapped → room → Answers (.remapReq v) s (fun e => e.entryOf k i 0 ≠ none))
        ∧ (Word.f v 31 16 = 0x524D → ¬ mapped → Answers (.remapReq v) s (d.refused 0x83 (unitPage + 0x7C)))
        ∧ (Word.f v 31 16 ≠ 0x524D → Answers (.remapReq v) s (fun e => e = d)))
    ∧ (d.units.healthDue = true ∨ (d.units.healthAt + 4000 ≤ d.time.frame ∧ d.healthWords.set 1 0 ≠ d.units.health.set 1 0) →
        Answers .health s (fun e => (∀ i < 15, e.g (F.unit_HEALTH i) = nth d.healthWords i) ∧ e.units.health = d.healthWords ∧ e.units.healthDue = false
          ∧ e.units.healthAt = d.time.frame ∧ evt e 12
          ∧ e.g (F.unit_HEALTH 15) = crc32 (d.healthWords.flatMap (fun x => (leBytes 4 x).map (fun (b : Byte) => b.toNat))) % 2 ^ 32))


/-! ### Time base, Ethernet and event recorder (15) -/

/-- TIME_INC_COMMIT: the increment is committed within its range alone. TIME_CMD with its key holds a step for the next boundary (SET, ADD) or captures (CAPTURE,
CAPTURE_BOUNDARY), and is else refused with an event. TCMP_ARM arms a compare unit with its target; TCMP_FIRE: it fires when time has reached it, and counts the periods
missed. -/
def Obligations.TimeStepsCapturesAndCompares : Prop :=
  ∀ (v : Word) (s : State),
    let d := s.dev
    let t := d.time
    let evt := fun (e : Dev) (b : Nat) => e.g ⟨timePage + 0x10, b, b⟩ = 1
    let turned := fun (e : Dev) => d.onlyEvent e ∧ evt e 3 ∧ d.regsBut e (evtAddrs timePage)
    (s.lets F.time_TIME_INC_HI.addr → d.g (F.hdr_PAGE_CTRL_LOCK timePage) = 0 →
      let x := (Word.f v 1 0 * 2 ^ 32 + d.g F.time_TIME_INC_LO) * 1000
      (1990 * 2 ^ 32 ≤ x ∧ x ≤ 2010 * 2 ^ 32 → Answers (.timeIncCommit v) s (fun e =>
          e = { d with regs := e.regs, time := { t with incNs := Word.f v 1 0, incFrac := d.g F.time_TIME_INC_LO } } ∧ e.g F.time_TIME_INC_HI = Word.f v 1 0
            ∧ e.g F.time_TIME_INC_LO = d.g F.time_TIME_INC_LO ∧ d.regsBut e [F.time_TIME_INC_HI.addr]))
      ∧ (x < 1990 * 2 ^ 32 ∨ 2010 * 2 ^ 32 < x → Answers (.timeIncCommit v) s (fun e => d.onlyEvent e ∧ evt e 2 ∧ e.g F.time_TIME_INC_HI = t.incNs % 4
            ∧ e.g F.time_TIME_INC_LO = t.incFrac % 2 ^ 32 ∧ e.g (F.hdr_ERR_INFO_COUNT timePage) = min (d.g (F.hdr_ERR_INFO_COUNT timePage) + 1) 255)))
    ∧ (s.lets F.time_TIME_CMD_OP.addr →
      (Word.f v 31 16 = 0x544D →
        (Word.f v 2 0 = 1 → d.g F.time_SET_NS < 10 ^ 9 → Answers (.set v) s (fun e => e.g F.time_TIME_STAT_STEP_PENDING = 1
            ∧ e = { d with regs := e.regs, time := { t with step := some (.set (d.g2 F.time_SET_SEC_LO F.time_SET_SEC_HI) (d.g F.time_SET_NS)) } }
            ∧ d.regsBut e [F.time_TIME_STAT_STEP_PENDING.addr]))
        ∧ (Word.f v 2 0 = 1 → 10 ^ 9 ≤ d.g F.time_SET_NS → Answers (.set v) s turned)
        ∧ (Word.f v 2 0 = 2 → absI (d.gi F.time_ADD_NS) < 10 ^ 9 → Answers (.add v) s (fun e => e.g F.time_TIME_STAT_STEP_PENDING = 1
            ∧ e = { d with regs := e.regs, time := { t with step := some (.add (d.gi F.time_ADD_SEC) (d.gi F.time_ADD_NS)) } }
            ∧ d.regsBut e [F.time_TIME_STAT_STEP_PENDING.addr]))
        ∧ (Word.f v 2 0 = 2 → 10 ^ 9 ≤ absI (d.gi F.time_ADD_NS) → Answers (.add v) s turned)
        ∧ (Word.f v 2 0 = 3 → Answers (.capture v) s (fun e => d.onlyEvent e ∧ evt e 0 ∧ e.g F.time_CAP_NS = t.ns % 2 ^ 30
            ∧ e.g2 F.time_CAP_SEC_LO F.time_CAP_SEC_HI = t.sec % 2 ^ 48 ∧ e.g F.time_CAP_FRAC = t.frac % 2 ^ 32
            ∧ e.g2 F.time_CAP_FRAME_LO F.time_CAP_FRAME_HI = t.frame % 2 ^ 64 ∧ e.g F.time_CAP_CYCLE = t.cycle % 2 ^ 11))
        ∧ (Word.f v 2 0 = 4 → Answers (.captureBoundary v) s (fun e => e = { d with regs := e.regs, time := { t with capPend := true } }
            ∧ e.g F.time_TIME_STAT_CAP_PENDING = 1 ∧ d.regsBut e [F.time_TIME_STAT_CAP_PENDING.addr])))
      ∧ (Word.f v 31 16 ≠ 0x544D → (Word.f v 2 0 = 1 → Answers (.set v) s turned) ∧ (Word.f v 2 0 = 2 → Answers (.add v) s turned)
        ∧ (Word.f v 2 0 = 3 → Answers (.capture v) s turned) ∧ (Word.f v 2 0 = 4 → Answers (.captureBoundary v) s turned)))
    ∧ ∀ k : Fin 8,
        let n := k.val
        let u := Tab.at {} t.tcmp n
        let x := t.since u.sec u.ns
        let others := fun (e : Dev) => ∀ j, j ≠ n → Tab.at {} e.time.tcmp j = Tab.at {} t.tcmp j
        (s.lets (F.time_TCMPk_CTRL_EN n).addr → d.g (F.hdr_PAGE_CTRL_LOCK timePage) = 0 →
          Answers (.tcmpArm k v) s (fun e => others e ∧ e.g (F.time_TCMPk_STAT_ARMED n) = Word.f v 0 0 ∧ e.g (F.time_TCMPk_CTRL_EN n) = Word.f v 0 0
            ∧ Tab.at {} e.time.tcmp n = (if Word.f v 0 0 = 1 then ⟨true, d.g2 (F.time_TCMPk_TARGET_SEC_LO n) (F.time_TCMPk_TARGET_SEC_HI n),
                d.g (F.time_TCMPk_TARGET_NS n), d.g (F.time_TCMPk_PERIOD n)⟩ else {})
            ∧ d.regsBut e [(F.time_TCMPk_CTRL_EN n).addr, (F.time_TCMPk_STAT_ARMED n).addr]))
        ∧ (u.armed = true → 0 ≤ x → u.period = 0 → Answers (.tcmpFire k) s (fun e => evt e (8 + n) ∧ others e ∧ Tab.at {} e.time.tcmp n = {}
            ∧ e.g (F.time_TCMPk_STAT_ARMED n) = 0 ∧ e.g (F.time_TCMPk_STAT_MISSED n) = d.g (F.time_TCMPk_STAT_MISSED n)))
        ∧ (u.armed = true → 0 ≤ x → 0 < u.period →
            let m := x.toNat / (u.period * 2 ^ 32)
            let next := u.sec * 10 ^ 9 + u.ns + (m + 1) * u.period
            Answers (.tcmpFire k) s (fun e => evt e (8 + n) ∧ others e ∧ Tab.at {} e.time.tcmp n = { u with sec := next / 10 ^ 9 % 2 ^ 48, ns := next % 10 ^ 9 }
              ∧ e.g (F.time_TCMPk_STAT_ARMED n) = 1 ∧ e.g (F.time_TCMPk_STAT_MISSED n) = satU 16 (d.g (F.time_TCMPk_STAT_MISSED n) + m)))
        ∧ (u.armed = true → x < 0 → Answers (.tcmpFire k) s (fun e => e = d))

/-- ETH_RX_FRAME: a frame of 14 to 2,016 bytes with its right FCS is stored in the receive ring with its length, and one with another FCS, a long or an unplaced one is
dropped and counted. TX_WR_WRITE, RX_RD_WRITE: a ring index moves within its limit alone. ETH_TX_DONE: a transmit entry is timestamped and sent with its FCS, or refused.
ETH_LINK_CHANGE, AUTO_NEGOTIATION_COMPLETE, MDIO_CMD and MDIO_DONE report themselves. DRAM has nothing else to do (quiet) where memory is stated. -/
def Obligations.EthernetPortsMoveFrames : Prop :=
  ∀ (port : Fin 2) (s : State),
    let d := s.dev
    let p := port.val
    let evt := fun (e : Dev) (b : Nat) => e.g ⟨ethPage + 0x10, b, b⟩ = 1
    let counted := fun (f : Fld) (e : Dev) => d.onlyEvent e ∧ e.g f = satU 16 (d.g f + 1) ∧ evt e 6 ∧ d.regsBut e (f.addr :: evtAddrs ethPage)
    let moved := fun (f : Fld) (n : Nat) (e : Dev) => d.onlyRegs e ∧ e.g f = n ∧ d.regsBut e [f.addr]
    let turned := fun (f : Fld) (e : Dev) => d.onlyEvent e ∧ e.reg f.addr = d.reg f.addr ∧ evt e 9
      ∧ e.g (F.hdr_ERR_INFO_COUNT ethPage) = min (d.g (F.hdr_ERR_INFO_COUNT ethPage) + 1) 255
    (d.g (F.hdr_PAGE_CTRL_ENABLE ethPage) = 1 → d.g (F.ethp_PORT_STAT_LINK p) = 1 →
      (d.g (F.ethp_PORT_CTRL_RX_EN p) = 1 → ∀ (frame : List Byte) (fcs : Word) (runt : Bool),
        let good := crc32 (frame.map (fun (b : Byte) => b.toNat)) = fcs.toNat
        let wr := d.g (F.ethp_RX_WR p)
        let a := d.rxBase p + 2048 * wr
        let full := (wr + 1) % d.rxSize p = d.g (F.ethp_RX_RD p)
        (good → d.quiet = true → 14 ≤ frame.length → frame.length ≤ 2016 → ¬ full → d.g (F.ethp_LOG2_RX p) ≤ 12 → a + 2048 ≤ d.devRegion → ∃ u, exec (.ethRxFrame port frame fcs runt) s = .next u
          ∧ u = { s with dev := u.dev, mem := u.mem } ∧ u.dev.g (F.ethp_RX_WR p) = (wr + 1) % d.rxSize p ∧ evt u.dev (2 * p)
          ∧ mem32 u.mem a = frame.length + b2n runt * 65536 ∧ memLE u.mem (a + 16) 16 = 0
          ∧ (∀ i < frame.length, memByte u.mem (a + 32 + i) = frame.getD i 0)
          ∧ ∀ x, x < a ∨ a + 32 + frame.length ≤ x → memByte u.mem x = memByte s.mem x)
        ∧ (¬ good → Answers (.ethRxFrame port frame fcs runt) s (counted (F.ethp_CNT_RX_FCS p)))
        ∧ (good → frame.length < 14 → Answers (.ethRxFrame port frame fcs runt) s (fun e => e = d))
        ∧ (good → 2016 < frame.length → Answers (.ethRxFrame port frame fcs runt) s (counted (F.ethp_CNT_RX_LONG p)))
        ∧ (good → 14 ≤ frame.length → frame.length ≤ 2016 → full → Answers (.ethRxFrame port frame fcs runt) s (counted (F.ethp_CNT_RX_FULL p))))
      ∧ (d.g (F.ethp_PORT_CTRL_TX_EN p) = 1 → d.g (F.ethp_TX_RD p) ≠ d.g (F.ethp_TX_WR p) → d.g (F.ethp_LOG2_TX p) ≤ 12 →
        let rd := d.g (F.ethp_TX_RD p)
        let a := d.txBase p + 2048 * rd
        let lf := mem32 s.mem a
        let bad := bits lf 15 0 < 14 ∨ 2016 < bits lf 15 0 ∨ bits lf 31 18 ≠ 0 ∨ memLE s.mem (a + 16) 16 ≠ 0
        a + 2048 ≤ d.devRegion → d.quiet = true → ∃ u, exec (.ethTxDone port) s = .next u ∧ u = { s with dev := u.dev, mem := u.mem }
          ∧ u.dev.g (F.ethp_TX_RD p) = (rd + 1) % d.txSize p ∧ (∀ x, x < a ∨ a + 16 ≤ x → memByte u.mem x = memByte s.mem x)
          ∧ (¬ bad → evt u.dev (2 * p + 1) ∧ mem32 u.mem a = lf ∧ Tab.at [] u.dev.ethTx p = ethWire (memBytes s.mem (a + 32) (bits lf 15 0)))
          ∧ (bad → evt u.dev 8 ∧ u.dev.ethTx = d.ethTx ∧ u.dev.g (F.ethp_CNT_TX_BAD p) = satU 16 (d.g (F.ethp_CNT_TX_BAD p) + 1) ∧ bit (mem32 u.mem a) 17 = true
              ∧ memLE u.mem (a + 4) 12 = 0)))
    ∧ (∀ v : Word, d.g (F.hdr_PAGE_CTRL_LOCK ethPage) = 0 →
      let n : Int := Word.f v 11 0
      (s.lets (F.ethp_TX_WR p).addr →
        let ok := n < d.txSize p ∧ (n - d.g (F.ethp_TX_WR p)) % d.txSize p ≤ ((d.g (F.ethp_TX_RD p) : Int) - 1 - d.g (F.ethp_TX_WR p)) % d.txSize p
        (ok → Answers (.txWrWrite port v) s (moved (F.ethp_TX_WR p) (Word.f v 11 0))) ∧ (¬ ok → Answers (.txWrWrite port v) s (turned (F.ethp_TX_WR p))))
      ∧ (s.lets (F.ethp_RX_RD p).addr →
        let ok := n < d.rxSize p ∧ (n - d.g (F.ethp_RX_RD p)) % d.rxSize p ≤ ((d.g (F.ethp_RX_WR p) : Int) - d.g (F.ethp_RX_RD p)) % d.rxSize p
        (ok → Answers (.rxRdWrite port v) s (moved (F.ethp_RX_RD p) (Word.f v 11 0))) ∧ (¬ ok → Answers (.rxRdWrite port v) s (turned (F.ethp_RX_RD p)))))
    ∧ (∀ up : Bool, d.g (F.ethp_PORT_STAT_LINK p) ≠ b2n up → Answers (.ethLinkChange port up) s (fun e => d.onlyEvent e ∧ e.g (F.ethp_PORT_STAT_LINK p) = b2n up
        ∧ e.g (F.ethp_PORT_STAT_AN_DONE p) = 0 ∧ evt e (4 + p) ∧ d.regsBut e ((F.ethp_PORT_STAT_LINK p).addr :: evtAddrs ethPage)))
    ∧ (d.g (F.ethp_PORT_STAT_LINK p) = 1 → d.g (F.ethp_PORT_CTRL_AN_EN p) = 1 → d.g (F.ethp_PORT_CTRL_SPEED p) = 0 →
        Answers (.autoNegotiationComplete port) s (fun e => d.onlyRegs e ∧ e.g (F.ethp_PORT_STAT_AN_DONE p) = 1 ∧ e.g (F.ethp_PORT_STAT_LINK p) = 1
          ∧ d.regsBut e [(F.ethp_PORT_STAT_LINK p).addr]))
    ∧ (∀ v : Word, s.lets F.eth_MDIO_CMD_OP.addr →
        (d.g F.eth_MDIO_STAT_BUSY = 0 → Answers (.mdioCmd v) s (fun e => e = { d with regs := e.regs, mdio := v } ∧ e.g F.eth_MDIO_STAT_BUSY = 1
          ∧ d.regsBut e [F.eth_MDIO_STAT_BUSY.addr]))
        ∧ (d.g F.eth_MDIO_STAT_BUSY = 1 → Answers (.mdioCmd v) s (d.refused 0x82 F.eth_MDIO_CMD_OP.addr)))
    ∧ ∀ x : BitVec 16, d.g F.eth_MDIO_STAT_BUSY = 1 → Answers (.mdioDone x) s (fun e => d.onlyEvent e ∧ e.g F.eth_MDIO_STAT_BUSY = 0 ∧ evt e 7
        ∧ e.g F.eth_MDIO_STAT_DATA = if Word.f d.mdio 29 28 = 2 then x.toNat else d.g F.eth_MDIO_STAT_DATA)

/-- EVR_WRITE, with nothing waiting in the DRAM controller: the recorder writes the next record of its queue at its place in Keep or Wrap, complete and with the next
sequence number, and nothing else of DRAM. SNAP copies the pointers to the head and to the oldest record of Wrap. -/
def Obligations.RecorderWritesInOrder : Prop :=
  ∀ s : State,
    let d := s.dev
    let w := d.evr
    (∀ x rest, w.front = [] → w.dropped = 0 → w.closed = false → w.queue = x :: rest → rest.length < 2048 → d.quiet = true → d.evrBase ≠ 0 → d.capacity ≠ 0 →
      let bs := recBytes x w.seq
      let stop := if w.keepClosed then 0x400000 else 0x100000
      w.ofs + bs.length < stop → w.ofs + bs.length + 8 ≠ stop → d.evrBase + stop ≤ d.capacity →
        ∃ u, exec .evrWrite s = .next u ∧ u = { s with dev := u.dev, mem := u.mem } ∧ rest <+: u.dev.evr.queue
          ∧ (d.ddr.bursts = [] → d.g F.ddr_NR_CTRL_RFM_REQ = 0 → u.dev.evr.queue = rest ∧ u.dev.g F.evr_QUEUE_NOW = rest.length)
          ∧ u.dev.evr.seq = w.seq + 1 ∧ u.dev.evr.ofs = w.ofs + bs.length
          ∧ (∀ i < bs.length, memByte u.mem (d.evrBase + w.ofs + i) = bs.getD i 0)
          ∧ (∀ a, a < d.evrBase + w.ofs ∨ d.evrBase + w.ofs + bs.length ≤ a → memByte u.mem a = memByte s.mem a)
          ∧ (w.keepClosed = false → u.dev.g F.evr_KEEP_END = w.ofs + bs.length ∧ u.dev.g F.evr_KEEP_STAT_COUNT = satU 24 (d.g F.evr_KEEP_STAT_COUNT + 1))
          ∧ (w.keepClosed = true → (w.seq, w.ofs, bs.length) ∈ u.dev.evr.wrap ∧ u.dev.g F.evr_KEEP_END = d.g F.evr_KEEP_END))
    ∧ (w.front = [] → w.dropped = 0 → w.queue = [] → Answers .evrWrite s (fun e => e = d))
    ∧ ∀ v : Word, s.lets F.evr_EVR_CMD_SNAP.addr →
        let old := match w.wrap with | r :: _ => (r.1, r.2.1) | [] => (w.seq, w.ofs)
        let at_ := fun (x : Nat) => if x = 0x400000 then 0x100000 else x
        (Word.f v 0 0 = 1 → Answers (.snap v) s (fun e => d.onlyRegs e ∧ e.g2 F.evr_SNAP_HEAD_SEQ_LO F.evr_SNAP_HEAD_SEQ_HI = w.seq % 2 ^ 64
          ∧ e.g F.evr_SNAP_HEAD_OFS = at_ w.ofs % 2 ^ 22 ∧ e.g2 F.evr_SNAP_OLD_SEQ_LO F.evr_SNAP_OLD_SEQ_HI = old.1 % 2 ^ 64
          ∧ e.g F.evr_SNAP_OLD_OFS = at_ old.2 % 2 ^ 22
          ∧ ∀ a, (a < F.evr_SNAP_HEAD_SEQ_LO.addr ∨ F.evr_SNAP_OLD_OFS.addr < a) → e.reg a = d.reg a))
        ∧ (Word.f v 0 0 = 0 → Answers (.snap v) s (fun e => e = d))


/-! ### Housekeeping and calibration (16) -/

/-- HK_CONVERSION stores each channel with its window bit, those of the isolated die as the latest report carried them (log 102); with the round's last channel a broken
reading of channel 0 is counted and ignored, a good one shown and judged (log 46). SUPPLY records a supply. THERM_LEVEL_CHANGE, SENSOR_BROKEN_LONG: the level that applies
takes over with its event and moves THR_LEVEL, CRIT for good. THROTTLE_STEP; THRESHOLD_WRITE lowers a threshold within its order alone. -/
def Obligations.HousekeepingJudgesAndThrottles : Prop :=
  ∀ s : State,
    let d := s.dev
    let k := d.hk
    let evt := fun (e : Dev) (b : Nat) => e.g ⟨hkPage + 0x10, b, b⟩ = 1
    let thr := d.g F.hk_THERM_STAT_THR_LEVEL
    let low := d.g F.hk_THR_MIN
    let level := fun (e : Dev) (l t : Nat) => e.g F.hk_THERM_STAT_LEVEL = l ∧ e.g F.hk_THERM_STAT_THR_LEVEL = max t low
    (∀ v raw : BitVec 16, d.st ≠ 0 → k.slot < 16 →
      let c := k.slot
      let w : BitVec 16 := if c = 11 then BitVec.ofNat 16 (d.g F.led_LAMP_STAT_T_LAMP)
        else if (c = 7 ∨ c = 8 ∨ c = 9) ∧ (d.link.everRx = false ∨ d.link.missRun ≠ 0) then BitVec.ofNat 16 (d.g (F.hk_HK_CHc_VALUE c)) else v
      let x := k.die.1
      let broken := hkOutside 0 x = true ∨ (∃ j ∈ [(12 : Nat), 13, 14], d.g (F.hk_HK_CHc_OUT_OF_WINDOW j) = 1) ∨ hkOutside 15 w.toInt = true ∨ k.raw = some k.die.2
      Answers (.hkConversion v raw) s (fun e => e.g (F.hk_HK_CHc_VALUE c) = w.toNat ∧ e.g (F.hk_HK_CHc_OUT_OF_WINDOW c) = b2n (hkOutside c w.toInt)
        ∧ e.hk.slot = (c + 1) % 16 ∧ e.g F.hk_ROUND_COUNT = (d.g F.hk_ROUND_COUNT + b2n (c == 15)) % 2 ^ 32
        ∧ e.g F.hk_THERM_STAT_LEVEL = d.g F.hk_THERM_STAT_LEVEL ∧ e.g F.hk_THERM_STAT_THR_LEVEL = thr
        ∧ (c = 0 → e.hk.die = (v.toInt, raw.toNat))
        ∧ (c ≠ 15 → e.gi F.hk_THERM_STAT_T_DIE = d.gi F.hk_THERM_STAT_T_DIE ∧ e.hk.active = k.active ∧ e.hk.broken = k.broken)
        ∧ (c = 15 → broken → e.g F.hk_THERM_STAT_SENSOR_BROKEN = 1 ∧ e.g F.hk_CNT_BROKEN = satU 16 (d.g F.hk_CNT_BROKEN + 1)
            ∧ e.gi F.hk_THERM_STAT_T_DIE = d.gi F.hk_THERM_STAT_T_DIE ∧ e.hk.active = k.active ∧ (k.broken = 0 → evt e 4))
        ∧ (c = 15 → ¬ broken → e.g F.hk_THERM_STAT_SENSOR_BROKEN = 0 ∧ e.gi F.hk_THERM_STAT_T_DIE = x
            ∧ e.gi F.hk_T_PEAK = max (d.gi F.hk_T_PEAK) x ∧ e.hk.broken = 0 ∧ (k.active.getD 2 false = true → e.hk.active.getD 2 false = true)
            ∧ ∀ i < 3, 2 ≤ d.st → 2 ≤ nth k.up i → nthI (if k.thr = [] then d.thrRegs else k.thr) i ≤ x → e.hk.active.getD i false = true)))
    ∧ (∀ c : Fin 16, 3 ≤ Tab.at 0 k.outRun c.val → d.g (supplyFld c.val) = 0 →
        Answers (.supply c) s (fun e => d.onlyEvent e ∧ e.g (supplyFld c.val) = 1 ∧ evt e 5 ∧ d.regsBut e ((supplyFld c.val).addr :: evtAddrs hkPage)))
    ∧ (k.levelDue = true → d.g F.hk_THERM_STAT_LEVEL ≠ 3 → k.level ≠ d.g F.hk_THERM_STAT_LEVEL → ∀ i ∈ [Instr.thermLevelChange, .sensorBrokenLong],
        i = .thermLevelChange ∨ 125 ≤ k.broken →
        (k.level = 3 → Answers i s (fun e => level e 3 6 ∧ evt e 2 ∧ e.link.crit = true ∧ e.g F.cal_RUN_STAT_STATE = 0))
        ∧ (k.level = 2 → Answers i s (fun e => level e 2 (min 6 (thr + 1)) ∧ evt e 1))
        ∧ (k.level < 2 → d.g F.hk_THERM_STAT_LEVEL = 2 → Answers i s (fun e => level e k.level (thr - 1) ∧ evt e (if k.level = 1 then 0 else 6)))
        ∧ (k.level < 2 → d.g F.hk_THERM_STAT_LEVEL ≠ 2 → Answers i s (fun e => e.g F.hk_THERM_STAT_LEVEL = k.level ∧ e.g F.hk_THERM_STAT_THR_LEVEL = thr
            ∧ evt e (if k.level = 1 then 0 else 6))))
    ∧ (k.stepped = false → 0 < k.sinceStep → k.sinceStep % 4 = 0 →
        let hot := k.good = true ∧ nthI (if k.thr = [] then d.thrRegs else k.thr) 1 ≤ d.gi F.hk_THERM_STAT_T_DIE
        (d.g F.hk_THERM_STAT_LEVEL = 2 → hot → thr < 6 → Answers .throttleStep s (fun e => level e 2 (thr + 1)))
        ∧ (d.g F.hk_THERM_STAT_LEVEL = 2 → ¬ hot ∨ 6 ≤ thr → Answers .throttleStep s (fun e => e = d))
        ∧ (d.g F.hk_THERM_STAT_LEVEL < 2 → low < thr → Answers .throttleStep s (fun e => level e (d.g F.hk_THERM_STAT_LEVEL) (thr - 1))))
    ∧ ∀ (w : Fin 3) (v : Word), s.lets (thrFld w.val).addr → d.g (F.hdr_PAGE_CTRL_LOCK hkPage) = 0 →
        let x := sx 16 (Word.f v 15 0)
        let t := d.thrRegs.set w.val x
        let ok := x ≤ nthI (gradeThr (d.g F.sys_DEV_ID_GRADE)) w.val ∧ nthI t 0 ≤ nthI t 1 ∧ nthI t 1 < nthI t 2
        (ok → Answers (.thresholdWrite w v) s (fun e => d.onlyRegs e ∧ e.gi (thrFld w.val) = x ∧ d.regsBut e [(thrFld w.val).addr]))
        ∧ (¬ ok → Answers (.thresholdWrite w v) s (d.refused 0x83 (thrFld w.val).addr))

/-- Calibration. RUN_START begins a run; RUN_SUBMIT takes two candidates that agree, or ends the run at the first word that differs; RUN_CANCEL ends it.
CAL_RECORD_WRITTEN: the record goes to the bank not in force and nowhere else, also where a CRIT has ended the run meanwhile. RELOAD, LOAD_DONE bring what is in force;
ACCEPT_SERIAL accepts a serial. Commands without key, state or room (NOR_READ, NOR_PROGRAM and NOR_ERASE too) show why in CAL_RESULT. Direct access to the store, in IDLE
with no run, asked for by NOR_READ, NOR_PROGRAM and NOR_ERASE and done by NOR_DONE: a read fills NOR_BUF, a program clears bits, an erase sets its sector to 0xFF, and no
other byte changes. -/
def Obligations.CalibrationRunsRecordsAndNor : Prop :=
  (
    ∀ s : State,
      let d := s.dev
      let run := d.g F.cal_RUN_STAT_STATE
      let busy := d.cal.reload ≠ none ∨ d.cal.norOp ≠ none
      let evt := fun (e : Dev) (b : Nat) => e.g ⟨calPage + 0x10, b, b⟩ = 1
      let only := fun (op c : Nat) (e : Dev) => d.onlyRegs e ∧ e.g F.cal_CAL_RESULT_OP = op ∧ e.g F.cal_CAL_RESULT_CODE = c ∧ d.regsBut e [F.cal_CAL_RESULT_OP.addr]
      let h0 := d.g F.cal_RUN_STAT_HEAD
      let t0 := d.g F.cal_RUN_STAT_TYPE
      (∀ v : Word, s.lets F.cal_CAL_CMD_OP.addr →
        let op := Word.f v 3 0
        let h := Word.f v 13 8
        let t := Word.f v 6 4
        let rows := [Instr.runStart v, .runSubmit v, .runCancel v, .reload v, .acceptSerial v, .norRead v, .norProgram v, .norErase v]
        (∀ i ∈ rows, rows[op - 1]? = some i → 1 ≤ op → Word.f v 31 16 ≠ 0x434C ∨ 48 ≤ h → Answers i s (only op 6))
        ∧ (Word.f v 31 16 = 0x434C → h < 48 →
          (op = 1 → 1 ≤ t → t ≤ 5 →
            (d.st ∈ [5, 6, 7] → run = 0 → ¬ busy → Answers (.runStart v) s (fun e => d.onlyRegs e ∧ e.g F.cal_RUN_STAT_STATE = 1 ∧ e.g F.cal_RUN_STAT_HEAD = h
              ∧ e.g F.cal_RUN_STAT_TYPE = t ∧ e.g ((F.cal_CAL_STATh_STALE h).bitAt (t - 1)) = 1 ∧ e.g F.cal_CAL_RESULT_CODE = 0
              ∧ d.regsBut e [F.cal_RUN_STAT_STATE.addr, (F.cal_CAL_STATh_STALE h).addr, F.cal_CAL_RESULT_OP.addr]))
            ∧ (d.st ∉ [5, 6, 7] → Answers (.runStart v) s (only 1 2))
            ∧ (d.st ∈ [5, 6, 7] → run ≠ 0 ∨ busy → Answers (.runStart v) s (only 1 1)))
          ∧ (op = 1 → t < 1 ∨ 5 < t → Answers (.runStart v) s (only 1 6))
          ∧ (op = 2 →
            let a := d.g F.cal_CAND_LO * 8 + d.g F.cal_CAND_HI * 2 ^ 32
            let b := memBytes s.mem a (36 + calLen t0)
            let good := a + (36 + calLen t0) ≤ d.devRegion ∧ (d.dramRead 3 a (36 + calLen t0)).1 = false ∧ calValid h0 t0 b = true ∧ leAt b 8 4 = 0
              ∧ (d.lane h0).serial = some (leAt b 16 8)
            let differ := fun (w : Nat) => d.calAgree t0 (nth (calWords t0 d.cal.run1) w) (nth (calWords t0 b) w) = false
            d.quiet = true →
            (run = 0 ∨ run = 3 → Answers (.runSubmit v) s (only 2 2))
            ∧ (run = 1 ∨ run = 2 → ¬ good → Answers (.runSubmit v) s (fun e => e.g F.cal_CAL_RESULT_CODE = 3 ∧ e.g F.cal_RUN_STAT_STATE = run ∧ e.cal = d.cal))
            ∧ (run = 1 → good → Answers (.runSubmit v) s (fun e => e.g F.cal_CAL_RESULT_CODE = 0 ∧ e.g F.cal_RUN_STAT_STATE = 2 ∧ e.cal = { d.cal with run1 := b }))
            ∧ (run = 2 → good → (∀ w < calLen t0 / 4, ¬ differ w) →
              Answers (.runSubmit v) s (fun e => e.g F.cal_CAL_RESULT_CODE = 0 ∧ e.g F.cal_RUN_STAT_STATE = 3 ∧ 
                e.cal = { d.cal with run2 := b, accTime := d.time.sec % 2 ^ 34 * 2 ^ 30 + d.time.ns }))
            ∧ (run = 2 → good → ∀ w < calLen t0 / 4, differ w → (∀ x < w, ¬ differ x) →
              Answers (.runSubmit v) s (fun e => e.g F.cal_CAL_RESULT_CODE = 4 ∧ e.g F.cal_RUN_STAT_STATE = 0 ∧ e.g F.cal_DIFF_WORD = w ∧ evt e 2)))
          ∧ (op = 3 → run ≠ 0 → Answers (.runCancel v) s (fun e => e.g F.cal_RUN_STAT_STATE = 0 ∧ e.g F.cal_CAL_RESULT_CODE = 0
              ∧ e = { d with regs := e.regs, cal := { d.cal with run1 := [], run2 := [], loadWaits := false } }
              ∧ (h0 < 48 → 1 ≤ t0 → t0 ≤ 5 → e.g ((F.cal_CAL_STATh_STALE h0).bitAt (t0 - 1)) = 0)))
          ∧ (op = 3 → run = 0 → Answers (.runCancel v) s (only 3 2))
          ∧ (op = 4 → d.st = 5 → run = 0 → ¬ busy → Answers (.reload v) s (fun e => e = { d with regs := e.regs, cal := { d.cal with reload := some h } }
              ∧ e.g F.cal_CAL_RESULT_CODE = 0))
          ∧ (op = 4 → d.st ≠ 5 → Answers (.reload v) s (only 4 2))
          ∧ (op = 4 → d.st = 5 → run ≠ 0 ∨ busy → Answers (.reload v) s (only 4 1))
          ∧ (op = 5 → ∀ x, (d.lane h).serial = some x → Answers (.acceptSerial v) s (fun e => e.g (F.cal_CAL_STATh_SERIAL_MISMATCH h) = 0 ∧ e.g F.cal_CAL_RESULT_CODE = 0
              ∧ e = { d with regs := e.regs, cal := { d.cal with accepted := Tab.set 0 d.cal.accepted h (x + 1) } }))))
      ∧ (∀ h < 48, d.cal.reload = some h → Answers .loadDone s (fun e => e.cal.reload = none ∧ evt e 0 ∧ Tab.at 0 e.cal.accepted h = 0
          ∧ ∀ t, 1 ≤ t → t ≤ 5 → e.g ((F.cal_CAL_STATh_VALID h).bitAt (t - 1)) = b2n (calInForce s.nor h t).isSome))
      ∧ (run = 3 → d.cal.loadWaits = false → ∀ rb : Option (List Byte),
          let bank := match calInForce s.nor h0 t0 with | some r => 1 - r.1 | none => 0
          let a := calBank h0 t0 bank
          ∃ u, exec (.calRecordWritten rb) s = .next u ∧ u = { s with dev := u.dev, nor := u.nor }
            ∧ (∀ x, x < a ∨ a + calBankSize t0 ≤ x → norByte u.nor x = norByte s.nor x)
            ∧ (rb = none → ∀ i < 36 + calLen t0, norByte u.nor (a + i) = ((d.calRecord s.nor h0 t0 d.cal.run1 d.cal.run2).getD i 0xFF).toNat)
            ∧ ((calRead u.nor h0 t0 bank).1 = none → u.dev.g F.cal_CAL_RESULT_CODE = 5 ∧ u.dev.g F.cal_RUN_STAT_STATE = 0 ∧ evt u.dev 3)
            ∧ ((calRead u.nor h0 t0 bank).1 ≠ none → d.st ≠ 7 → u.dev.g F.cal_RUN_STAT_STATE = 0 ∧ evt u.dev 1)
            ∧ ((calRead u.nor h0 t0 bank).1 ≠ none → d.st = 7 → u.dev = { d with cal := { d.cal with loadWaits := true } }))
      ∧ (run ≠ 3 → ∀ (h t : Nat) (x y : List Nat) (rb : Option (List Byte)), d.cal.cut = some (h, t, x, y) →
          let a := calBank h t (match calInForce s.nor h t with | some r => 1 - r.1 | none => 0)
          ∃ u, exec (.calRecordWritten rb) s = .next u ∧ u = { s with dev := { d with cal := { d.cal with cut := none } }, nor := u.nor }
            ∧ (∀ z, z < a ∨ a + calBankSize t ≤ z → norByte u.nor z = norByte s.nor z)
            ∧ (rb = none → ∀ i < 36 + calLen t, norByte u.nor (a + i) = ((d.calRecord s.nor h t x y).getD i 0xFF).toNat)))
  ∧ (
    ∀ s : State,
      let d := s.dev
      let run := d.g F.cal_RUN_STAT_STATE
      let busy := d.cal.reload ≠ none ∨ d.cal.norOp ≠ none
      let evt := fun (e : Dev) (b : Nat) => e.g ⟨calPage + 0x10, b, b⟩ = 1
      let a := d.g F.cal_NOR_ADDR
      let n := d.g F.cal_NOR_LEN
      (∀ v : Word, s.lets F.cal_CAL_CMD_OP.addr → Word.f v 31 16 = 0x434C → Word.f v 13 8 < 48 → ∀ x ∈ [(6, Instr.norRead v), (7, .norProgram v), (8, .norErase v)],
        Word.f v 3 0 = x.1 →
          (d.st = 5 → run = 0 → ¬ busy → x.1 = 8 ∨ (n ≠ 0 ∧ a % 256 + n ≤ 256) → Answers x.2 s (fun e => e.g F.cal_CAL_RESULT_CODE = 0
            ∧ ∃ buf, e = { d with regs := e.regs, cal := { d.cal with norOp := some (x.1, a, n, buf) } }
                ∧ (x.1 = 7 → ∀ i < n, nth buf i = d.g (F.cal_NOR_BUF (i / 4)) / 256 ^ (i % 4) % 256)))
          ∧ (d.st ≠ 5 ∨ run ≠ 0 → Answers x.2 s (fun e => d.onlyRegs e ∧ e.g F.cal_CAL_RESULT_CODE = 2 ∧ d.regsBut e [F.cal_CAL_RESULT_OP.addr]))
          ∧ (d.st = 5 → run = 0 → busy → Answers x.2 s (fun e => d.onlyRegs e ∧ e.g F.cal_CAL_RESULT_CODE = 1 ∧ d.regsBut e [F.cal_CAL_RESULT_OP.addr])))
      ∧ ∀ (op a n : Nat) (buf : List Nat), d.cal.norOp = some (op, a, n, buf) →
          (op = 6 → n ≤ 256 → Answers .norDone s (fun e => e.cal = { d.cal with norOp := none } ∧ evt e 5
            ∧ ∀ i < n, e.g (F.cal_NOR_BUF (i / 4)) / 256 ^ (i % 4) % 256 = norByte s.nor (a + i)))
          ∧ (op = 7 → ∃ u, exec .norDone s = .next u ∧ u = { s with dev := u.dev, nor := u.nor } ∧ u.dev.cal = { d.cal with norOp := none } ∧ evt u.dev 5
              ∧ (∀ i < buf.length, norByte u.nor (a + i) = (nth buf i &&& norByte s.nor (a + i)) % 256)
              ∧ ∀ x, x < a ∨ a + buf.length ≤ x → norByte u.nor x = norByte s.nor x)
          ∧ (op = 8 → ∃ u, exec .norDone s = .next u ∧ u = { s with dev := u.dev, nor := u.nor } ∧ u.dev.cal = { d.cal with norOp := none } ∧ evt u.dev 5
              ∧ ∀ x, norByte u.nor x = if x / 4096 = a / 4096 then 0xFF else norByte s.nor x))


/-! ### SC-12 mode (18) -/

/-- Lists and starts. CH_LIST_PORT_WRITE: words make segments up to 65,536; behind them a word is discarded with code 1. CH_LIST_RESET empties the list unless the channel
runs. SC_GO loads the named channels that are mapped and free with lists and parameters as they stand. SC_TRANSLATE_DONE publishes the loaded channels' streams in the
device region, here with nothing waiting in the DRAM controller, or refuses the GO with its segment. Runs. SC_ENABLE arms in IDLE with a personality in force; SC_DISABLE
stops or disarms. SC_STOP aborts and puts loaded and running channels in error. SC_DONE_CLR clears what is reported. SC_CHANNEL_DONE: a channel whose work is exposed is
done. SC_SCANNER_FAULT: an orphan of 400,000 frames is a scanner fault once. -/
def Obligations.Sc12ListsRunsAndReports : Prop :=
  (
    ∀ s : State, s.dev.st ≠ 0 → s.dev.g F.sys_SYS_STATE_MODE = 2 →
      let d := s.dev
      let clear := d.g F.sc_SC_ERR_CODE = 0
      let err := fun (e : Dev) (code chan : Nat) => e.g F.sc_SC_ERR_CODE = code ∧ e.g F.sc_SC_ERR_CHANNEL = chan
      (∀ (c : Fin 12) (v : Word),
        let n := c.val
        let ch := d.scc n
        let others := fun (e : Dev) => ∀ k, k ≠ n → e.scc k = d.scc k
        (ch.part.length < 3 → ch.segs.length < 65536 → Answers (.chListPortWrite c v) s (fun e => e = { d with sc := e.sc } ∧ e.scc n = { ch with part := ch.part ++ [v.toNat] } ∧ others e))
        ∧ (ch.part.length = 3 → ch.segs.length < 65536 → Answers (.chListPortWrite c v) s (fun e => e = { d with regs := e.regs, sc := e.sc }
            ∧ e.scc n = { ch with part := [], segs := (ch.part ++ [v.toNat]) :: ch.segs } ∧ others e
            ∧ e.g (F.scc_CH_LIST_FREE n) = 65536 - (ch.segs.length + 1) ∧ d.regsBut e [(F.scc_CH_LIST_FREE n).addr]))
        ∧ (65536 ≤ ch.segs.length → Answers (.chListPortWrite c v) s (fun e => e.scc n = ch ∧ others e ∧ (clear → err e 1 n)))
        ∧ (d.g (F.scc_CH_STATE n) ≠ 2 → Answers (.chListReset c v) s (fun e => e = { d with regs := e.regs, sc := e.sc } ∧ others e
            ∧ e.scc n = { ch with part := [], segs := [] } ∧ e.g (F.scc_CH_LIST_FREE n) = 65536 ∧ d.regsBut e [(F.scc_CH_LIST_FREE n).addr]))
        ∧ (d.g (F.scc_CH_STATE n) = 2 → Answers (.chListReset c v) s (fun e => e = d)))
      ∧ (∀ v : Word,
          (d.st = 7 ∨ d.sc.phase = 1 ∨ d.sc.phase = 2 → d.g F.sc_SC_CTRL_ENABLE = 1 → Answers (.scGo v) s (fun e => ∀ c < 12,
            let goes := v.getLsbD c = true ∧ d.scHead c ≠ none ∧ d.g (F.scc_CH_STATE c) ≠ 1 ∧ d.g (F.scc_CH_STATE c) ≠ 2
            (goes → e.g (F.scc_CH_STATE c) = 1 ∧ e.g (F.sc_SC_BUSY_LOADED.bitAt c) = 1 ∧ e.g (F.sc_SC_BUSY_RUN.bitAt c) = 0 ∧ bit (e.sc.trans.getD 0) c = true
              ∧ e.scc c = { d.scc c with part := [], src := (d.scc c).segs.reverse, par := (List.range 10).map (fun i => d.g (F.scc_CH_PARAMi c i)) })
            ∧ (¬ goes → e.g (F.scc_CH_STATE c) = d.g (F.scc_CH_STATE c)
              ∧ e.scc c = { d.scc c with part := if v.getLsbD c = true then [] else (d.scc c).part })
            ∧ (v.getLsbD c = true → d.scHead c = none → clear → e.g F.sc_SC_ERR_CODE = 5)))
          ∧ ((d.st ≠ 7 ∧ d.sc.phase ≠ 1 ∧ d.sc.phase ≠ 2) ∨ d.g F.sc_SC_CTRL_ENABLE = 0 → ∀ c < 12, v.getLsbD c = true → (∀ k < c, v.getLsbD k = false) →
            Answers (.scGo v) s (fun e => (clear → err e 3 c) ∧ e.sc.trans = d.sc.trans ∧ ∀ k < 12, e.g (F.scc_CH_STATE k) = d.g (F.scc_CH_STATE k))))
      ∧ ∀ mask, d.sc.trans = some mask → 1 ≤ d.g F.ddr_CFG_CAP_GB →
          let d' : Dev := { d with sc := { d.sc with trans := none } }
          let all := d'.scRun d'.scLoaded
          match all.find? (fun e => e.2.err.isSome) with
          | some x =>
            Answers .scTranslateDone s (fun e => e.sc.trans = none ∧ (∀ c < 12, bit mask c = true → e.g (F.scc_CH_STATE c) = 0)
              ∧ e.g F.sc_X_REFUSE_CHANNEL = x.1 % 16 ∧ e.g F.sc_X_REFUSE_SEG = (x.2.err.getD (0, 0)).1 % 65536)
          | none =>
            (d.quiet = true → ∃ u, exec .scTranslateDone s = .next u ∧ u = { s with dev := u.dev, mem := u.mem } ∧ u.dev.sc.trans = none
              ∧ (∀ a < d.devRegion, memByte u.mem a = memByte s.mem a)
              ∧ (∀ c < 12, u.dev.g (F.scc_CH_STATE c) = d.g (F.scc_CH_STATE c))
              ∧ ∀ x ∈ all, ∀ i < 32 * x.2.recs.length,
                  memByte u.mem (d.scStream x.1 + i) = (x.2.recs.reverse.flatMap (fun w => w.flatMap (leBytes 4))).getD i 0))
  ∧ (
    ∀ s : State, s.dev.st ≠ 0 → s.dev.g F.sys_SYS_STATE_MODE = 2 →
      let d := s.dev
      let clear := d.g F.sc_SC_ERR_CODE = 0
      let err := fun (e : Dev) (code chan : Nat) => e.g F.sc_SC_ERR_CODE = code ∧ e.g F.sc_SC_ERR_CHANNEL = chan
      (∀ v : Word,
        (Word.f v 0 0 = 1 → d.g F.sc_SC_CTRL_ENABLE = 0 →
          (d.sc.ok = true → d.st = 5 → d.ctl.cmd = 0 → Answers (.scEnable v) s (fun e => e.g F.sc_SC_CTRL_ENABLE = 1 ∧ e.ctl = { d.ctl with cmd := 1, cmdFrame := d.time.frame }
            ∧ e.sc = { d.sc with phase := 1 } ∧ e.g F.seq_TBL_LEN = 5 ∧ e.g F.seq_LQ_ENTRIES = 2 ∧ (List.range 5).map (fun k => e.entOp k) = [1, 2, 3, 11, 13]
            ∧ e = { d with regs := e.regs, ctl := e.ctl, sc := e.sc, seqTab := e.seqTab }))
          ∧ (d.sc.ok = true → d.st ≠ 5 ∨ d.ctl.cmd ≠ 0 → Answers (.scEnable v) s (fun e => e.g F.sc_SC_CTRL_ENABLE = 0 ∧ e.ctl = d.ctl ∧ (clear → err e 3 0)))
          ∧ (d.sc.ok = false → Answers (.scEnable v) s (fun e => e.g F.sc_SC_CTRL_ENABLE = 0 ∧ e.ctl = d.ctl ∧ (clear → err e 5 0))))
        ∧ (Word.f v 0 0 = 0 → d.g F.sc_SC_CTRL_ENABLE = 1 → Answers (.scDisable v) s (fun e => e.g F.sc_SC_CTRL_ENABLE = 0
            ∧ e = { d with regs := e.regs, ctl := e.ctl, sc := e.sc } ∧ d.regsBut e [F.sc_SC_CTRL_ENABLE.addr]
            ∧ (d.st = 7 → e.ctl.cmd = 3 ∧ e.sc.phase = 3) ∧ (d.st = 6 → e.ctl.cmd = 5 ∧ e.sc.phase = 4)
            ∧ (d.st ≠ 6 → d.st ≠ 7 → e.ctl = d.ctl ∧ e.sc = { d.sc with phase := if d.sc.phase = 1 then 3 else d.sc.phase })))
        ∧ Answers (.scStop v) s (fun e => e.sc.trans = none ∧ e.sc.ctxs = []
            ∧ (d.st = 6 ∨ d.st = 7 → e.ctl = { d.ctl with cmd := 4, cmdFrame := d.time.frame }) ∧ (d.st ≠ 6 → d.st ≠ 7 → e.ctl = d.ctl)
            ∧ ∀ c < 12,
              let hit := fun (k : Nat) => d.g (F.scc_CH_STATE k) = 1 ∨ d.g (F.scc_CH_STATE k) = 2
              (e.scc c).part = [] ∧ (e.scc c).segs = (d.scc c).segs ∧ (hit c → e.g (F.scc_CH_STATE c) = 4)
                ∧ (¬ hit c → e.g (F.scc_CH_STATE c) = d.g (F.scc_CH_STATE c)) ∧ (hit c → (∀ k < c, ¬ hit k) → clear → err e 6 c))
        ∧ Answers (.scDoneClr v) s (fun e => e.g F.sc_SC_DONE = 0 ∧ err e 0 0 ∧ ∀ c < 12, e.g (F.scc_CH_STATE c) = d.g (F.scc_CH_STATE c)))
      ∧ ∀ c : Fin 12,
          let n := c.val
          (∀ h, d.scHead n = some h → d.g (F.scc_CH_STATE n) = 2 → d.g F.seq_LAYER_STAT_OPEN = 1 → 17 < d.g F.seq_LAYER_FRAMES → d.streamExposed h = true →
            Answers (.scChannelDone c) s (fun e => e.g (F.scc_CH_STATE n) = 3 ∧ e.g (F.sc_SC_DONE.bitAt n) = 1 ∧ e.g (F.sc_SC_BUSY_RUN.bitAt n) = 0
              ∧ ∀ k < 12, k ≠ n → e.g (F.scc_CH_STATE k) = d.g (F.scc_CH_STATE k) ∧ e.g (F.sc_SC_DONE.bitAt k) = d.g (F.sc_SC_DONE.bitAt k)))
          ∧ (∀ x ∈ d.sc.orphans, 400000 ≤ x.2 → (Tab.at {} d.hand.items x.1).orphan = true → d.scHead n = some (Tab.at {} d.hand.items x.1).src → (d.scc n).fault = false →
            Answers (.scScannerFault c) s (fun e => e.scc n = { d.scc n with fault := true } ∧ (clear → err e 7 n) ∧ ∀ k, k ≠ n → e.scc k = d.scc k)))

/-! ### The exposure set (04 R116, 05 R160, 09 R308) -/

/-- The exposure set with which a layer opens (OPEN_LAYER) holds a head only if its lane is UP, its gain and its rate are not 0, its cassette is AUTH with no write that
failed, its field correction is valid, its velocity and acceleration limits are not 0, and each of its mapped slots is enabled with a following-error limit, out of a
fault, of PARKING and of CURRENT_PARK. -/
def Obligations.ExposureSetNeedsEveryCondition : Prop :=
  ∀ s : State,
    let d := s.dev
    let fit := fun (h : Nat) => d.g (F.hd_LANE_STAT_STATE h) = 3 ∧ d.g (F.hd_PWR_GAIN h) ≠ 0 ∧ d.g (F.hd_FIRE_MAX_HZ h) ≠ 0
      ∧ d.g (F.hd_CAS_STAT_STATE h) = 2 ∧ d.g (F.hd_FC_STAT_VALID h) = 1 ∧ d.g (F.hd_FAIL_FAILED h) = 0 ∧ (d.hd h).cas.failed = false
      ∧ (∀ f ∈ [F.hd_LIM_VMAX_X h, F.hd_LIM_VMAX_Y h, F.hd_LIM_VMAX_F h, F.hd_LIM_AMAX_X h, F.hd_LIM_AMAX_Y h, F.hd_LIM_AMAX_F h], d.v f ≠ 0)
      ∧ ∀ n ∈ d.headSlots h, d.v (sf F.slot_SLOT_CTRL_EN n) = 1 ∧ d.v (sf F.slot_FE_LIM n) ≠ 0 ∧ d.mode n ≠ 7 ∧ d.mode n ≠ 4 ∧ d.mode n ≠ 6
          ∧ (d.slot n).faulted = false
    (∀ h ∈ d.exposureSet, h < 48 ∧ fit h)
      ∧ (d.mayOpen = true → Answers .openLayer s (fun e => ∀ h ∈ e.hand.expo, h < 48 ∧ fit h))
end

