-- ==== Sys2Proof/Laws/Tab.lean ====
section
/-!
SUPPORT. Laws of the sparse tables: a read after a write, and the canonical form, which every write keeps.
-/
namespace Sys2Proof

section Reads
variable {α : Type}

theorem Tab.get_filter_same (z : Nat → α) (k : Nat) : ∀ t : Tab α, Tab.get z (t.filter (fun e => e.1 != k)) k = z k
  | [] => rfl
  | (j, w) :: t => by
    by_cases h : j = k
    · simp [h, Tab.get_filter_same z k t]
    · simp [h, Tab.get, Tab.get_filter_same z k t]

theorem Tab.get_filter_ne (z : Nat → α) {k j : Nat} (h : k ≠ j) : ∀ t : Tab α, Tab.get z (t.filter (fun e => e.1 != k)) j = Tab.get z t j
  | [] => rfl
  | (i, w) :: t => by
    by_cases hik : i = k
    · subst hik
      simp [h, Tab.get, Tab.get_filter_ne z h t]
    · simp [hik, Tab.get, Tab.get_filter_ne z h t]

variable [DecidableEq α]

theorem Tab.get_cons_same (z : Nat → α) (k : Nat) (v : α) (t : Tab α) : Tab.get z (Tab.cons z k v t) k = v := by
  unfold Tab.cons
  split
  · rw [Tab.get_filter_same]; exact Eq.symm ‹_›
  · simp [Tab.get]

theorem Tab.get_cons_ne (z : Nat → α) {k j : Nat} (v : α) (t : Tab α) (h : k ≠ j) :
    Tab.get z (Tab.cons z k v t) j = Tab.get z t j := by
  unfold Tab.cons
  split
  · exact Tab.get_filter_ne z h t
  · simp [Tab.get, h]

/-- Reading the key just written. -/
theorem Tab.get_put_same (z : Nat → α) (k : Nat) (v : α) : ∀ t : Tab α, Tab.get z (Tab.put z t k v) k = v
  | [] => Tab.get_cons_same z k v []
  | (j, w) :: t => by
    unfold Tab.put
    split
    · exact Tab.get_cons_same z k v _
    · split
      · exact Tab.get_cons_same z k v t
      · rename_i hjk
        simp only [Tab.get, hjk, if_false]
        exact Tab.get_put_same z k v t

/-- Reading another key than the one written. -/
theorem Tab.get_put_ne (z : Nat → α) {k j : Nat} (v : α) (h : k ≠ j) : ∀ t : Tab α, Tab.get z (Tab.put z t k v) j = Tab.get z t j
  | [] => Tab.get_cons_ne z v [] h
  | (i, w) :: t => by
    unfold Tab.put
    split
    · exact Tab.get_cons_ne z v _ h
    · split
      · rename_i hik
        subst hik
        rw [Tab.get_cons_ne z v t h]
        simp [Tab.get, h]
      · simp only [Tab.get]
        split
        · rfl
        · exact Tab.get_put_ne z v h t

@[simp] theorem Tab.at_set_same (z : α) (t : Tab α) (k : Nat) (v : α) : Tab.at z (Tab.set z t k v) k = v := Tab.get_put_same _ k v t

theorem Tab.at_set_ne (z : α) (t : Tab α) {k j : Nat} (v : α) (h : k ≠ j) : Tab.at z (Tab.set z t k v) j = Tab.at z t j :=
  Tab.get_put_ne _ v h t

@[simp] theorem Tab.at_upd_same (z : α) (t : Tab α) (k : Nat) (f : α → α) : Tab.at z (Tab.upd z t k f) k = f (Tab.at z t k) :=
  Tab.at_set_same z t k _

theorem Tab.at_upd_ne (z : α) (t : Tab α) {k j : Nat} (f : α → α) (h : k ≠ j) : Tab.at z (Tab.upd z t k f) j = Tab.at z t j :=
  Tab.at_set_ne z t _ h

end Reads

/-! ### The canonical form -/

section Form
variable {α : Type}

theorem Tab.all_lt_mono {k j : Nat} (h : k ≤ j) {t : Tab α} (ht : t.all (fun e => decide (j < e.1)) = true) :
    t.all (fun e => decide (k < e.1)) = true := by
  simp only [List.all_eq_true, decide_eq_true_eq] at ht ⊢
  exact fun e he => Nat.lt_of_le_of_lt h (ht e he)

theorem Tab.all_lt_filter {k j : Nat} {t : Tab α} (ht : t.all (fun e => decide (j < e.1)) = true) :
    (t.filter (fun e => e.1 != k)).all (fun e => decide (j < e.1)) = true := by
  simp only [List.all_eq_true, decide_eq_true_eq] at ht ⊢
  exact fun e he => ht e ((List.mem_filter.mp he).1)

variable [DecidableEq α]

theorem Tab.wf_filter (z : Nat → α) (k : Nat) : ∀ {t : Tab α}, Tab.wf z t = true → Tab.wf z (t.filter (fun e => e.1 != k)) = true
  | [], _ => rfl
  | (j, w) :: t, h => by
    simp only [Tab.wf, Bool.and_eq_true, decide_eq_true_eq] at h
    obtain ⟨⟨hw, hlt⟩, ht⟩ := h
    by_cases hjk : j = k
    · simp only [hjk, bne_self_eq_false, Bool.false_eq_true, not_false_eq_true, List.filter_cons_of_neg]
      exact Tab.wf_filter z k ht
    · simp only [bne_iff_ne, ne_eq, hjk, not_false_eq_true, List.filter_cons_of_pos, Tab.wf, Bool.and_eq_true, decide_eq_true_eq]
      exact ⟨⟨hw, Tab.all_lt_filter hlt⟩, Tab.wf_filter z k ht⟩

theorem Tab.wf_cons (z : Nat → α) {k : Nat} (v : α) {t : Tab α} (hlt : t.all (fun e => decide (k < e.1)) = true)
    (ht : Tab.wf z t = true) : Tab.wf z (Tab.cons z k v t) = true := by
  unfold Tab.cons
  split
  · exact Tab.wf_filter z k ht
  · rename_i hv
    simp [Tab.wf, hv, hlt, ht]

theorem Tab.all_cons (z : Nat → α) {k j : Nat} (v : α) {t : Tab α} (hjk : j < k)
    (ht : t.all (fun e => decide (j < e.1)) = true) : (Tab.cons z k v t).all (fun e => decide (j < e.1)) = true := by
  unfold Tab.cons
  split
  · exact Tab.all_lt_filter ht
  · simp [hjk, ht]

theorem Tab.all_put (z : Nat → α) {k j : Nat} (v : α) (hjk : j < k) :
    ∀ {t : Tab α}, t.all (fun e => decide (j < e.1)) = true → (Tab.put z t k v).all (fun e => decide (j < e.1)) = true
  | [], h => Tab.all_cons z v hjk h
  | (i, w) :: t, h => by
    unfold Tab.put
    have h' := h
    simp only [List.all_cons, Bool.and_eq_true, decide_eq_true_eq] at h
    split
    · exact Tab.all_cons z v hjk h'
    · split
      · exact Tab.all_cons z v hjk h.2
      · simp only [List.all_cons, Bool.and_eq_true, decide_eq_true_eq]
        exact ⟨h.1, Tab.all_put z v hjk h.2⟩

/-- Writing keeps the canonical form. -/
theorem Tab.wf_put (z : Nat → α) (k : Nat) (v : α) : ∀ {t : Tab α}, Tab.wf z t = true → Tab.wf z (Tab.put z t k v) = true
  | [], h => Tab.wf_cons z v (by simp) h
  | (j, w) :: t, h => by
    have h' := h
    simp only [Tab.wf, Bool.and_eq_true, decide_eq_true_eq] at h
    obtain ⟨⟨hw, hlt⟩, ht⟩ := h
    unfold Tab.put
    split
    · rename_i hk
      refine Tab.wf_cons z v ?_ h'
      simp only [List.all_cons, Bool.and_eq_true, decide_eq_true_eq]
      exact ⟨hk, Tab.all_lt_mono (Nat.le_of_lt hk) hlt⟩
    · split
      · rename_i hjk
        subst hjk
        exact Tab.wf_cons z v hlt ht
      · have hjk : j < k := by omega
        simp only [Tab.wf, Bool.and_eq_true, decide_eq_true_eq]
        exact ⟨⟨hw, Tab.all_put z v hjk hlt⟩, Tab.wf_put z k v ht⟩

theorem Tab.wf_set (z : α) (k : Nat) (v : α) {t : Tab α} (h : Tab.wf (fun _ => z) t = true) : Tab.wf (fun _ => z) (Tab.set z t k v) = true :=
  Tab.wf_put _ k v h

end Form

end Sys2Proof
end

