-- ==== Sys2Proof/Laws/Registers.lean ====
section
/-!
SUPPORT. Laws of the register file: what a field reads after a register or a field was written, and after an event was raised.
-/
namespace Sys2Proof.Machine

/-! ### Registers -/

@[simp] theorem Dev.reg_setReg_same (d : Dev) (a : Nat) (v : Word) : (d.setReg a v).reg a = v := Tab.get_put_same _ a v _

theorem Dev.reg_setReg_ne (d : Dev) {a b : Nat} (v : Word) (h : a ≠ b) : (d.setReg a v).reg b = d.reg b := Tab.get_put_ne _ v h _

theorem Dev.reg_p_ne (d : Dev) {f : Fld} (v : Nat) {b : Nat} (h : f.addr ≠ b) : (d.p f v).reg b = d.reg b := Dev.reg_setReg_ne d _ h

/-! ### Fields -/

theorem bits_eq_of_testBit {w u hi lo : Nat} (h : ∀ i, lo ≤ i → i < hi + 1 → w.testBit i = u.testBit i) : bits w hi lo = bits u hi lo := by
  unfold bits
  apply Nat.eq_of_testBit_eq
  intro i
  simp only [Nat.testBit_mod_two_pow, Nat.testBit_div_two_pow]
  by_cases hi' : i < hi + 1 - lo
  · simp only [hi', decide_true, Bool.true_and]
    exact h (i + lo) (by omega) (by omega)
  · simp [hi']

theorem testBit_maskBits (hi lo i : Nat) : (maskBits hi lo).testBit i = decide (lo ≤ i ∧ i < lo + (hi + 1 - lo)) := by
  unfold maskBits
  rw [Nat.mul_comm, Nat.testBit_two_pow_mul, Nat.testBit_two_pow_sub_one]
  by_cases h : lo ≤ i <;> simp [h] <;> omega

theorem testBit_place (v hi lo i : Nat) : (place v hi lo).testBit i = (decide (lo ≤ i ∧ i < lo + (hi + 1 - lo)) && v.testBit (i - lo)) := by
  unfold place
  rw [Nat.mul_comm, Nat.testBit_two_pow_mul, Nat.testBit_mod_two_pow]
  by_cases h : lo ≤ i
  · by_cases h2 : i - lo < hi + 1 - lo
    · have : i < lo + (hi + 1 - lo) := by omega
      simp [h, h2, this]
    · have : ¬ i < lo + (hi + 1 - lo) := by omega
      simp [h, h2, this]
  · simp [h]

/-- A bit of a word after some of its bits were replaced. -/
theorem Word.testBit_putBits (w : Word) (hi lo v i : Nat) (hi32 : i < 32) :
    (Word.putBits w hi lo v).toNat.testBit i
      = if lo ≤ i ∧ i < lo + (hi + 1 - lo) then v.testBit (i - lo) else w.toNat.testBit i := by
  unfold Word.putBits
  rw [BitVec.testBit_toNat, BitVec.getLsbD_or, BitVec.getLsbD_and, BitVec.getLsbD_not, BitVec.getLsbD_ofNat, BitVec.getLsbD_ofNat,
    testBit_maskBits, testBit_place, ← BitVec.testBit_toNat]
  by_cases h : lo ≤ i ∧ i < lo + (hi + 1 - lo)
  · simp [h, hi32]
  · simp [h, hi32]

/-- The field just written. -/
theorem Dev.g_p_same (d : Dev) (f : Fld) (v : Nat) (h : f.hi < 32) : (d.p f v).g f = v % 2 ^ (f.hi + 1 - f.lo) := by
  unfold Dev.g Dev.p
  rw [Dev.reg_setReg_same]
  unfold bits
  apply Nat.eq_of_testBit_eq
  intro i
  simp only [Nat.testBit_mod_two_pow, Nat.testBit_div_two_pow]
  by_cases hi' : i < f.hi + 1 - f.lo
  · rw [Word.testBit_putBits _ _ _ _ _ (by omega)]
    have : f.lo ≤ i + f.lo ∧ i + f.lo < f.lo + (f.hi + 1 - f.lo) := by omega
    simp [this, hi']
  · simp [hi']

/-- Two fields that share no bit. -/
abbrev Fld.apart (f g : Fld) : Prop := f.addr ≠ g.addr ∨ f.hi < g.lo ∨ g.hi < f.lo

/-- A field that shares no bit with the one written. -/
theorem Dev.g_p_apart (d : Dev) {f k : Fld} (v : Nat) (h : Fld.apart f k) (hk : k.hi < 32) : (d.p f v).g k = d.g k := by
  unfold Dev.g
  by_cases ha : f.addr = k.addr
  · unfold Dev.p
    rw [← ha, Dev.reg_setReg_same]
    refine bits_eq_of_testBit fun i h1 h2 => ?_
    rw [Word.testBit_putBits _ _ _ _ _ (by omega)]
    have : ¬ (f.lo ≤ i ∧ i < f.lo + (f.hi + 1 - f.lo)) := by
      rcases h with h | h | h
      · exact absurd ha h
      · omega
      · omega
    simp [this]
  · rw [Dev.reg_p_ne d v ha]

/-! ### Events -/

theorem Dev.reg_sendMsg (d : Dev) (v a : Nat) : (d.sendMsg v).reg a = d.reg a := rfl

theorem Dev.reg_msgDue (d : Dev) (v a : Nat) : (d.msgDue v).reg a = d.reg a := by
  unfold Dev.msgDue
  split
  · rfl
  · split
    · rfl
    · dsimp only
      split
      · rfl
      · rfl

theorem pendFld_addr (v : Nat) : (pendFld v).addr = 0x2040 ∨ (pendFld v).addr = 0x2044 := by
  unfold pendFld; split <;> simp

theorem Dev.reg_vecSync (d : Dev) (v : Nat) (again : Bool) {a : Nat} (h0 : a ≠ 0x2040) (h1 : a ≠ 0x2044) : (d.vecSync v again).reg a = d.reg a := by
  have hp : (pendFld v).addr ≠ a := by rcases pendFld_addr v with h | h <;> omega
  unfold Dev.vecSync when
  dsimp only
  split
  · split
    · rw [Dev.reg_msgDue, Dev.reg_p_ne _ _ hp]
    · rw [Dev.reg_p_ne _ _ hp]
  · exact Dev.reg_p_ne _ _ hp

/-- A field that the hardware sets reads as a field that is written does. -/
theorem Dev.reg_flag (d : Dev) (f : Fld) (v a : Nat) : (d.flag f v).reg a = (d.p f v).reg a := rfl

theorem Dev.reg_setEvt (d : Dev) (page b : Nat) {a : Nat} (h0 : a ≠ 0x2040) (h1 : a ≠ 0x2044) (h2 : a ≠ page + 0x10) :
    (d.setEvt page b).reg a = d.reg a := by
  unfold Dev.setEvt when
  dsimp only
  have h2' : page + 0x10 ≠ a := fun e => h2 e.symm
  split
  · rw [Dev.reg_vecSync _ _ _ h0 h1, Dev.reg_flag, Dev.reg_p_ne _ _ h2']
  · rw [Dev.reg_flag, Dev.reg_p_ne _ _ h2']

/-- The registers a record that is queued or dropped does not change. -/
theorem Dev.reg_queueRec (d : Dev) (r : EvRec) {a : Nat} (h0 : a ≠ 0x2040) (h1 : a ≠ 0x2044) (h2 : a ≠ 0x5010) (h3 : a ≠ F.evr_CNT_LOST.addr)
    (h4 : a ≠ F.evr_QUEUE_NOW.addr) (h5 : a ≠ F.evr_QUEUE_PEAK.addr) : (d.queueRec r).reg a = d.reg a := by
  unfold Dev.queueRec when Dev.bump
  dsimp only
  split
  · split
    · rw [Dev.reg_setEvt _ _ _ h0 h1 h2, Dev.reg_p_ne _ _ (Ne.symm h3)]; rfl
    · rw [Dev.reg_p_ne _ _ (Ne.symm h3)]; rfl
  · split
    · rw [Dev.reg_p_ne _ _ (Ne.symm h5), Dev.reg_p_ne _ _ (Ne.symm h4)]; rfl
    · rw [Dev.reg_p_ne _ _ (Ne.symm h4)]; rfl

/-- A register that an event does not change. -/
theorem Dev.reg_raise (d : Dev) (page b : Nat) (pl : List Nat) (fo : Bool) {a : Nat} (h : a ∉ evtAddrs page) :
    (d.raise page b pl fo).reg a = d.reg a := by
  simp only [evtAddrs, List.mem_cons, List.not_mem_nil, or_false, not_or] at h
  obtain ⟨h0, h1, h2, h3, h4, h5, h6⟩ := h
  unfold Dev.raise when
  dsimp only
  split
  · rw [Dev.reg_queueRec _ _ h1 h2 h3 h4 h5 h6, Dev.reg_setEvt _ _ _ h1 h2 h3, Dev.reg_queueRec _ _ h1 h2 h3 h4 h5 h6, Dev.reg_setEvt _ _ _ h1 h2 h0]
  · rw [Dev.reg_queueRec _ _ h1 h2 h3 h4 h5 h6, Dev.reg_setEvt _ _ _ h1 h2 h0]

/-- A field of a register that an event does not change. -/
theorem Dev.g_raise (d : Dev) (page b : Nat) (pl : List Nat) (fo : Bool) {f : Fld} (h : f.addr ∉ evtAddrs page) :
    (d.raise page b pl fo).g f = d.g f := by unfold Dev.g; rw [Dev.reg_raise _ _ _ _ _ h]

/-- An event bit that is set stays set when an event is raised, and the event raised is set. -/
theorem Dev.g_setEvt_raw (e : Dev) {page b q c : Nat} (hb : b < 32) (hp : page % 0x1000 = 0)
    (h : (q = page ∧ c = b) ∨ e.g ⟨page + 0x10, b, b⟩ = 1) : (e.setEvt q c).g ⟨page + 0x10, b, b⟩ = 1 := by
  have h1 : page + 0x10 ≠ 0x2040 := by omega
  have h2 : page + 0x10 ≠ 0x2044 := by omega
  have e1 : (e.flag ⟨q + 0x10, c, c⟩).g ⟨page + 0x10, b, b⟩ = 1 := by
    change (e.p ⟨q + 0x10, c, c⟩ 1).g ⟨page + 0x10, b, b⟩ = 1
    by_cases hq : q = page ∧ c = b
    · obtain ⟨rfl, rfl⟩ := hq
      rw [Dev.g_p_same _ _ _ hb]; simp
    · rw [Dev.g_p_apart _ _ _ hb]
      · simpa [hq] using h
      · unfold Fld.apart
        dsimp only
        omega
  unfold Dev.setEvt when
  dsimp only
  split
  · unfold Dev.g at e1 ⊢
    dsimp only
    rw [Dev.reg_vecSync _ _ _ h1 h2]
    exact e1
  · exact e1

/-- An event bit that is set stays set when a record is queued or dropped. -/
theorem Dev.g_queueRec_raw (e : Dev) (r : EvRec) {page b : Nat} (hb : b < 32) (hp : page % 0x1000 = 0) (h : e.g ⟨page + 0x10, b, b⟩ = 1) :
    (e.queueRec r).g ⟨page + 0x10, b, b⟩ = 1 := by
  have hk : ∀ (x : Dev) (f : Fld) (v : Nat), f.addr % 0x1000 ≠ 0x10 → (x.p f v).g ⟨page + 0x10, b, b⟩ = x.g ⟨page + 0x10, b, b⟩ := by
    intro x f v hf
    unfold Dev.g
    dsimp only
    rw [Dev.reg_p_ne _ _ (by omega)]
  have hn : F.evr_CNT_LOST.addr % 0x1000 ≠ 0x10 ∧ F.evr_QUEUE_NOW.addr % 0x1000 ≠ 0x10 ∧ F.evr_QUEUE_PEAK.addr % 0x1000 ≠ 0x10 := by decide
  unfold Dev.queueRec when Dev.bump
  dsimp only
  split
  · split
    · apply Dev.g_setEvt_raw _ hb hp
      right
      rw [hk _ _ _ hn.1]
      exact h
    · rw [hk _ _ _ hn.1]
      exact h
  · split
    · rw [hk _ _ _ hn.2.2, hk _ _ _ hn.2.1]
      exact h
    · rw [hk _ _ _ hn.2.1]
      exact h

/-- The event just raised is pending in its page's EVT_RAW. -/
theorem Dev.g_raise_raw (d : Dev) {page b : Nat} (pl : List Nat) (fo : Bool) (hb : b < 32) (hp : page % 0x1000 = 0) :
    (d.raise page b pl fo).g ⟨page + 0x10, b, b⟩ = 1 := by
  have h1 := Dev.g_queueRec_raw (d.setEvt page b) ⟨b, srcOf page fo, d.time.sec, d.time.ns, pl⟩ hb hp (Dev.g_setEvt_raw _ hb hp (.inl ⟨rfl, rfl⟩))
  unfold Dev.raise when
  dsimp only
  split
  · exact Dev.g_queueRec_raw _ _ hb hp (Dev.g_setEvt_raw _ hb hp (.inr h1))
  · exact h1

/-! ### Errors -/

/-- What recording an error does: the statement of R55. -/
theorem Dev.refused_errAt (d : Dev) {code addr : Nat} (hc : code < 256) (ha : addr < 2 ^ 32) : d.refused code addr (d.errAt code addr) := by
  have hp : pageBase addr = pageBase addr := rfl
  revert hp
  generalize hpg : pageBase addr = p
  intro _
  unfold Dev.refused Dev.errAt Dev.err Dev.bump
  rw [hpg]
  dsimp only
  have hsat : ∀ n, satU (Fld.width (F.hdr_ERR_INFO_COUNT p)) n % 2 ^ ((F.hdr_ERR_INFO_COUNT p).hi + 1 - (F.hdr_ERR_INFO_COUNT p).lo) = min n 255 := by
    intro n
    show satU 8 n % 256 = _
    unfold satU
    split <;> omega
  split
  case isTrue h =>
    refine ⟨rfl, ?_, ?_, fun _ => ⟨?_, ?_, ?_⟩, fun h' => absurd h h'⟩
    · intro a hin
      simp only [List.mem_cons, List.not_mem_nil, or_false, not_or] at hin
      rw [Dev.reg_p_ne _ _ (by dsimp only; omega), Dev.reg_p_ne _ _ (by dsimp only; omega), Dev.reg_p_ne _ _ (by dsimp only; omega), Dev.reg_p_ne _ _ (by dsimp only; omega)]
    · rw [Dev.g_p_same _ _ _ (by simp), hsat]
      rw [Dev.g_p_apart _ _ (by simp [Fld.apart]) (by simp), Dev.g_p_apart _ _ (by simp [Fld.apart]) (by simp), Dev.g_p_apart _ _ (by simp [Fld.apart]) (by simp)]
    · rw [Dev.g_p_apart _ _ (by simp [Fld.apart]) (by simp), Dev.g_p_apart _ _ (by simp [Fld.apart]) (by simp), Dev.g_p_apart _ _ (by simp [Fld.apart]) (by simp), Dev.g_p_same _ _ _ (by simp)]
      exact Nat.mod_eq_of_lt hc
    · rw [Dev.g_p_apart _ _ (by simp [Fld.apart]) (by simp), Dev.g_p_apart _ _ (by simp [Fld.apart]) (by simp), Dev.g_p_same _ _ _ (by simp)]
      show addr % 0x1000 % 65536 = _
      omega
    · rw [Dev.g_p_apart _ _ (by simp [Fld.apart]) (by simp), Dev.g_p_same _ _ _ (by simp)]
      exact Nat.mod_eq_of_lt ha
  case isFalse h =>
    refine ⟨rfl, ?_, ?_, fun h' => absurd h' h, fun _ => ⟨?_, ?_, ?_⟩⟩
    · intro a hin
      simp only [List.mem_cons, List.not_mem_nil, or_false, not_or] at hin
      rw [Dev.reg_p_ne _ _ (by dsimp only; omega)]
    · rw [Dev.g_p_same _ _ _ (by simp), hsat]
    · rw [Dev.g_p_apart _ _ (by simp [Fld.apart]) (by simp)]
    · rw [Dev.g_p_apart _ _ (by simp [Fld.apart]) (by simp)]
    · rw [Dev.reg_p_ne _ _ (by dsimp only; omega)]

end Sys2Proof.Machine
end

