-- ==== Sys2Proof/Laws/State.lean ====
section
/-!
SUPPORT. What each named update of the state leaves as it was: one lemma per field, true by definition, so that no proof unfolds a record
update.
-/
namespace Sys2Proof.Machine

/-! ### Writing a register or a field changes the register file alone -/

@[simp] theorem Dev.ctl_setReg (d : Dev) (a : Nat) (v : Word) : (d.setReg a v).ctl = d.ctl := rfl
@[simp] theorem Dev.pcie_setReg (d : Dev) (a : Nat) (v : Word) : (d.setReg a v).pcie = d.pcie := rfl
@[simp] theorem Dev.time_setReg (d : Dev) (a : Nat) (v : Word) : (d.setReg a v).time = d.time := rfl
@[simp] theorem Dev.evr_setReg (d : Dev) (a : Nat) (v : Word) : (d.setReg a v).evr = d.evr := rfl
@[simp] theorem Dev.seq_setReg (d : Dev) (a : Nat) (v : Word) : (d.setReg a v).seq = d.seq := rfl
@[simp] theorem Dev.ctxWin_setReg (d : Dev) (a : Nat) (v : Word) : (d.setReg a v).ctxWin = d.ctxWin := rfl
@[simp] theorem Dev.ctxCrossed_setReg (d : Dev) (a : Nat) (v : Word) : (d.setReg a v).ctxCrossed = d.ctxCrossed := rfl
@[simp] theorem Dev.ctxLive_setReg (d : Dev) (a : Nat) (v : Word) : (d.setReg a v).ctxLive = d.ctxLive := rfl
@[simp] theorem Dev.seqTab_setReg (d : Dev) (a : Nat) (v : Word) : (d.setReg a v).seqTab = d.seqTab := rfl
@[simp] theorem Dev.slots_setReg (d : Dev) (a : Nat) (v : Word) : (d.setReg a v).slots = d.slots := rfl
@[simp] theorem Dev.heads_setReg (d : Dev) (a : Nat) (v : Word) : (d.setReg a v).heads = d.heads := rfl
@[simp] theorem Dev.lanes_setReg (d : Dev) (a : Nat) (v : Word) : (d.setReg a v).lanes = d.lanes := rfl
@[simp] theorem Dev.hand_setReg (d : Dev) (a : Nat) (v : Word) : (d.setReg a v).hand = d.hand := rfl
@[simp] theorem Dev.pslots_setReg (d : Dev) (a : Nat) (v : Word) : (d.setReg a v).pslots = d.pslots := rfl
@[simp] theorem Dev.tiles_setReg (d : Dev) (a : Nat) (v : Word) : (d.setReg a v).tiles = d.tiles := rfl
@[simp] theorem Dev.grid_setReg (d : Dev) (a : Nat) (v : Word) : (d.setReg a v).grid = d.grid := rfl
@[simp] theorem Dev.gridErr_setReg (d : Dev) (a : Nat) (v : Word) : (d.setReg a v).gridErr = d.gridErr := rfl
@[simp] theorem Dev.fcLog_setReg (d : Dev) (a : Nat) (v : Word) : (d.setReg a v).fcLog = d.fcLog := rfl
@[simp] theorem Dev.traceQ_setReg (d : Dev) (a : Nat) (v : Word) : (d.setReg a v).traceQ = d.traceQ := rfl
@[simp] theorem Dev.ddr_setReg (d : Dev) (a : Nat) (v : Word) : (d.setReg a v).ddr = d.ddr := rfl
@[simp] theorem Dev.scClk_setReg (d : Dev) (a : Nat) (v : Word) : (d.setReg a v).scClk = d.scClk := rfl
@[simp] theorem Dev.cal_setReg (d : Dev) (a : Nat) (v : Word) : (d.setReg a v).cal = d.cal := rfl
@[simp] theorem Dev.hk_setReg (d : Dev) (a : Nat) (v : Word) : (d.setReg a v).hk = d.hk := rfl
@[simp] theorem Dev.cps_setReg (d : Dev) (a : Nat) (v : Word) : (d.setReg a v).cps = d.cps := rfl
@[simp] theorem Dev.ips_setReg (d : Dev) (a : Nat) (v : Word) : (d.setReg a v).ips = d.ips := rfl
@[simp] theorem Dev.axes_setReg (d : Dev) (a : Nat) (v : Word) : (d.setReg a v).axes = d.axes := rfl
@[simp] theorem Dev.bps_setReg (d : Dev) (a : Nat) (v : Word) : (d.setReg a v).bps = d.bps := rfl
@[simp] theorem Dev.aux_setReg (d : Dev) (a : Nat) (v : Word) : (d.setReg a v).aux = d.aux := rfl
@[simp] theorem Dev.link_setReg (d : Dev) (a : Nat) (v : Word) : (d.setReg a v).link = d.link := rfl
@[simp] theorem Dev.dmas_setReg (d : Dev) (a : Nat) (v : Word) : (d.setReg a v).dmas = d.dmas := rfl
@[simp] theorem Dev.eng_setReg (d : Dev) (a : Nat) (v : Word) : (d.setReg a v).eng = d.eng := rfl
@[simp] theorem Dev.units_setReg (d : Dev) (a : Nat) (v : Word) : (d.setReg a v).units = d.units := rfl
@[simp] theorem Dev.sc_setReg (d : Dev) (a : Nat) (v : Word) : (d.setReg a v).sc = d.sc := rfl
@[simp] theorem Dev.mdio_setReg (d : Dev) (a : Nat) (v : Word) : (d.setReg a v).mdio = d.mdio := rfl
@[simp] theorem Dev.ethTx_setReg (d : Dev) (a : Nat) (v : Word) : (d.setReg a v).ethTx = d.ethTx := rfl
@[simp] theorem Dev.freeCtr_setReg (d : Dev) (a : Nat) (v : Word) : (d.setReg a v).freeCtr = d.freeCtr := rfl

@[simp] theorem Dev.ctl_p (d : Dev) (f : Fld) (v : Nat) : (d.p f v).ctl = d.ctl := rfl
@[simp] theorem Dev.pcie_p (d : Dev) (f : Fld) (v : Nat) : (d.p f v).pcie = d.pcie := rfl
@[simp] theorem Dev.time_p (d : Dev) (f : Fld) (v : Nat) : (d.p f v).time = d.time := rfl
@[simp] theorem Dev.evr_p (d : Dev) (f : Fld) (v : Nat) : (d.p f v).evr = d.evr := rfl
@[simp] theorem Dev.seq_p (d : Dev) (f : Fld) (v : Nat) : (d.p f v).seq = d.seq := rfl
@[simp] theorem Dev.ctxWin_p (d : Dev) (f : Fld) (v : Nat) : (d.p f v).ctxWin = d.ctxWin := rfl
@[simp] theorem Dev.ctxCrossed_p (d : Dev) (f : Fld) (v : Nat) : (d.p f v).ctxCrossed = d.ctxCrossed := rfl
@[simp] theorem Dev.ctxLive_p (d : Dev) (f : Fld) (v : Nat) : (d.p f v).ctxLive = d.ctxLive := rfl
@[simp] theorem Dev.seqTab_p (d : Dev) (f : Fld) (v : Nat) : (d.p f v).seqTab = d.seqTab := rfl
@[simp] theorem Dev.slots_p (d : Dev) (f : Fld) (v : Nat) : (d.p f v).slots = d.slots := rfl
@[simp] theorem Dev.heads_p (d : Dev) (f : Fld) (v : Nat) : (d.p f v).heads = d.heads := rfl
@[simp] theorem Dev.lanes_p (d : Dev) (f : Fld) (v : Nat) : (d.p f v).lanes = d.lanes := rfl
@[simp] theorem Dev.hand_p (d : Dev) (f : Fld) (v : Nat) : (d.p f v).hand = d.hand := rfl
@[simp] theorem Dev.pslots_p (d : Dev) (f : Fld) (v : Nat) : (d.p f v).pslots = d.pslots := rfl
@[simp] theorem Dev.tiles_p (d : Dev) (f : Fld) (v : Nat) : (d.p f v).tiles = d.tiles := rfl
@[simp] theorem Dev.grid_p (d : Dev) (f : Fld) (v : Nat) : (d.p f v).grid = d.grid := rfl
@[simp] theorem Dev.gridErr_p (d : Dev) (f : Fld) (v : Nat) : (d.p f v).gridErr = d.gridErr := rfl
@[simp] theorem Dev.fcLog_p (d : Dev) (f : Fld) (v : Nat) : (d.p f v).fcLog = d.fcLog := rfl
@[simp] theorem Dev.traceQ_p (d : Dev) (f : Fld) (v : Nat) : (d.p f v).traceQ = d.traceQ := rfl
@[simp] theorem Dev.ddr_p (d : Dev) (f : Fld) (v : Nat) : (d.p f v).ddr = d.ddr := rfl
@[simp] theorem Dev.scClk_p (d : Dev) (f : Fld) (v : Nat) : (d.p f v).scClk = d.scClk := rfl
@[simp] theorem Dev.cal_p (d : Dev) (f : Fld) (v : Nat) : (d.p f v).cal = d.cal := rfl
@[simp] theorem Dev.hk_p (d : Dev) (f : Fld) (v : Nat) : (d.p f v).hk = d.hk := rfl
@[simp] theorem Dev.cps_p (d : Dev) (f : Fld) (v : Nat) : (d.p f v).cps = d.cps := rfl
@[simp] theorem Dev.ips_p (d : Dev) (f : Fld) (v : Nat) : (d.p f v).ips = d.ips := rfl
@[simp] theorem Dev.axes_p (d : Dev) (f : Fld) (v : Nat) : (d.p f v).axes = d.axes := rfl
@[simp] theorem Dev.bps_p (d : Dev) (f : Fld) (v : Nat) : (d.p f v).bps = d.bps := rfl
@[simp] theorem Dev.aux_p (d : Dev) (f : Fld) (v : Nat) : (d.p f v).aux = d.aux := rfl
@[simp] theorem Dev.link_p (d : Dev) (f : Fld) (v : Nat) : (d.p f v).link = d.link := rfl
@[simp] theorem Dev.dmas_p (d : Dev) (f : Fld) (v : Nat) : (d.p f v).dmas = d.dmas := rfl
@[simp] theorem Dev.eng_p (d : Dev) (f : Fld) (v : Nat) : (d.p f v).eng = d.eng := rfl
@[simp] theorem Dev.units_p (d : Dev) (f : Fld) (v : Nat) : (d.p f v).units = d.units := rfl
@[simp] theorem Dev.sc_p (d : Dev) (f : Fld) (v : Nat) : (d.p f v).sc = d.sc := rfl
@[simp] theorem Dev.mdio_p (d : Dev) (f : Fld) (v : Nat) : (d.p f v).mdio = d.mdio := rfl
@[simp] theorem Dev.ethTx_p (d : Dev) (f : Fld) (v : Nat) : (d.p f v).ethTx = d.ethTx := rfl
@[simp] theorem Dev.freeCtr_p (d : Dev) (f : Fld) (v : Nat) : (d.p f v).freeCtr = d.freeCtr := rfl

@[simp] theorem Dev.ctl_pi (d : Dev) (f : Fld) (v : Int) : (d.pi f v).ctl = d.ctl := rfl
@[simp] theorem Dev.pcie_pi (d : Dev) (f : Fld) (v : Int) : (d.pi f v).pcie = d.pcie := rfl
@[simp] theorem Dev.time_pi (d : Dev) (f : Fld) (v : Int) : (d.pi f v).time = d.time := rfl
@[simp] theorem Dev.evr_pi (d : Dev) (f : Fld) (v : Int) : (d.pi f v).evr = d.evr := rfl
@[simp] theorem Dev.seq_pi (d : Dev) (f : Fld) (v : Int) : (d.pi f v).seq = d.seq := rfl
@[simp] theorem Dev.ctxWin_pi (d : Dev) (f : Fld) (v : Int) : (d.pi f v).ctxWin = d.ctxWin := rfl
@[simp] theorem Dev.ctxCrossed_pi (d : Dev) (f : Fld) (v : Int) : (d.pi f v).ctxCrossed = d.ctxCrossed := rfl
@[simp] theorem Dev.ctxLive_pi (d : Dev) (f : Fld) (v : Int) : (d.pi f v).ctxLive = d.ctxLive := rfl
@[simp] theorem Dev.seqTab_pi (d : Dev) (f : Fld) (v : Int) : (d.pi f v).seqTab = d.seqTab := rfl
@[simp] theorem Dev.slots_pi (d : Dev) (f : Fld) (v : Int) : (d.pi f v).slots = d.slots := rfl
@[simp] theorem Dev.heads_pi (d : Dev) (f : Fld) (v : Int) : (d.pi f v).heads = d.heads := rfl
@[simp] theorem Dev.lanes_pi (d : Dev) (f : Fld) (v : Int) : (d.pi f v).lanes = d.lanes := rfl
@[simp] theorem Dev.hand_pi (d : Dev) (f : Fld) (v : Int) : (d.pi f v).hand = d.hand := rfl
@[simp] theorem Dev.pslots_pi (d : Dev) (f : Fld) (v : Int) : (d.pi f v).pslots = d.pslots := rfl
@[simp] theorem Dev.tiles_pi (d : Dev) (f : Fld) (v : Int) : (d.pi f v).tiles = d.tiles := rfl
@[simp] theorem Dev.grid_pi (d : Dev) (f : Fld) (v : Int) : (d.pi f v).grid = d.grid := rfl
@[simp] theorem Dev.gridErr_pi (d : Dev) (f : Fld) (v : Int) : (d.pi f v).gridErr = d.gridErr := rfl
@[simp] theorem Dev.fcLog_pi (d : Dev) (f : Fld) (v : Int) : (d.pi f v).fcLog = d.fcLog := rfl
@[simp] theorem Dev.traceQ_pi (d : Dev) (f : Fld) (v : Int) : (d.pi f v).traceQ = d.traceQ := rfl
@[simp] theorem Dev.ddr_pi (d : Dev) (f : Fld) (v : Int) : (d.pi f v).ddr = d.ddr := rfl
@[simp] theorem Dev.scClk_pi (d : Dev) (f : Fld) (v : Int) : (d.pi f v).scClk = d.scClk := rfl
@[simp] theorem Dev.cal_pi (d : Dev) (f : Fld) (v : Int) : (d.pi f v).cal = d.cal := rfl
@[simp] theorem Dev.hk_pi (d : Dev) (f : Fld) (v : Int) : (d.pi f v).hk = d.hk := rfl
@[simp] theorem Dev.cps_pi (d : Dev) (f : Fld) (v : Int) : (d.pi f v).cps = d.cps := rfl
@[simp] theorem Dev.ips_pi (d : Dev) (f : Fld) (v : Int) : (d.pi f v).ips = d.ips := rfl
@[simp] theorem Dev.axes_pi (d : Dev) (f : Fld) (v : Int) : (d.pi f v).axes = d.axes := rfl
@[simp] theorem Dev.bps_pi (d : Dev) (f : Fld) (v : Int) : (d.pi f v).bps = d.bps := rfl
@[simp] theorem Dev.aux_pi (d : Dev) (f : Fld) (v : Int) : (d.pi f v).aux = d.aux := rfl
@[simp] theorem Dev.link_pi (d : Dev) (f : Fld) (v : Int) : (d.pi f v).link = d.link := rfl
@[simp] theorem Dev.dmas_pi (d : Dev) (f : Fld) (v : Int) : (d.pi f v).dmas = d.dmas := rfl
@[simp] theorem Dev.eng_pi (d : Dev) (f : Fld) (v : Int) : (d.pi f v).eng = d.eng := rfl
@[simp] theorem Dev.units_pi (d : Dev) (f : Fld) (v : Int) : (d.pi f v).units = d.units := rfl
@[simp] theorem Dev.sc_pi (d : Dev) (f : Fld) (v : Int) : (d.pi f v).sc = d.sc := rfl
@[simp] theorem Dev.mdio_pi (d : Dev) (f : Fld) (v : Int) : (d.pi f v).mdio = d.mdio := rfl
@[simp] theorem Dev.ethTx_pi (d : Dev) (f : Fld) (v : Int) : (d.pi f v).ethTx = d.ethTx := rfl
@[simp] theorem Dev.freeCtr_pi (d : Dev) (f : Fld) (v : Int) : (d.pi f v).freeCtr = d.freeCtr := rfl

@[simp] theorem Dev.ctl_bump (d : Dev) (f : Fld) (k : Nat) : (d.bump f k).ctl = d.ctl := rfl
@[simp] theorem Dev.pcie_bump (d : Dev) (f : Fld) (k : Nat) : (d.bump f k).pcie = d.pcie := rfl
@[simp] theorem Dev.time_bump (d : Dev) (f : Fld) (k : Nat) : (d.bump f k).time = d.time := rfl
@[simp] theorem Dev.evr_bump (d : Dev) (f : Fld) (k : Nat) : (d.bump f k).evr = d.evr := rfl
@[simp] theorem Dev.seq_bump (d : Dev) (f : Fld) (k : Nat) : (d.bump f k).seq = d.seq := rfl
@[simp] theorem Dev.ctxWin_bump (d : Dev) (f : Fld) (k : Nat) : (d.bump f k).ctxWin = d.ctxWin := rfl
@[simp] theorem Dev.ctxCrossed_bump (d : Dev) (f : Fld) (k : Nat) : (d.bump f k).ctxCrossed = d.ctxCrossed := rfl
@[simp] theorem Dev.ctxLive_bump (d : Dev) (f : Fld) (k : Nat) : (d.bump f k).ctxLive = d.ctxLive := rfl
@[simp] theorem Dev.seqTab_bump (d : Dev) (f : Fld) (k : Nat) : (d.bump f k).seqTab = d.seqTab := rfl
@[simp] theorem Dev.slots_bump (d : Dev) (f : Fld) (k : Nat) : (d.bump f k).slots = d.slots := rfl
@[simp] theorem Dev.heads_bump (d : Dev) (f : Fld) (k : Nat) : (d.bump f k).heads = d.heads := rfl
@[simp] theorem Dev.lanes_bump (d : Dev) (f : Fld) (k : Nat) : (d.bump f k).lanes = d.lanes := rfl
@[simp] theorem Dev.hand_bump (d : Dev) (f : Fld) (k : Nat) : (d.bump f k).hand = d.hand := rfl
@[simp] theorem Dev.pslots_bump (d : Dev) (f : Fld) (k : Nat) : (d.bump f k).pslots = d.pslots := rfl
@[simp] theorem Dev.tiles_bump (d : Dev) (f : Fld) (k : Nat) : (d.bump f k).tiles = d.tiles := rfl
@[simp] theorem Dev.grid_bump (d : Dev) (f : Fld) (k : Nat) : (d.bump f k).grid = d.grid := rfl
@[simp] theorem Dev.gridErr_bump (d : Dev) (f : Fld) (k : Nat) : (d.bump f k).gridErr = d.gridErr := rfl
@[simp] theorem Dev.fcLog_bump (d : Dev) (f : Fld) (k : Nat) : (d.bump f k).fcLog = d.fcLog := rfl
@[simp] theorem Dev.traceQ_bump (d : Dev) (f : Fld) (k : Nat) : (d.bump f k).traceQ = d.traceQ := rfl
@[simp] theorem Dev.ddr_bump (d : Dev) (f : Fld) (k : Nat) : (d.bump f k).ddr = d.ddr := rfl
@[simp] theorem Dev.scClk_bump (d : Dev) (f : Fld) (k : Nat) : (d.bump f k).scClk = d.scClk := rfl
@[simp] theorem Dev.cal_bump (d : Dev) (f : Fld) (k : Nat) : (d.bump f k).cal = d.cal := rfl
@[simp] theorem Dev.hk_bump (d : Dev) (f : Fld) (k : Nat) : (d.bump f k).hk = d.hk := rfl
@[simp] theorem Dev.cps_bump (d : Dev) (f : Fld) (k : Nat) : (d.bump f k).cps = d.cps := rfl
@[simp] theorem Dev.ips_bump (d : Dev) (f : Fld) (k : Nat) : (d.bump f k).ips = d.ips := rfl
@[simp] theorem Dev.axes_bump (d : Dev) (f : Fld) (k : Nat) : (d.bump f k).axes = d.axes := rfl
@[simp] theorem Dev.bps_bump (d : Dev) (f : Fld) (k : Nat) : (d.bump f k).bps = d.bps := rfl
@[simp] theorem Dev.aux_bump (d : Dev) (f : Fld) (k : Nat) : (d.bump f k).aux = d.aux := rfl
@[simp] theorem Dev.link_bump (d : Dev) (f : Fld) (k : Nat) : (d.bump f k).link = d.link := rfl
@[simp] theorem Dev.dmas_bump (d : Dev) (f : Fld) (k : Nat) : (d.bump f k).dmas = d.dmas := rfl
@[simp] theorem Dev.eng_bump (d : Dev) (f : Fld) (k : Nat) : (d.bump f k).eng = d.eng := rfl
@[simp] theorem Dev.units_bump (d : Dev) (f : Fld) (k : Nat) : (d.bump f k).units = d.units := rfl
@[simp] theorem Dev.sc_bump (d : Dev) (f : Fld) (k : Nat) : (d.bump f k).sc = d.sc := rfl
@[simp] theorem Dev.mdio_bump (d : Dev) (f : Fld) (k : Nat) : (d.bump f k).mdio = d.mdio := rfl
@[simp] theorem Dev.ethTx_bump (d : Dev) (f : Fld) (k : Nat) : (d.bump f k).ethTx = d.ethTx := rfl
@[simp] theorem Dev.freeCtr_bump (d : Dev) (f : Fld) (k : Nat) : (d.bump f k).freeCtr = d.freeCtr := rfl

@[simp] theorem Dev.ctl_bumpW (d : Dev) (f : Fld) (k : Nat) : (d.bumpW f k).ctl = d.ctl := rfl
@[simp] theorem Dev.pcie_bumpW (d : Dev) (f : Fld) (k : Nat) : (d.bumpW f k).pcie = d.pcie := rfl
@[simp] theorem Dev.time_bumpW (d : Dev) (f : Fld) (k : Nat) : (d.bumpW f k).time = d.time := rfl
@[simp] theorem Dev.evr_bumpW (d : Dev) (f : Fld) (k : Nat) : (d.bumpW f k).evr = d.evr := rfl
@[simp] theorem Dev.seq_bumpW (d : Dev) (f : Fld) (k : Nat) : (d.bumpW f k).seq = d.seq := rfl
@[simp] theorem Dev.ctxWin_bumpW (d : Dev) (f : Fld) (k : Nat) : (d.bumpW f k).ctxWin = d.ctxWin := rfl
@[simp] theorem Dev.ctxCrossed_bumpW (d : Dev) (f : Fld) (k : Nat) : (d.bumpW f k).ctxCrossed = d.ctxCrossed := rfl
@[simp] theorem Dev.ctxLive_bumpW (d : Dev) (f : Fld) (k : Nat) : (d.bumpW f k).ctxLive = d.ctxLive := rfl
@[simp] theorem Dev.seqTab_bumpW (d : Dev) (f : Fld) (k : Nat) : (d.bumpW f k).seqTab = d.seqTab := rfl
@[simp] theorem Dev.slots_bumpW (d : Dev) (f : Fld) (k : Nat) : (d.bumpW f k).slots = d.slots := rfl
@[simp] theorem Dev.heads_bumpW (d : Dev) (f : Fld) (k : Nat) : (d.bumpW f k).heads = d.heads := rfl
@[simp] theorem Dev.lanes_bumpW (d : Dev) (f : Fld) (k : Nat) : (d.bumpW f k).lanes = d.lanes := rfl
@[simp] theorem Dev.hand_bumpW (d : Dev) (f : Fld) (k : Nat) : (d.bumpW f k).hand = d.hand := rfl
@[simp] theorem Dev.pslots_bumpW (d : Dev) (f : Fld) (k : Nat) : (d.bumpW f k).pslots = d.pslots := rfl
@[simp] theorem Dev.tiles_bumpW (d : Dev) (f : Fld) (k : Nat) : (d.bumpW f k).tiles = d.tiles := rfl
@[simp] theorem Dev.grid_bumpW (d : Dev) (f : Fld) (k : Nat) : (d.bumpW f k).grid = d.grid := rfl
@[simp] theorem Dev.gridErr_bumpW (d : Dev) (f : Fld) (k : Nat) : (d.bumpW f k).gridErr = d.gridErr := rfl
@[simp] theorem Dev.fcLog_bumpW (d : Dev) (f : Fld) (k : Nat) : (d.bumpW f k).fcLog = d.fcLog := rfl
@[simp] theorem Dev.traceQ_bumpW (d : Dev) (f : Fld) (k : Nat) : (d.bumpW f k).traceQ = d.traceQ := rfl
@[simp] theorem Dev.ddr_bumpW (d : Dev) (f : Fld) (k : Nat) : (d.bumpW f k).ddr = d.ddr := rfl
@[simp] theorem Dev.scClk_bumpW (d : Dev) (f : Fld) (k : Nat) : (d.bumpW f k).scClk = d.scClk := rfl
@[simp] theorem Dev.cal_bumpW (d : Dev) (f : Fld) (k : Nat) : (d.bumpW f k).cal = d.cal := rfl
@[simp] theorem Dev.hk_bumpW (d : Dev) (f : Fld) (k : Nat) : (d.bumpW f k).hk = d.hk := rfl
@[simp] theorem Dev.cps_bumpW (d : Dev) (f : Fld) (k : Nat) : (d.bumpW f k).cps = d.cps := rfl
@[simp] theorem Dev.ips_bumpW (d : Dev) (f : Fld) (k : Nat) : (d.bumpW f k).ips = d.ips := rfl
@[simp] theorem Dev.axes_bumpW (d : Dev) (f : Fld) (k : Nat) : (d.bumpW f k).axes = d.axes := rfl
@[simp] theorem Dev.bps_bumpW (d : Dev) (f : Fld) (k : Nat) : (d.bumpW f k).bps = d.bps := rfl
@[simp] theorem Dev.aux_bumpW (d : Dev) (f : Fld) (k : Nat) : (d.bumpW f k).aux = d.aux := rfl
@[simp] theorem Dev.link_bumpW (d : Dev) (f : Fld) (k : Nat) : (d.bumpW f k).link = d.link := rfl
@[simp] theorem Dev.dmas_bumpW (d : Dev) (f : Fld) (k : Nat) : (d.bumpW f k).dmas = d.dmas := rfl
@[simp] theorem Dev.eng_bumpW (d : Dev) (f : Fld) (k : Nat) : (d.bumpW f k).eng = d.eng := rfl
@[simp] theorem Dev.units_bumpW (d : Dev) (f : Fld) (k : Nat) : (d.bumpW f k).units = d.units := rfl
@[simp] theorem Dev.sc_bumpW (d : Dev) (f : Fld) (k : Nat) : (d.bumpW f k).sc = d.sc := rfl
@[simp] theorem Dev.mdio_bumpW (d : Dev) (f : Fld) (k : Nat) : (d.bumpW f k).mdio = d.mdio := rfl
@[simp] theorem Dev.ethTx_bumpW (d : Dev) (f : Fld) (k : Nat) : (d.bumpW f k).ethTx = d.ethTx := rfl
@[simp] theorem Dev.freeCtr_bumpW (d : Dev) (f : Fld) (k : Nat) : (d.bumpW f k).freeCtr = d.freeCtr := rfl

@[simp] theorem Dev.ctl_p2 (d : Dev) (f k : Fld) (v : Nat) : (d.p2 f k v).ctl = d.ctl := rfl
@[simp] theorem Dev.pcie_p2 (d : Dev) (f k : Fld) (v : Nat) : (d.p2 f k v).pcie = d.pcie := rfl
@[simp] theorem Dev.time_p2 (d : Dev) (f k : Fld) (v : Nat) : (d.p2 f k v).time = d.time := rfl
@[simp] theorem Dev.evr_p2 (d : Dev) (f k : Fld) (v : Nat) : (d.p2 f k v).evr = d.evr := rfl
@[simp] theorem Dev.seq_p2 (d : Dev) (f k : Fld) (v : Nat) : (d.p2 f k v).seq = d.seq := rfl
@[simp] theorem Dev.ctxWin_p2 (d : Dev) (f k : Fld) (v : Nat) : (d.p2 f k v).ctxWin = d.ctxWin := rfl
@[simp] theorem Dev.ctxCrossed_p2 (d : Dev) (f k : Fld) (v : Nat) : (d.p2 f k v).ctxCrossed = d.ctxCrossed := rfl
@[simp] theorem Dev.ctxLive_p2 (d : Dev) (f k : Fld) (v : Nat) : (d.p2 f k v).ctxLive = d.ctxLive := rfl
@[simp] theorem Dev.seqTab_p2 (d : Dev) (f k : Fld) (v : Nat) : (d.p2 f k v).seqTab = d.seqTab := rfl
@[simp] theorem Dev.slots_p2 (d : Dev) (f k : Fld) (v : Nat) : (d.p2 f k v).slots = d.slots := rfl
@[simp] theorem Dev.heads_p2 (d : Dev) (f k : Fld) (v : Nat) : (d.p2 f k v).heads = d.heads := rfl
@[simp] theorem Dev.lanes_p2 (d : Dev) (f k : Fld) (v : Nat) : (d.p2 f k v).lanes = d.lanes := rfl
@[simp] theorem Dev.hand_p2 (d : Dev) (f k : Fld) (v : Nat) : (d.p2 f k v).hand = d.hand := rfl
@[simp] theorem Dev.pslots_p2 (d : Dev) (f k : Fld) (v : Nat) : (d.p2 f k v).pslots = d.pslots := rfl
@[simp] theorem Dev.tiles_p2 (d : Dev) (f k : Fld) (v : Nat) : (d.p2 f k v).tiles = d.tiles := rfl
@[simp] theorem Dev.grid_p2 (d : Dev) (f k : Fld) (v : Nat) : (d.p2 f k v).grid = d.grid := rfl
@[simp] theorem Dev.gridErr_p2 (d : Dev) (f k : Fld) (v : Nat) : (d.p2 f k v).gridErr = d.gridErr := rfl
@[simp] theorem Dev.fcLog_p2 (d : Dev) (f k : Fld) (v : Nat) : (d.p2 f k v).fcLog = d.fcLog := rfl
@[simp] theorem Dev.traceQ_p2 (d : Dev) (f k : Fld) (v : Nat) : (d.p2 f k v).traceQ = d.traceQ := rfl
@[simp] theorem Dev.ddr_p2 (d : Dev) (f k : Fld) (v : Nat) : (d.p2 f k v).ddr = d.ddr := rfl
@[simp] theorem Dev.scClk_p2 (d : Dev) (f k : Fld) (v : Nat) : (d.p2 f k v).scClk = d.scClk := rfl
@[simp] theorem Dev.cal_p2 (d : Dev) (f k : Fld) (v : Nat) : (d.p2 f k v).cal = d.cal := rfl
@[simp] theorem Dev.hk_p2 (d : Dev) (f k : Fld) (v : Nat) : (d.p2 f k v).hk = d.hk := rfl
@[simp] theorem Dev.cps_p2 (d : Dev) (f k : Fld) (v : Nat) : (d.p2 f k v).cps = d.cps := rfl
@[simp] theorem Dev.ips_p2 (d : Dev) (f k : Fld) (v : Nat) : (d.p2 f k v).ips = d.ips := rfl
@[simp] theorem Dev.axes_p2 (d : Dev) (f k : Fld) (v : Nat) : (d.p2 f k v).axes = d.axes := rfl
@[simp] theorem Dev.bps_p2 (d : Dev) (f k : Fld) (v : Nat) : (d.p2 f k v).bps = d.bps := rfl
@[simp] theorem Dev.aux_p2 (d : Dev) (f k : Fld) (v : Nat) : (d.p2 f k v).aux = d.aux := rfl
@[simp] theorem Dev.link_p2 (d : Dev) (f k : Fld) (v : Nat) : (d.p2 f k v).link = d.link := rfl
@[simp] theorem Dev.dmas_p2 (d : Dev) (f k : Fld) (v : Nat) : (d.p2 f k v).dmas = d.dmas := rfl
@[simp] theorem Dev.eng_p2 (d : Dev) (f k : Fld) (v : Nat) : (d.p2 f k v).eng = d.eng := rfl
@[simp] theorem Dev.units_p2 (d : Dev) (f k : Fld) (v : Nat) : (d.p2 f k v).units = d.units := rfl
@[simp] theorem Dev.sc_p2 (d : Dev) (f k : Fld) (v : Nat) : (d.p2 f k v).sc = d.sc := rfl
@[simp] theorem Dev.mdio_p2 (d : Dev) (f k : Fld) (v : Nat) : (d.p2 f k v).mdio = d.mdio := rfl
@[simp] theorem Dev.ethTx_p2 (d : Dev) (f k : Fld) (v : Nat) : (d.p2 f k v).ethTx = d.ethTx := rfl
@[simp] theorem Dev.freeCtr_p2 (d : Dev) (f k : Fld) (v : Nat) : (d.p2 f k v).freeCtr = d.freeCtr := rfl

/-! ### An event changes registers, messages to the host and the recorder's queue alone -/

theorem Dev.msgDue_only (d : Dev) (v : Nat) : ∃ q, d.msgDue v = { d with pcie := q } := by
  unfold Dev.msgDue
  split
  · exact ⟨_, rfl⟩
  · split
    · exact ⟨_, rfl⟩
    · dsimp only
      split
      · exact ⟨_, rfl⟩
      · exact ⟨_, rfl⟩

theorem Dev.vecSync_only (d : Dev) (v : Nat) (again : Bool) : ∃ r q, d.vecSync v again = { d with regs := r, pcie := q } := by
  unfold Dev.vecSync when
  dsimp only
  split
  · split
    · obtain ⟨q, hq⟩ := Dev.msgDue_only (d.p (pendFld v) (b2n (d.asserted v))) v
      exact ⟨_, q, hq⟩
    · exact ⟨_, _, rfl⟩
  · exact ⟨_, _, rfl⟩

theorem Dev.setEvt_only (d : Dev) (page b : Nat) : ∃ r q, d.setEvt page b = { d with regs := r, pcie := q } := by
  unfold Dev.setEvt when
  dsimp only
  split
  · obtain ⟨r, q, hq⟩ := Dev.vecSync_only (d.flag ⟨page + 0x10, b, b⟩) ((d.flag ⟨page + 0x10, b, b⟩).g (F.hdr_EVT_ROUTE_VECTOR page)) false
    exact ⟨r, q, hq⟩
  · exact ⟨_, _, rfl⟩

theorem Dev.queueRec_only (d : Dev) (x : EvRec) : ∃ r q e, d.queueRec x = { d with regs := r, pcie := q, evr := e } := by
  unfold Dev.queueRec when
  dsimp only
  split
  · split
    · obtain ⟨r, q, h⟩ := Dev.setEvt_only
        (({ d with evr := { d.evr with dropped := 2, dropSec := x.sec, dropNs := x.ns } }).bump F.evr_CNT_LOST 2) 0x5000 2
      exact ⟨r, q, _, h⟩
    · exact ⟨_, _, _, rfl⟩
  · split
    · exact ⟨_, _, _, rfl⟩
    · exact ⟨_, _, _, rfl⟩

/-- Everything an event may change. -/
theorem Dev.raise_only (d : Dev) (page b : Nat) (pl : List Nat) (fo : Bool) :
    ∃ r q e, d.raise page b pl fo = { d with regs := r, pcie := q, evr := e } := by
  have step : ∀ (d : Dev) (page b : Nat) (x : EvRec), ∃ r q e, (d.setEvt page b).queueRec x = { d with regs := r, pcie := q, evr := e } := by
    intro d page b x
    obtain ⟨r, q, h⟩ := Dev.setEvt_only d page b
    obtain ⟨r', q', e, h'⟩ := Dev.queueRec_only (d.setEvt page b) x
    exact ⟨r', q', e, by rw [h', h]⟩
  unfold Dev.raise when
  dsimp only
  obtain ⟨r, q, e, h⟩ := step d page b ⟨b, srcOf page fo, d.time.sec, d.time.ns, pl⟩
  split
  · rw [h]
    obtain ⟨r', q', e', h'⟩ := step { d with regs := r, pcie := q, evr := e } 0x5000 3 ⟨3, srcOf 0x5000 false, d.time.sec, d.time.ns, []⟩
    exact ⟨r', q', e', h'⟩
  · exact ⟨r, q, e, h⟩

@[simp] theorem Dev.ctl_raise (d : Dev) (page b : Nat) (pl : List Nat) (fo : Bool) : (d.raise page b pl fo).ctl = d.ctl := by
  obtain ⟨r, q, e, h⟩ := Dev.raise_only d page b pl fo; rw [h]
@[simp] theorem Dev.time_raise (d : Dev) (page b : Nat) (pl : List Nat) (fo : Bool) : (d.raise page b pl fo).time = d.time := by
  obtain ⟨r, q, e, h⟩ := Dev.raise_only d page b pl fo; rw [h]
@[simp] theorem Dev.seq_raise (d : Dev) (page b : Nat) (pl : List Nat) (fo : Bool) : (d.raise page b pl fo).seq = d.seq := by
  obtain ⟨r, q, e, h⟩ := Dev.raise_only d page b pl fo; rw [h]
@[simp] theorem Dev.ctxWin_raise (d : Dev) (page b : Nat) (pl : List Nat) (fo : Bool) : (d.raise page b pl fo).ctxWin = d.ctxWin := by
  obtain ⟨r, q, e, h⟩ := Dev.raise_only d page b pl fo; rw [h]
@[simp] theorem Dev.ctxCrossed_raise (d : Dev) (page b : Nat) (pl : List Nat) (fo : Bool) : (d.raise page b pl fo).ctxCrossed = d.ctxCrossed := by
  obtain ⟨r, q, e, h⟩ := Dev.raise_only d page b pl fo; rw [h]
@[simp] theorem Dev.ctxLive_raise (d : Dev) (page b : Nat) (pl : List Nat) (fo : Bool) : (d.raise page b pl fo).ctxLive = d.ctxLive := by
  obtain ⟨r, q, e, h⟩ := Dev.raise_only d page b pl fo; rw [h]
@[simp] theorem Dev.seqTab_raise (d : Dev) (page b : Nat) (pl : List Nat) (fo : Bool) : (d.raise page b pl fo).seqTab = d.seqTab := by
  obtain ⟨r, q, e, h⟩ := Dev.raise_only d page b pl fo; rw [h]
@[simp] theorem Dev.slots_raise (d : Dev) (page b : Nat) (pl : List Nat) (fo : Bool) : (d.raise page b pl fo).slots = d.slots := by
  obtain ⟨r, q, e, h⟩ := Dev.raise_only d page b pl fo; rw [h]
@[simp] theorem Dev.heads_raise (d : Dev) (page b : Nat) (pl : List Nat) (fo : Bool) : (d.raise page b pl fo).heads = d.heads := by
  obtain ⟨r, q, e, h⟩ := Dev.raise_only d page b pl fo; rw [h]
@[simp] theorem Dev.lanes_raise (d : Dev) (page b : Nat) (pl : List Nat) (fo : Bool) : (d.raise page b pl fo).lanes = d.lanes := by
  obtain ⟨r, q, e, h⟩ := Dev.raise_only d page b pl fo; rw [h]
@[simp] theorem Dev.hand_raise (d : Dev) (page b : Nat) (pl : List Nat) (fo : Bool) : (d.raise page b pl fo).hand = d.hand := by
  obtain ⟨r, q, e, h⟩ := Dev.raise_only d page b pl fo; rw [h]
@[simp] theorem Dev.pslots_raise (d : Dev) (page b : Nat) (pl : List Nat) (fo : Bool) : (d.raise page b pl fo).pslots = d.pslots := by
  obtain ⟨r, q, e, h⟩ := Dev.raise_only d page b pl fo; rw [h]
@[simp] theorem Dev.tiles_raise (d : Dev) (page b : Nat) (pl : List Nat) (fo : Bool) : (d.raise page b pl fo).tiles = d.tiles := by
  obtain ⟨r, q, e, h⟩ := Dev.raise_only d page b pl fo; rw [h]
@[simp] theorem Dev.grid_raise (d : Dev) (page b : Nat) (pl : List Nat) (fo : Bool) : (d.raise page b pl fo).grid = d.grid := by
  obtain ⟨r, q, e, h⟩ := Dev.raise_only d page b pl fo; rw [h]
@[simp] theorem Dev.gridErr_raise (d : Dev) (page b : Nat) (pl : List Nat) (fo : Bool) : (d.raise page b pl fo).gridErr = d.gridErr := by
  obtain ⟨r, q, e, h⟩ := Dev.raise_only d page b pl fo; rw [h]
@[simp] theorem Dev.fcLog_raise (d : Dev) (page b : Nat) (pl : List Nat) (fo : Bool) : (d.raise page b pl fo).fcLog = d.fcLog := by
  obtain ⟨r, q, e, h⟩ := Dev.raise_only d page b pl fo; rw [h]
@[simp] theorem Dev.traceQ_raise (d : Dev) (page b : Nat) (pl : List Nat) (fo : Bool) : (d.raise page b pl fo).traceQ = d.traceQ := by
  obtain ⟨r, q, e, h⟩ := Dev.raise_only d page b pl fo; rw [h]
@[simp] theorem Dev.ddr_raise (d : Dev) (page b : Nat) (pl : List Nat) (fo : Bool) : (d.raise page b pl fo).ddr = d.ddr := by
  obtain ⟨r, q, e, h⟩ := Dev.raise_only d page b pl fo; rw [h]
@[simp] theorem Dev.scClk_raise (d : Dev) (page b : Nat) (pl : List Nat) (fo : Bool) : (d.raise page b pl fo).scClk = d.scClk := by
  obtain ⟨r, q, e, h⟩ := Dev.raise_only d page b pl fo; rw [h]
@[simp] theorem Dev.cal_raise (d : Dev) (page b : Nat) (pl : List Nat) (fo : Bool) : (d.raise page b pl fo).cal = d.cal := by
  obtain ⟨r, q, e, h⟩ := Dev.raise_only d page b pl fo; rw [h]
@[simp] theorem Dev.hk_raise (d : Dev) (page b : Nat) (pl : List Nat) (fo : Bool) : (d.raise page b pl fo).hk = d.hk := by
  obtain ⟨r, q, e, h⟩ := Dev.raise_only d page b pl fo; rw [h]
@[simp] theorem Dev.cps_raise (d : Dev) (page b : Nat) (pl : List Nat) (fo : Bool) : (d.raise page b pl fo).cps = d.cps := by
  obtain ⟨r, q, e, h⟩ := Dev.raise_only d page b pl fo; rw [h]
@[simp] theorem Dev.ips_raise (d : Dev) (page b : Nat) (pl : List Nat) (fo : Bool) : (d.raise page b pl fo).ips = d.ips := by
  obtain ⟨r, q, e, h⟩ := Dev.raise_only d page b pl fo; rw [h]
@[simp] theorem Dev.axes_raise (d : Dev) (page b : Nat) (pl : List Nat) (fo : Bool) : (d.raise page b pl fo).axes = d.axes := by
  obtain ⟨r, q, e, h⟩ := Dev.raise_only d page b pl fo; rw [h]
@[simp] theorem Dev.bps_raise (d : Dev) (page b : Nat) (pl : List Nat) (fo : Bool) : (d.raise page b pl fo).bps = d.bps := by
  obtain ⟨r, q, e, h⟩ := Dev.raise_only d page b pl fo; rw [h]
@[simp] theorem Dev.aux_raise (d : Dev) (page b : Nat) (pl : List Nat) (fo : Bool) : (d.raise page b pl fo).aux = d.aux := by
  obtain ⟨r, q, e, h⟩ := Dev.raise_only d page b pl fo; rw [h]
@[simp] theorem Dev.link_raise (d : Dev) (page b : Nat) (pl : List Nat) (fo : Bool) : (d.raise page b pl fo).link = d.link := by
  obtain ⟨r, q, e, h⟩ := Dev.raise_only d page b pl fo; rw [h]
@[simp] theorem Dev.dmas_raise (d : Dev) (page b : Nat) (pl : List Nat) (fo : Bool) : (d.raise page b pl fo).dmas = d.dmas := by
  obtain ⟨r, q, e, h⟩ := Dev.raise_only d page b pl fo; rw [h]
@[simp] theorem Dev.eng_raise (d : Dev) (page b : Nat) (pl : List Nat) (fo : Bool) : (d.raise page b pl fo).eng = d.eng := by
  obtain ⟨r, q, e, h⟩ := Dev.raise_only d page b pl fo; rw [h]
@[simp] theorem Dev.units_raise (d : Dev) (page b : Nat) (pl : List Nat) (fo : Bool) : (d.raise page b pl fo).units = d.units := by
  obtain ⟨r, q, e, h⟩ := Dev.raise_only d page b pl fo; rw [h]
@[simp] theorem Dev.sc_raise (d : Dev) (page b : Nat) (pl : List Nat) (fo : Bool) : (d.raise page b pl fo).sc = d.sc := by
  obtain ⟨r, q, e, h⟩ := Dev.raise_only d page b pl fo; rw [h]
@[simp] theorem Dev.mdio_raise (d : Dev) (page b : Nat) (pl : List Nat) (fo : Bool) : (d.raise page b pl fo).mdio = d.mdio := by
  obtain ⟨r, q, e, h⟩ := Dev.raise_only d page b pl fo; rw [h]
@[simp] theorem Dev.ethTx_raise (d : Dev) (page b : Nat) (pl : List Nat) (fo : Bool) : (d.raise page b pl fo).ethTx = d.ethTx := by
  obtain ⟨r, q, e, h⟩ := Dev.raise_only d page b pl fo; rw [h]
@[simp] theorem Dev.freeCtr_raise (d : Dev) (page b : Nat) (pl : List Nat) (fo : Bool) : (d.raise page b pl fo).freeCtr = d.freeCtr := by
  obtain ⟨r, q, e, h⟩ := Dev.raise_only d page b pl fo; rw [h]

/-! ### Hidden state of one instance: the register file stays -/

@[simp] theorem Dev.reg_hdUpd (d : Dev) (n : Nat) (u : Head → Head) (a : Nat) : (d.hdUpd n u).reg a = d.reg a := rfl
@[simp] theorem Dev.g_hdUpd (d : Dev) (n : Nat) (u : Head → Head) (f : Fld) : (d.hdUpd n u).g f = d.g f := rfl
@[simp] theorem Dev.reg_laneUpd (d : Dev) (n : Nat) (u : Lane → Lane) (a : Nat) : (d.laneUpd n u).reg a = d.reg a := rfl
@[simp] theorem Dev.g_laneUpd (d : Dev) (n : Nat) (u : Lane → Lane) (f : Fld) : (d.laneUpd n u).g f = d.g f := rfl
@[simp] theorem Dev.reg_slotUpd (d : Dev) (n : Nat) (u : Slot → Slot) (a : Nat) : (d.slotUpd n u).reg a = d.reg a := rfl
@[simp] theorem Dev.g_slotUpd (d : Dev) (n : Nat) (u : Slot → Slot) (f : Fld) : (d.slotUpd n u).g f = d.g f := rfl
@[simp] theorem Dev.reg_axUpd (d : Dev) (n : Nat) (u : Axis → Axis) (a : Nat) : (d.axUpd n u).reg a = d.reg a := rfl
@[simp] theorem Dev.g_axUpd (d : Dev) (n : Nat) (u : Axis → Axis) (f : Fld) : (d.axUpd n u).g f = d.g f := rfl
@[simp] theorem Dev.reg_bpUpd (d : Dev) (n : Nat) (u : BpSt → BpSt) (a : Nat) : (d.bpUpd n u).reg a = d.reg a := rfl
@[simp] theorem Dev.g_bpUpd (d : Dev) (n : Nat) (u : BpSt → BpSt) (f : Fld) : (d.bpUpd n u).g f = d.g f := rfl
@[simp] theorem Dev.reg_cpUpd (d : Dev) (n : Nat) (u : CpSt → CpSt) (a : Nat) : (d.cpUpd n u).reg a = d.reg a := rfl
@[simp] theorem Dev.g_cpUpd (d : Dev) (n : Nat) (u : CpSt → CpSt) (f : Fld) : (d.cpUpd n u).g f = d.g f := rfl
@[simp] theorem Dev.reg_ipUpd (d : Dev) (n : Nat) (u : IpSt → IpSt) (a : Nat) : (d.ipUpd n u).reg a = d.reg a := rfl
@[simp] theorem Dev.g_ipUpd (d : Dev) (n : Nat) (u : IpSt → IpSt) (f : Fld) : (d.ipUpd n u).g f = d.g f := rfl

@[simp] theorem Dev.hd_hdUpd (d : Dev) (n : Nat) (u : Head → Head) : (d.hdUpd n u).hd n = u (d.hd n) := Tab.at_upd_same _ _ _ _
@[simp] theorem Dev.lane_laneUpd (d : Dev) (n : Nat) (u : Lane → Lane) : (d.laneUpd n u).lane n = u (d.lane n) := Tab.at_upd_same _ _ _ _
@[simp] theorem Dev.slot_slotUpd (d : Dev) (n : Nat) (u : Slot → Slot) : (d.slotUpd n u).slot n = u (d.slot n) := Tab.at_upd_same _ _ _ _
@[simp] theorem Dev.ax_axUpd (d : Dev) (n : Nat) (u : Axis → Axis) : (d.axUpd n u).ax n = u (d.ax n) := Tab.at_upd_same _ _ _ _
@[simp] theorem Dev.bpSt_bpUpd (d : Dev) (n : Nat) (u : BpSt → BpSt) : (d.bpUpd n u).bpSt n = u (d.bpSt n) := Tab.at_upd_same _ _ _ _
@[simp] theorem Dev.cp_cpUpd (d : Dev) (n : Nat) (u : CpSt → CpSt) : (d.cpUpd n u).cp n = u (d.cp n) := Tab.at_upd_same _ _ _ _
@[simp] theorem Dev.ip_ipUpd (d : Dev) (n : Nat) (u : IpSt → IpSt) : (d.ipUpd n u).ip n = u (d.ip n) := Tab.at_upd_same _ _ _ _

theorem Dev.hd_hdUpd_ne (d : Dev) {n k : Nat} (u : Head → Head) (h : n ≠ k) : (d.hdUpd n u).hd k = d.hd k := Tab.at_upd_ne _ _ _ h
theorem Dev.lane_laneUpd_ne (d : Dev) {n k : Nat} (u : Lane → Lane) (h : n ≠ k) : (d.laneUpd n u).lane k = d.lane k := Tab.at_upd_ne _ _ _ h
theorem Dev.slot_slotUpd_ne (d : Dev) {n k : Nat} (u : Slot → Slot) (h : n ≠ k) : (d.slotUpd n u).slot k = d.slot k := Tab.at_upd_ne _ _ _ h
theorem Dev.ax_axUpd_ne (d : Dev) {n k : Nat} (u : Axis → Axis) (h : n ≠ k) : (d.axUpd n u).ax k = d.ax k := Tab.at_upd_ne _ _ _ h

/-! ### Meanings lifted to the whole state -/

theorem onDev_eq (f : Dev → Dev) (s : State) : onDev f s = .next { s with dev := f s.dev } := rfl
theorem onDevMem_eq (f : List Host.Cell → Dev → Dev) (s : State) : onDevMem f s = .next { s with dev := f s.mem s.dev } := rfl
theorem onDevIso_eq (f : Dev × Iso → Dev × Iso) (s : State) :
    onDevIso f s = .next { s with dev := (f (s.dev, s.iso)).1, iso := (f (s.dev, s.iso)).2 } := rfl
theorem onMem_eq (f : Dev × List Host.Cell → Dev × List Host.Cell) (s : State) :
    onMem f s = .next { s with dev := (f (s.dev, s.mem)).1, mem := (f (s.dev, s.mem)).2 } := rfl

/-- A host's write that reaches its target. -/
theorem hosted_through {a : Nat} {s : State} (k : State → Host.Outcome State Fault Refusal) (h : s.dev.isSt .por = false)
    (ha : s.dev.turnedAway a = false) : hosted a k s = k s := by simp [hosted, h, ha]

end Sys2Proof.Machine
end

