-- ==== Sys2Proof/Laws/Memory.lean ====
section
/-!
SUPPORT. Laws of DRAM: every memory operation keeps the canonical form, a write changes the bytes it names alone, and what the controller's reads
may change of the logic die.
-/
namespace Sys2Proof.Machine

/-! ### Bytes -/

theorem memByte_memPut_same (m : List Host.Cell) (a : Nat) (b : Byte) : memByte (memPut m a b) a = b := Tab.at_set_same 0 m a b

theorem memByte_memPut_ne (m : List Host.Cell) {a c : Nat} (b : Byte) (h : a ≠ c) : memByte (memPut m a b) c = memByte m c :=
  Tab.at_set_ne 0 m b h

theorem memPut_wf {m : List Host.Cell} (a : Nat) (b : Byte) (h : Memory.wf m = true) : Memory.wf (memPut m a b) = true := Tab.wf_set 0 a b h

theorem memPuts_wf : ∀ (bs : List Byte) {m : List Host.Cell} (a : Nat), Memory.wf m = true → Memory.wf (memPuts m a bs) = true
  | [], _, _, h => h
  | b :: bs, _, a, h => memPuts_wf bs (a + 1) (memPut_wf a b h)

/-- Bytes outside the ones written stay. -/
theorem memByte_memPuts_out : ∀ (bs : List Byte) (m : List Host.Cell) (a c : Nat), (c < a ∨ a + bs.length ≤ c) →
    memByte (memPuts m a bs) c = memByte m c
  | [], _, _, _, _ => rfl
  | b :: bs, m, a, c, h => by
    simp only [List.length_cons] at h
    rw [memPuts, memByte_memPuts_out bs _ (a + 1) c (by omega), memByte_memPut_ne _ _ (by omega)]

/-- The bytes written are read back. -/
theorem memByte_memPuts_in : ∀ (bs : List Byte) (m : List Host.Cell) (a i : Nat) (h : i < bs.length),
    memByte (memPuts m a bs) (a + i) = bs[i]
  | [], _, _, _, h => absurd h (by simp)
  | b :: bs, m, a, 0, _ => by
    rw [memPuts, memByte_memPuts_out bs _ (a + 1) (a + 0) (by omega)]
    simp [memByte_memPut_same]
  | b :: bs, m, a, i + 1, h => by
    rw [memPuts, show a + (i + 1) = (a + 1) + i by omega]
    simpa using memByte_memPuts_in bs (memPut m a b) (a + 1) i (by simpa using h)

theorem memPutLE_wf {m : List Host.Cell} (a n v : Nat) (h : Memory.wf m = true) : Memory.wf (memPutLE m a n v) = true := memPuts_wf _ a h

/-- A write that reaches DRAM keeps the canonical form. -/
theorem dramPut_wf (cls a : Nat) (bs : List Byte) (r : Dev × List Host.Cell) (h : Memory.wf r.2 = true) : Memory.wf (dramPut cls a bs r).2 = true :=
  memPuts_wf _ a h

theorem serveFrag_wf (x : Frag) (r : Dev × List Host.Cell) (h : Memory.wf r.2 = true) : Memory.wf (serveFrag x r).2 = true := by
  unfold serveFrag
  split
  · exact h
  · exact dramPut_wf _ _ _ _ h

/-- A fold over a pair keeps the canonical form where each step does. -/
theorem foldl_wf {α : Type} {f : Dev × List Host.Cell → α → Dev × List Host.Cell}
    (hf : ∀ r x, Memory.wf r.2 = true → Memory.wf (f r x).2 = true) : ∀ (l : List α) (r : Dev × List Host.Cell), Memory.wf r.2 = true →
    Memory.wf (l.foldl f r).2 = true
  | [], _, h => h
  | x :: l, r, h => foldl_wf hf l (f r x) (hf r x h)

theorem settle_wf (k : Nat) (r : Dev × List Host.Cell) (h : Memory.wf r.2 = true) : Memory.wf (settle k r).2 = true := by
  unfold settle
  dsimp only
  split
  · exact h
  · exact foldl_wf (fun r x => serveFrag_wf x r) _ _ h

/-- What comes before a read keeps the canonical form. -/
theorem dramTurn_wf (a n : Nat) (r : Dev × List Host.Cell) (h : Memory.wf r.2 = true) : Memory.wf (dramTurn a n r).2 = true := by
  unfold dramTurn
  split
  · exact h
  · refine foldl_wf (fun r k h => ?_) _ _ h
    apply settle_wf
    exact h

/-- A write through the controller keeps the canonical form. -/
theorem dramWrite_wf (cls a : Nat) (bs : List Byte) (r : Dev × List Host.Cell) (h : Memory.wf r.2 = true) :
    Memory.wf (dramWrite cls a bs r).2 = true := by
  unfold dramWrite
  dsimp only
  split
  · exact dramPut_wf _ _ _ _ h
  · refine foldl_wf (fun r x h => ?_) _ _ h
    split
    · exact h
    · exact serveFrag_wf _ _ (settle_wf _ _ h)

/-- Where nothing waits in the controller, a read finds memory as it stands. -/
theorem dramTurn_quiet {a n : Nat} {r : Dev × List Host.Cell} (h : r.1.quiet = true) : dramTurn a n r = r := by simp [dramTurn, h]

/-- Where nothing waits in the controller, a write puts its bytes below the capacity into memory. -/
theorem dramWrite_quiet {cls a : Nat} {bs : List Byte} {r : Dev × List Host.Cell} (h : r.1.quiet = true) :
    (dramWrite cls a bs r).2 = memPuts r.2 a (bs.take (r.1.capacity - a)) := by simp [dramWrite, dramPut, h]

/-- A write through the controller leaves every byte outside the ones named, where nothing waits in it. -/
theorem memByte_dramWrite_out (cls a : Nat) (bs : List Byte) (r : Dev × List Host.Cell) (hq : r.1.quiet = true) {c : Nat}
    (h : c < a ∨ a + bs.length ≤ c) : memByte (dramWrite cls a bs r).2 c = memByte r.2 c := by
  rw [dramWrite_quiet hq]
  apply memByte_memPuts_out
  rcases h with h | h
  · exact .inl h
  · right
    have := List.length_take_le' (r.1.capacity - a) bs
    omega

/-- A byte below the capacity reads as written. -/
theorem memByte_dramWrite_in (cls a : Nat) (bs : List Byte) (r : Dev × List Host.Cell) (hq : r.1.quiet = true) {i : Nat} (h : i < bs.length)
    (hc : a + i < r.1.capacity) : memByte (dramWrite cls a bs r).2 (a + i) = bs[i] := by
  have hi : i < (bs.take (r.1.capacity - a)).length := by simp; omega
  have := memByte_memPuts_in (bs.take (r.1.capacity - a)) r.2 a i hi
  rw [dramWrite_quiet hq, this]
  simp

/-! ### What reads and writes of the controller change of the logic die -/

theorem Dev.onlyDdr.rfl {d : Dev} : d.onlyDdr d := ⟨Eq.refl d, fun _ _ _ => Eq.refl _⟩

theorem Dev.onlyDdr.trans {d e f : Dev} (h : d.onlyDdr e) (k : e.onlyDdr f) : d.onlyDdr f := by
  obtain ⟨h1, h2⟩ := h
  obtain ⟨k1, k2⟩ := k
  refine ⟨?_, fun a ha hb => (k2 a ha hb).trans (h2 a ha hb)⟩
  rw [k1, h1]

theorem Dev.onlyDdr.p {d : Dev} {f : Fld} (v : Nat) (h : 0xD004C ≤ f.addr ∧ f.addr < 0xD1000) : d.onlyDdr (d.p f v) :=
  ⟨Eq.refl _, fun a ha _ => Dev.reg_p_ne d v (by omega)⟩

theorem Dev.onlyDdr.p2 {d : Dev} {f k : Fld} (v : Nat) (h : 0xD004C ≤ f.addr ∧ f.addr < 0xD1000) (h' : 0xD004C ≤ k.addr ∧ k.addr < 0xD1000) :
    d.onlyDdr (d.p2 f k v) := (Dev.onlyDdr.p _ h).trans (Dev.onlyDdr.p _ h')

theorem Dev.onlyDdr.bump {d : Dev} {f : Fld} (k : Nat) (h : 0xD004C ≤ f.addr ∧ f.addr < 0xD1000) : d.onlyDdr (d.bump f k) := Dev.onlyDdr.p _ h

theorem Dev.onlyDdr.raise {d : Dev} (b : Nat) (pl : List Nat) (fo : Bool) : d.onlyDdr (d.raise ddrPage b pl fo) := by
  refine ⟨?_, fun a _ hb => Dev.reg_raise d _ _ _ _ hb⟩
  obtain ⟨r, q, e, h⟩ := Dev.raise_only d ddrPage b pl fo
  rw [h]

theorem Dev.onlyDdr.ddr {d : Dev} (x : DdrSt) : d.onlyDdr { d with ddr := x } := ⟨Eq.refl _, fun _ _ _ => Eq.refl _⟩

theorem Dev.onlyDdr.draw {d : Dev} : d.onlyDdr d.draw.2 := ⟨Eq.refl _, fun _ _ _ => Eq.refl _⟩

theorem Dev.onlyDdr.foldl {α : Type} {f : Dev → α → Dev} (hf : ∀ d x, Dev.onlyDdr d (f d x)) : ∀ (l : List α) (d : Dev), d.onlyDdr (l.foldl f d)
  | [], _ => Dev.onlyDdr.rfl
  | x :: l, d => (hf d x).trans (Dev.onlyDdr.foldl hf l (f d x))

theorem Dev.onlyDdr.when {d : Dev} {c : Bool} {f : Dev → Dev} (hf : ∀ d, Dev.onlyDdr d (f d)) : d.onlyDdr (Sys2Proof.when c f d) := by
  unfold Sys2Proof.when
  split
  · exact hf d
  · exact .rfl

theorem Dev.pprStat_onlyDdr (d : Dev) : d.onlyDdr d.pprStat := by
  unfold Dev.pprStat
  exact ((Dev.onlyDdr.p _ (by decide)).trans (.p _ (by decide))).trans (.p _ (by decide))

theorem F_pprLog_in (i : Nat) (h : i < 8) :
    (0xD004C ≤ (F.ddr_PPR_LOGi_STATE i).addr ∧ (F.ddr_PPR_LOGi_STATE i).addr < 0xD1000)
      ∧ (0xD004C ≤ (F.ddr_PPR_LOGi_ADDR_LO i).addr ∧ (F.ddr_PPR_LOGi_ADDR_LO i).addr < 0xD1000)
      ∧ (0xD004C ≤ (F.ddr_PPR_LOGi_ADDR_HI i).addr ∧ (F.ddr_PPR_LOGi_ADDR_HI i).addr < 0xD1000)
      ∧ (0xD004C ≤ (F.ddr_PPR_LOGi_DEV i).addr ∧ (F.ddr_PPR_LOGi_DEV i).addr < 0xD1000)
      ∧ (0xD004C ≤ (F.ddr_PPR_LOGi_CE i).addr ∧ (F.ddr_PPR_LOGi_CE i).addr < 0xD1000) := by
  refine ⟨⟨?_, ?_⟩, ⟨?_, ?_⟩, ⟨?_, ?_⟩, ⟨?_, ?_⟩, ⟨?_, ?_⟩⟩ <;> dsimp only <;> omega

theorem Dev.candidate_onlyDdr (d : Dev) (k dv : Nat) : d.onlyDdr (d.candidate k dv) := by
  unfold Dev.candidate
  dsimp only
  split
  · exact .rfl
  · split
    · exact .raise _ _ _
    · rename_i i hi
      have hi8 : i < 8 := by
        have := List.mem_of_find?_eq_some hi
        simpa using this
      obtain ⟨h1, h2, h3, h4, h5⟩ := F_pprLog_in i hi8
      unfold Dev.pipe
      refine Dev.onlyDdr.trans ?_ (.when fun d => .raise _ _ _)
      refine Dev.onlyDdr.trans ?_ (.raise _ _ _)
      refine Dev.onlyDdr.trans ?_ (Dev.pprStat_onlyDdr _)
      refine Dev.onlyDdr.trans ?_ (.ddr _)
      exact ((((Dev.onlyDdr.p2 _ h2 h3).trans (.p _ h1)).trans (.p _ h4)).trans (.p _ h5))

theorem Dev.lastUe_onlyDdr (d : Dev) (k cls : Nat) : d.onlyDdr (d.lastUe k cls) := by
  unfold Dev.lastUe
  exact ((Dev.onlyDdr.p2 _ (by decide) (by decide)).trans (.p _ (by decide))).trans (.p _ (by decide))

theorem devCe_in {i : Nat} (h : i < 20) : 0xD004C ≤ (devCe i).addr ∧ (devCe i).addr < 0xD1000 := by
  unfold devCe
  split <;> dsimp only <;> omega

theorem Dev.corrected_onlyDdr (d : Dev) (k : Nat) : d.onlyDdr (d.corrected k) := by
  unfold Dev.corrected
  dsimp only
  refine Dev.onlyDdr.trans ?_ (.foldl (fun d v => .when fun d => Dev.candidate_onlyDdr d k v) _ _)
  refine Dev.onlyDdr.trans ?_ (.ddr _)
  refine Dev.onlyDdr.trans ?_ (.raise _ _ _)
  have hsc : burstSc k ≤ 1 := by unfold burstSc; omega
  have hfold : ∀ (l : List Nat) (d : Dev), (∀ v ∈ l, v < 10) → d.onlyDdr (l.foldl (fun d v => d.bump (devCe (10 * burstSc k + v))) d) := by
    intro l
    induction l with
    | nil => intro d _; exact .rfl
    | cons v l ih =>
      intro d h
      have hv := h v (by simp)
      exact (Dev.onlyDdr.bump _ (devCe_in (by omega))).trans (ih _ fun w hw => h w (by simp [hw]))
  refine (Dev.onlyDdr.bump _ (by decide)).trans (hfold _ _ ?_)
  intro v hv
  rw [List.mem_eraseDups] at hv
  obtain ⟨x, _, rfl⟩ := List.mem_map.mp hv
  omega

/-- What a read of one burst may change. -/
theorem Dev.readBurst_onlyDdr (d : Dev) (cls k : Nat) : d.onlyDdr (d.readBurst cls k).2 := by
  unfold Dev.readBurst
  split
  · exact .rfl
  · exact Dev.corrected_onlyDdr d k
  · exact (((Dev.onlyDdr.bump _ (by decide)).trans (Dev.lastUe_onlyDdr _ _ _)).trans (.raise _ _ _)).trans (.raise _ _ _)
  · refine Dev.onlyDdr.trans ?_ (Dev.candidate_onlyDdr _ _ _)
    refine Dev.onlyDdr.trans ?_ .draw
    exact ((Dev.onlyDdr.bump _ (by decide)).trans (Dev.lastUe_onlyDdr _ _ _)).trans (.raise _ _ _)

theorem Dev.rfmBank_onlyDdr (d : Dev) (b : Nat) : d.onlyDdr (d.rfmBank b) := by
  unfold Dev.rfmBank
  exact ((Dev.onlyDdr.ddr _).trans (.bump _ (by decide))).trans (.raise _ _ _)

theorem Dev.countActs_onlyDdr (d : Dev) (b n : Nat) : d.onlyDdr (d.countActs b n) := by
  unfold Dev.countActs
  exact (Dev.onlyDdr.when fun d => Dev.rfmBank_onlyDdr d b).trans (.ddr _)

theorem Dev.activate_onlyDdr (d : Dev) (k : Nat) : d.onlyDdr (d.activate k) := by
  unfold Dev.activate
  dsimp only
  have h := (Dev.countActs_onlyDdr d (burstBank k) 1).trans
    (.ddr { (d.countActs (burstBank k) 1).ddr with rows := Tab.set 0 (d.countActs (burstBank k) 1).ddr.rows (burstBank k) (burstRow k + 1) })
  split
  · exact h
  · exact (h.trans .draw).trans (.when fun d => (Dev.countActs_onlyDdr d _ _).trans (.bump _ (by decide)))

/-- What the start of a fragment may change. -/
theorem Dev.touch_onlyDdr (d : Dev) (k : Nat) : d.onlyDdr (d.touch k) := by
  unfold Dev.touch
  split
  · exact .rfl
  · dsimp only
    have h1 := Dev.onlyDdr.ddr (d := d) { d.ddr with powerDown := d.ddr.powerDown.filter (· != burstSc k), lastFrag := Tab.set 0 d.ddr.lastFrag (burstSc k) d.now }
    have h : ∀ d : Dev, d.onlyDdr (Sys2Proof.when (d.rfmDue (burstSc k)) (fun d => ((List.range 32).map (· + 32 * burstSc k)).foldl (fun d b =>
        Sys2Proof.when (decide (d.ddr.raaimt ≤ Tab.at 0 d.ddr.raa b ∧ Tab.at 0 d.ddr.raa b ≠ 0)) (fun d => d.rfmBank b) d) d) d) :=
      fun d => .when fun d => .foldl (fun d b => .when fun d => Dev.rfmBank_onlyDdr d b) _ _
    split
    · exact h1.trans (h _)
    · exact (h1.trans (h _)).trans (Dev.activate_onlyDdr _ k)

/-- What a read of a range may change. -/
theorem Dev.dramRead_onlyDdr (d : Dev) (cls a n : Nat) : d.onlyDdr (d.dramRead cls a n).2 := by
  unfold Dev.dramRead
  have h : ∀ (l : List Nat) (r : Bool × Dev), r.2.onlyDdr (l.foldl (fun (r : Bool × Dev) k =>
      let (x, d) := (r.2.touch k).readBurst cls k; (r.1 || decide (2 ≤ x), d)) r).2 := by
    intro l
    induction l with
    | nil => intro r; exact .rfl
    | cons k l ih => intro r; exact ((Dev.touch_onlyDdr r.2 k).trans (Dev.readBurst_onlyDdr _ cls k)).trans (ih _)
  exact h _ (false, d)

theorem Dev.writeBurst_onlyDdr (d : Dev) (cls k : Nat) (whole : Bool) : d.onlyDdr (d.writeBurst cls k whole) := by
  unfold Dev.writeBurst
  split
  · exact .ddr _
  · dsimp only
    split
    · exact (Dev.readBurst_onlyDdr d cls k).trans (.ddr _)
    · exact Dev.readBurst_onlyDdr d cls k

theorem dramPut_onlyDdr (cls a : Nat) (bs : List Byte) (r : Dev × List Host.Cell) : r.1.onlyDdr (dramPut cls a bs r).1 :=
  .foldl (fun d k => Dev.writeBurst_onlyDdr d cls k _) _ _

theorem Dev.refresh_onlyDdr (d : Dev) (sc : Nat) : d.onlyDdr (d.refresh sc) := .ddr _

theorem Dev.readDelivered_onlyDdr (d : Dev) (cls k : Nat) (syms : List (Fin 80)) : d.onlyDdr (d.readDelivered cls k syms).2 := by
  unfold Dev.readDelivered
  dsimp only
  split
  · exact ((Dev.onlyDdr.ddr _).trans (Dev.readBurst_onlyDdr _ cls k)).trans (.ddr _)
  · exact (Dev.onlyDdr.ddr _).trans (Dev.readBurst_onlyDdr _ cls k)

theorem Dev.deliver_onlyDdr (d : Dev) (m : List Host.Cell) (cls k : Nat) (syms : List (Fin 80)) : d.onlyDdr (d.deliver m cls k syms) := by
  unfold Dev.deliver
  exact (Dev.readDelivered_onlyDdr d cls k syms).trans (.ddr _)

theorem serveFrag_onlyDdr (x : Frag) (r : Dev × List Host.Cell) : r.1.onlyDdr (serveFrag x r).1 := by
  unfold serveFrag
  split
  · exact Dev.deliver_onlyDdr _ _ _ _ _
  · exact dramPut_onlyDdr _ _ _ _

theorem Dev.schedule_onlyDdr (d : Dev) (sc : Nat) : d.onlyDdr (d.schedule sc) := by
  unfold Dev.schedule
  split
  · exact .rfl
  · dsimp only
    split
    · split
      · exact (Dev.onlyDdr.ddr _).trans (Dev.refresh_onlyDdr _ sc)
      · split
        · exact (Dev.onlyDdr.ddr _).trans (Dev.refresh_onlyDdr _ sc)
        · split
          · exact ((Dev.onlyDdr.ddr _).trans (Dev.refresh_onlyDdr _ sc)).trans (.ddr _)
          · exact (((Dev.onlyDdr.ddr _).trans (Dev.refresh_onlyDdr _ sc)).trans (.ddr _)).trans (Dev.activate_onlyDdr _ _)
    · split
      · exact .rfl
      · split
        · exact .rfl
        · split
          · exact .ddr _
          · exact (Dev.onlyDdr.ddr _).trans (Dev.activate_onlyDdr _ _)

/-- A fold over a pair changes no more than each step does. -/
theorem foldl_onlyDdr {α : Type} {f : Dev × List Host.Cell → α → Dev × List Host.Cell} (hf : ∀ r x, Dev.onlyDdr r.1 (f r x).1) :
    ∀ (l : List α) (r : Dev × List Host.Cell), r.1.onlyDdr (l.foldl f r).1
  | [], _ => .rfl
  | x :: l, r => (hf r x).trans (foldl_onlyDdr hf l (f r x))

theorem settle_onlyDdr (k : Nat) (r : Dev × List Host.Cell) : r.1.onlyDdr (settle k r).1 := by
  unfold settle
  dsimp only
  split
  · exact .rfl
  · refine Dev.onlyDdr.trans ?_ (Dev.schedule_onlyDdr _ _)
    exact Dev.onlyDdr.trans (Dev.onlyDdr.ddr _) (foldl_onlyDdr (fun r x => serveFrag_onlyDdr x r) _ (_, r.2))

/-- What a write may change of the logic die. -/
theorem dramWrite_onlyDdr (cls a : Nat) (bs : List Byte) (r : Dev × List Host.Cell) : r.1.onlyDdr (dramWrite cls a bs r).1 := by
  unfold dramWrite
  dsimp only
  split
  · exact Dev.onlyDdr.trans (.foldl (fun d k => Dev.touch_onlyDdr d k) _ _) (dramPut_onlyDdr _ _ _ _)
  · refine foldl_onlyDdr (fun r x => ?_) _ _
    split
    · exact .ddr _
    · exact ((settle_onlyDdr _ r).trans (Dev.touch_onlyDdr _ _)).trans (serveFrag_onlyDdr _ _)

end Sys2Proof.Machine
end

