-- ==== Sys2Proof/WellFormed.lean ====
section
/-!
DEFINITION. Which commands are well formed: what the types of the operands do not already say. The meanings are total; an ill-formed command is one
that no sender of the spec can send.
-/
namespace Sys2Proof

/-- A command that the outside world can send: addresses are aligned to their words (00 R13, 19 R505, R511), lists have the lengths of the transfers
they stand for (02 R45, R47; 09 R292, R296; 10 R316; 11 R341; 12 R365, R378), and a link reports lanes and a speed that PCI Express has (02 R49). -/
def Instr.wf (i : Instr) : Bool :=
  match i with
  | .powerOnReset => true
  | .brownOut => true
  | .pllLock => true
  | .romSelfTestDone _ _ => true
  | .ddrTrainingDone _ _ _ _ res => decide (res.length = 160)
  | .dramZeroDone => true
  | .pprHardenDone => true
  | .devReset _ => true
  | .controlledStop => true
  | .controlledStopEnd => true
  | .pcieLinkDown => true
  | .pcieLinkUp width speed => [1, 2, 4, 8].contains width.val && decide (speed.val ≠ 0)
  | .msixEnable _ => true
  | .msixUnmask _ => true
  | .d3hotEntry => true
  | .d0Return => true
  | .badAccess addr _ len => decide (0 < len ∧ addr.toNat + len ≤ 2 ^ 26)
  | .bar2Write ofs data => decide (0 < data.length ∧ ofs.toNat + data.length ≤ 2 ^ 36)
  | .bar2Read ofs len => decide (0 < len ∧ ofs.toNat + len ≤ 2 ^ 36)
  | .registerWrite addr val => decide (addr.toNat % 4 = 0 ∧ addr.toNat + val.bytes ≤ 2 ^ 26)
  | .errClr page _ => decide (page.toNat % 0x1000 = 0)
  | .softReset page _ => decide (page.toNat % 0x1000 = 0)
  | .pageLock page _ => decide (page.toNat % 0x1000 = 0)
  | .pageEnable page _ => decide (page.toNat % 0x1000 = 0)
  | .evtForce page _ => decide (page.toNat % 0x1000 = 0)
  | .evtRawClear page _ => decide (page.toNat % 0x1000 = 0)
  | .evtEnWrite page _ => decide (page.toNat % 0x1000 = 0)
  | .shadowPointWrite page _ => decide (page.toNat % 0x1000 = 0)
  | .shadowRelease _ => true
  | .holdoffExpire _ => true
  | .imgGo _ => true
  | .imageVerifyDone => true
  | .calLoadDone => true
  | .enroll _ => true
  | .revoke _ => true
  | .enrollDone => true
  | .arm _ => true
  | .start _ => true
  | .stop _ => true
  | .abort _ => true
  | .disarm _ => true
  | .sysCmdEffect => true
  | .hostKick _ => true
  | .hostWdogWrite _ => true
  | .wdog => true
  | .faultLatchEntry => true
  | .mpLockstep => true
  | .isoLost => true
  | .frameBoundary _ _ => true
  | .openLayer => true
  | .layerBoundary => true
  | .nop => true
  | .layerOpen => true
  | .expose => true
  | .layerClose => true
  | .auxStart => true
  | .auxWait => true
  | .delay => true
  | .delayDone => true
  | .outSet => true
  | .inWait => true
  | .waitEntryDone => true
  | .event => true
  | .jump => true
  | .brMore => true
  | .brResumed => true
  | .endEntry => true
  | .stall => true
  | .continueEntry _ => true
  | .contextWindowWrite ofs _ => decide (ofs.toNat % 4 = 0)
  | .seqTableWrite ofs _ => decide (ofs.toNat % 4 = 0)
  | .ctxCommit _ => true
  | .tblCheck _ => true
  | .lqReset _ => true
  | .streamRetry _ _ => true
  | .recordFetchDone _ => true
  | .streamResume _ => true
  | .satLimitReached _ => true
  | .coastExpire _ => true
  | .recovered _ => true
  | .feFault _ => true
  | .parkReq _ _ => true
  | .parked _ => true
  | .parkTimeout _ => true
  | .servoRestart _ _ => true
  | .servoHoldQualified _ => true
  | .fcGridWrite ofs _ => decide (ofs.toNat % 4 = 0 ∧ ofs.toNat < 0x300000)
  | .fcAccept _ _ => true
  | .traceArm _ _ => true
  | .traceForce _ _ => true
  | .traceDone _ => true
  | .traceGap _ => true
  | .dropFail _ => true
  | .casKeyWrite _ _ => true
  | .casReread _ _ => true
  | .casStepReached _ => true
  | .casWriteFail _ => true
  | .casExhausted _ => true
  | .holdLong _ => true
  | .tileMapWrite ofs _ => decide (ofs.toNat % 4 = 0)
  | .tileEditCmd _ => true
  | .headFail _ => true
  | .failReq _ => true
  | .rejoin _ _ => true
  | .storeResume => true
  | .pin _ => true
  | .ffStale _ => true
  | .frameStart _ => true
  | .cameraLine _ _ => true
  | .frameEnd _ => true
  | .frameTimeout _ => true
  | .pclkLost _ => true
  | .vmFrameTake _ => true
  | .ringSlotClaim _ => true
  | .featureRecordComplete _ => true
  | .pipelineFail _ _ => true
  | .dpcLoaded _ _ => true
  | .cntClear addr _ => decide (addr.toNat % 4 = 0)
  | .usFrameRx _ _ groups _ => decide (groups.length ≤ 624)
  | .usFrameMissing _ => true
  | .ackRx _ slot => decide (slot.length = 70)
  | .capDataRx _ slot => decide (slot.length = 70)
  | .casRecordRx _ slot => decide (slot.length = 70)
  | .casChangeRx _ slot => decide (slot.length = 70)
  | .hostMsgRx _ slot => decide (slot.length = 70)
  | .unknownMsgRx _ slot => decide (slot.length = 70)
  | .mgmtRetry _ => true
  | .msgTxGo _ _ => true
  | .msgRxFree _ _ => true
  | .laneEn _ _ => true
  | .retrain _ _ => true
  | .trainingDone _ => true
  | .trainTimeout _ => true
  | .capTimeout _ => true
  | .laneLost _ => true
  | .lostIdleEnd _ => true
  | .linkAccept _ _ => true
  | .auxTick => true
  | .bridgeFrameRx _ _ groups => decide (groups.length ≤ 199)
  | .bridgeFrameMissing _ => true
  | .portUp _ => true
  | .portLost _ => true
  | .portResync _ => true
  | .move _ _ => true
  | .home _ _ => true
  | .axStop _ _ => true
  | .clearErr _ _ => true
  | .moveDone _ => true
  | .stopAtRest _ => true
  | .limitRelease _ _ => true
  | .inputLost _ => true
  | .axisStall _ => true
  | .standbyEntry _ => true
  | .homeAtRest _ => true
  | .homeBackOffDone _ => true
  | .homeQualifiedEdge _ => true
  | .homeZero _ => true
  | .switchUnstable _ => true
  | .homeMaxdist _ => true
  | .matrixFrameStart => true
  | .rowSlotStart _ sinkUa sinkMv => decide (sinkUa.length = 32 ∧ sinkMv.length = 32)
  | .diagUnavailable _ => true
  | .ledFrameWrite ofs _ => decide (ofs.toNat % 4 = 0)
  | .ledArm _ => true
  | .ledDisarm _ => true
  | .syncEdge _ _ => true
  | .lampTempMeasure _ => true
  | .diagClear _ => true
  | .dramRequest addr len _ _ wr => decide (0 < len.toNat ∧ addr.toNat + len.toNat ≤ 2 ^ 36) && 
      (match wr with | some b => decide (b.length = len.toNat) | none => true)
  | .dramReadDone _ _ => true
  | .devMarked _ => true
  | .dramWrite _ => true
  | .refreshDue _ _ => true
  | .owedRefresh _ => true
  | .rfm _ _ => true
  | .powerDownEntry _ => true
  | .scrubStep _ _ => true
  | .pprRepairDone => true
  | .harden _ => true
  | .clearPending _ => true
  | .dmaStart _ _ => true
  | .dmaStop _ _ => true
  | .resume _ _ => true
  | .skip _ _ => true
  | .descriptorFetchDone _ => true
  | .descriptorComplete _ => true
  | .linkReadDone _ => true
  | .dmaTrigger _ => true
  | .dmaTimer _ => true
  | .doorbell _ _ => true
  | .katPassDone _ _ => true
  | .sramPatrolRead _ _ _ _ _ => true
  | .directedPassDone _ _ => true
  | .bleatRx _ _ _ => true
  | .bleatMissed _ _ => true
  | .pathFault _ => true
  | .pathOk _ => true
  | .takeoverClaim => true
  | .failover => true
  | .recoveryStart _ => true
  | .recoveryPassDone _ _ => true
  | .recoveryRetry _ => true
  | .stateCopyDone _ => true
  | .unitStandby _ => true
  | .dwellEnd => true
  | .revDefer _ => true
  | .directedPass _ => true
  | .retry _ => true
  | .clearCounters _ => true
  | .spareRowReady _ => true
  | .remapGo _ => true
  | .remapReq _ => true
  | .health => true
  | .timeIncCommit _ => true
  | .set _ => true
  | .add _ => true
  | .capture _ => true
  | .captureBoundary _ => true
  | .tcmpArm _ _ => true
  | .tcmpFire _ => true
  | .ethRxFrame _ _ _ _ => true
  | .txWrWrite _ _ => true
  | .ethTxDone _ => true
  | .rxRdWrite _ _ => true
  | .ethLinkChange _ _ => true
  | .mdioCmd _ => true
  | .mdioDone _ => true
  | .evrWrite => true
  | .snap _ => true
  | .hkConversion _ _ => true
  | .supply _ => true
  | .thermLevelChange => true
  | .sensorBrokenLong => true
  | .throttleStep => true
  | .thresholdWrite _ _ => true
  | .runStart _ => true
  | .runSubmit _ => true
  | .calRecordWritten _ => true
  | .runCancel _ => true
  | .reload _ => true
  | .loadDone => true
  | .acceptSerial _ => true
  | .norRead _ => true
  | .norProgram _ => true
  | .norErase _ => true
  | .norDone => true
  | .isoReportRx => true
  | .isoReportMissing => true
  | .commandLoss => true
  | .permitChannelChange _ _ => true
  | .permitLost => true
  | .permitDiscrepancy _ => true
  | .permitClear _ => true
  | .leOverload _ => true
  | .leStuck _ => true
  | .doFault _ => true
  | .doOutWrite _ => true
  | .diChange _ _ => true
  | .vsysUv => true
  | .vsysRestore => true
  | .isoHot => true
  | .isoCool => true
  | .scEnable _ => true
  | .scDisable _ => true
  | .scGo _ => true
  | .scTranslateDone => true
  | .scStop _ => true
  | .scDoneClr _ => true
  | .chListPortWrite _ _ => true
  | .chListReset _ _ => true
  | .scChannelDone _ => true
  | .scScannerFault _ => true
  | .permitClearable => true
  | .autoNegotiationComplete _ => true
  | .pclkPresent _ _ => true
  | .isoDiePowerUp => true

end Sys2Proof
end

