-- ==== Sys2Proof/Tests/Slice0.lean ====
section
/-!
SUPPORT. The model's own tests: worked examples of the spec and published check values of the named algorithms, ill-formed commands that WellFormed
refuses, and for every statement that has hypotheses a concrete state and operands that meet them, clause by clause.
-/
namespace Sys2Proof.Tests
open Sys2Proof.Machine
set_option Elab.async false

/-! ### Helpers -/


/-- A field set as written and in force. -/
def pv (d : Dev) (f : Fld) (v : Nat) : Dev :=
  let w := Word.putBits (d.reg f.addr) f.hi f.lo v
  { d with regs := { d.regs with cur := Tab.put resetWord d.regs.cur f.addr w, live := Tab.put resetWord d.regs.live f.addr w } }
/-- The reset state in a device state, with some fields and a change of hidden state. -/
def on (st : Nat) (l : List (Fld × Nat) := []) (f : Dev → Dev := id) : State :=
  { State.reset with dev := f (l.foldl (fun d p => pv d p.1 p.2) (pv State.reset.dev F.sys_SYS_STATE_STATE st)) }
/-- The same at a frame and cycle. -/
def onAt (st fr cy : Nat) (l : List (Fld × Nat) := []) (f : Dev → Dev := id) : State :=
  on st l (fun d => f { d with time := { d.time with frame := fr, cycle := cy } })
/-- With DRAM of 32 GiB trained. -/
def onMem (st : Nat) (m : List Host.Cell) (l : List (Fld × Nat) := []) (f : Dev → Dev := id) : State :=
  { on st ([(F.ddr_CFG_TRAINED, 1), (F.ddr_CFG_CAP_GB, 32)] ++ l) f with mem := m }
/-- Bytes in DRAM. -/
def ram (a : Nat) (l : List Nat) : List Host.Cell :=
  (l.zipIdx.map (fun e => (a + e.2, BitVec.ofNat 8 e.1))).filter (fun c => c.2 != 0)
def leN (n v : Nat) : List Nat := (List.range n).map (fun i => v / 256 ^ i % 256)
/-- A management slot with its CRC (09 R296). -/
def slotB (q ack typ idx : Nat) (p : List Nat) : List (Option Byte) :=
  let b := [16 * q + ack, typ, p.length, idx] ++ p ++ List.replicate (64 - p.length) 0
  (b ++ leN 2 (crc16 b)).map (fun x => some (BitVec.ofNat 8 x))
/-- The start of a frame: K28.5 and a block of `n` characters, zeros behind a frame number, with its CRC (09 R284). -/
def blk (n fr : Nat) : List Byte :=
  let b := leN 2 fr ++ List.replicate (n - 2) 0
  ([0xBC] ++ b ++ leN 2 (crc16 b)).map (BitVec.ofNat 8)
/-- The code groups of a frame (09 R282). -/
def grp (b : List Byte) : List (BitVec 10) := (txFrame false (b.map (·.toNat))).1.map (BitVec.ofNat 10)
/-- A calibration record of type 2 with a payload of zeros but for its first byte (16 R463). -/
def rec2 (h x : Nat) : List Nat :=
  let b := [0x43, 0x4B, 2, h] ++ leN 4 8 ++ List.replicate 8 0 ++ leN 8 9 ++ List.replicate 8 0 ++ [x] ++ List.replicate 7 0
  b ++ leN 4 (crc32 b)
/-- A descriptor (13 R383). -/
def desc (link ctl len src dst pat : Nat) : List Nat :=
  leN 8 link ++ leN 4 ctl ++ leN 4 len ++ leN 8 src ++ leN 8 dst ++ leN 8 pat ++ List.replicate 24 0
/-- A sequencer entry in the table, with the sequencer at entry 0 in RUNNING. -/
def entry (op a0 a1 a2 a3 : Nat) (d : Dev) : Dev :=
  { d with seqTab := [(0, BitVec.ofNat 32 (op * 2 ^ 24 + a0)), (4, BitVec.ofNat 32 a1), (8, BitVec.ofNat 32 a2), (12, BitVec.ofNat 32 a3)] }
def atE (op : Nat) : State := on 7 [] (fun d => entry op 0 0 0 0 { d with seq := { d.seq with fresh := true } })
/-- The isolated die in a given state. -/
def iso (x : IsoSt) : State := { on 5 with iso := { st := x } }
/-- The fields that put head `h` into the exposure set. -/
def fitRegs (h : Nat) : List (Fld × Nat) :=
  [(F.hd_LANE_STAT_STATE h, 3), (F.hd_PWR_GAIN h, 1), (F.hd_FIRE_MAX_HZ h, 1), (F.hd_CAS_STAT_STATE h, 2), (F.hd_FC_STAT_VALID h, 1), (F.hd_LIM_VMAX_X h, 1),
    (F.hd_LIM_VMAX_Y h, 1), (F.hd_LIM_VMAX_F h, 1), (F.hd_LIM_AMAX_X h, 1), (F.hd_LIM_AMAX_Y h, 1), (F.hd_LIM_AMAX_F h, 1),
    (F.cal_CAL_STATh_VALID h, 15)]
    ++ [0, 1, 2].flatMap (fun a => [(sf F.slot_SLOT_CTRL_EN (3 * h + a), 1), (sf F.slot_FE_LIM (3 * h + a), 1)])
/-- The page at an address. -/
def pg (a : Nat) : PgInfo := match pageOf a with | some p => p.1 | none => ⟨.sys, 0, 0, 0, false, false, false⟩



/-! ### Worked examples of the spec -/

/-- 19, "locating a loop field": SERVO_SLOTS of HD9 gives Y = 28 at reset, and FE_LIM of LS28 lies at 0x0004_1C30. -/
theorem test_feLim_of_hd9_y : (State.reset.dev.axisSlot 9 1, (sf F.slot_FE_LIM 28).addr) = (28, 0x41C30) := by decide +kernel

/-- 04, "the end of a JB-07 hatch on HD9": the node words of its cell and the targets of its end point. -/
def hatchEnd : Dev :=
  let d := [(F.hd_FC_CX 9, 120000000), (F.hd_FC_CY 9, 120000000), (F.hd_FC_PITCH 9, 0x2AEA54), (F.hd_FC_M00 9, 0x10624E), (F.hd_FC_M11 9, 0x10624E),
    (F.hd_FC_KF 9, 0x8304A)].foldl (fun d p => pv d p.1 p.2) (on 5).dev
  let word (x y f : Int) : Nat := ux 24 x * 2 ^ 40 + ux 24 y * 2 ^ 16 + ux 16 f
  let put (d : Dev) (e : Nat × Nat) : Dev := (d.gridWrite (0x90000 + 8 * e.1) (BitVec.ofNat 32 e.2)).gridWrite (0x90000 + 8 * e.1 + 4) (BitVec.ofNat 32 (e.2 / 2 ^ 32))
  [(65 * 29 + 61, word 412 (-96) 210), (65 * 29 + 62, word 430 (-101) 214), (65 * 30 + 61, word 405 (-90) 207), (65 * 30 + 62, word 424 (-94) 211)].foldl put d
theorem test_targets_of_hatch_end : (hatchEnd.fc 9 (256 * 201630000) (256 * 112400000) 0).t = [326930, -30494, 209] := by decide +kernel

/-- 03, "a JB-07 hatch pair": the run-in from rest to 3,000 nm per frame at 600 nm/frame² and 200 nm/frame³ is 12,000 nm in 8 frames. -/
theorem test_runIn : (rampD 0 (3000 * 256) (600 * 256) (200 * 256), rampT (3000 * 256) (600 * 256) (200 * 256)) = (12000 * 256, 8 * frameT) := by decide +kernel


/-- 09, "the hatch end of HD9 on the wire": characters 0 to 14 of downstream frame 8,201. -/
theorem test_wire_of_hatch_end :
    (Lane.dsChars { dsKind := .normal, dsNum := 0x5A31, dsFlags := 0x1F, dsCmd := [-12, 1843, 37], dsPwr := 58368, dsEdges := [(3590, false)] }).take 15
      = [0xBC, 0x31, 0x5A, 0x1F, 0xF4, 0xFF, 0x33, 0x07, 0x25, 0x00, 0x00, 0xE4, 0x01, 0x06, 0x0E] := by decide +kernel
theorem test_power_code : (on 5 [(F.hd_PWR_GAIN 9, 0x275254)]).dev.pwrCode 9 380000 = 58368 := by decide +kernel

/-- 12 R357: the example offset lies in row 0x468A of bank group 3, bank 2 of SC1. -/
theorem test_dram_mapping : (fun k => (burstSc k, burstRow k, burstBg k, burstBa k)) (0x234567A40 / 64) = (1, 0x468A, 3, 2) := by decide +kernel

/-- 15, "a fast reference": the increment of 1.999975 ns is within R431's range and commits; the time of 500 cycles then has its fraction. -/
theorem test_increment_commits :
    (let d := (on 5 [(F.time_TIME_INC_LO, 0xFFFE5C93)]).dev.incCommit 1; (d.time.incNs, d.time.incFrac)) = (1, 0xFFFE5C93) := by decide +kernel

/-- 10, "a recoater sent back mid-stroke": from +150 mm/s at 300 mm the axis reverses without a pause at 311,093,750 nm, 125 ms later. -/
theorem test_recoater_reverses :
    (let m := follow (vU (-150000)) (phases (vU 150000) 0 (vU (-150000)) (aU 1500000) (jU 30000)) (6250 * 65536) { p := 300000000 * nmU, v := vU 150000, a := 0 }
     (rdiv m.p nmU, decide (absI m.v < vU 1))) = (311093750, true) := by decide +kernel

/-! ### Published check values of the algorithms that the spec names -/

/-- CRC-16 of R284's parameters and CRC-32 of IEEE 802.3 over "123456789". -/
theorem test_crcs : (crc16 [49, 50, 51, 52, 53, 54, 55, 56, 57], crc32 [49, 50, 51, 52, 53, 54, 55, 56, 57]) = (0x29B1, 0xCBF43926) := by decide +kernel
/-- IEEE 802.3 Clause 36: D21.5 and K28.5 at both disparities, D0.0, and the second forms of D17.7 and D11.7. -/
theorem test_code_groups : [encD false 0xB5, encD true 0xB5, encK false 0xBC, encK true 0xBC, encD false 0, encD true 0, encD false 0xF1, encD true 0xEB]
    = [0x2AA, 0x2AA, 0x0FA, 0x305, 0x274, 0x18B, 0x237, 0x348] := by decide +kernel
/-- Every data byte's code group is read as that byte at its disparity. -/
theorem test_code_groups_read : ∀ b ∈ List.range 256, decGroup false (encD false b) = (b, false, true) ∧ decGroup true (encD true b) = (b, false, true) := by decide +kernel
/-- FIPS 180-4: the first bytes of SHA-256 of "abc". -/
theorem test_sha256_abc : (sha256 [97, 98, 99]).take 4 = [0xBA, 0x78, 0x16, 0xBF] := by decide +kernel
/-- RFC 4231, case 1: the first bytes of HMAC-SHA-256. -/
theorem test_hmac : (hmac (List.replicate 20 0x0B) [0x48, 0x69, 0x20, 0x54, 0x68, 0x65, 0x72, 0x65]).take 4 = [0xB0, 0x34, 0x4C, 0x61] := by decide +kernel
/-- FIPS 186-4: the base point of P-256 is on its curve. -/
theorem test_p256_base : onCurve p256G.1 p256G.2 = true := by decide +kernel

/-! ### WellFormed refuses ill-formed commands, one for each check -/

theorem test_wf_refuses_lengths :
    [Instr.ddrTrainingDone true 0 false 0 [], .badAccess 0 true 0, .bar2Write 0 [], .bar2Read 0 0, .usFrameRx 0 0 (List.replicate 625 0) 0,
      .ackRx 0 [], .capDataRx 0 [], .casRecordRx 0 [], .casChangeRx 0 [], .hostMsgRx 0 [], .unknownMsgRx 0 [], .bridgeFrameRx 0 0 (List.replicate 200 0),
      .registerWrite 0x3FFFFFC (.pair 0 0), .rowSlotStart none [] [], .dramRequest 0 0 0 false none, .dramRequest 0 64 0 true (some [])].all (fun i => i.wf = false) = true := by
  decide +kernel
theorem test_wf_refuses_addresses :
    [Instr.registerWrite 2 (.word 0), .errClr 0x44 0, .softReset 0x44 0, .pageLock 0x44 0, .pageEnable 0x44 0, .evtForce 0x44 0, .evtRawClear 0x44 0, .evtEnWrite 0x44 0,
      .shadowPointWrite 0x44 0, .contextWindowWrite 1 0, .seqTableWrite 1 0, .fcGridWrite 0x300000 0, .fcGridWrite 2 0, .tileMapWrite 1 0, .cntClear 1 0, .ledFrameWrite 1 0,
      .pcieLinkUp 3 1, .pcieLinkUp 4 0].all (fun i => i.wf = false) = true := by decide +kernel
theorem test_wf_accepts : [Instr.powerOnReset, .registerWrite 0x44 (.word 0), .registerWrite 0x44 (.pair 0 1), .bar2Write 0 [1], .fcGridWrite 0 0, .pcieLinkUp 4 3].all Instr.wf = true := by decide +kernel

/-! ### One step -/

/-- 03 R84: from POR a PLL lock leads to ROM (02 R62, R69), by a step on the queue's front. -/
theorem test_step_pllLock :
    (match step { State.reset with pending := [.pllLock, .nop] } with | .next t => (t.dev.st, t.pending) | _ => (99, [])) = (1, [.nop]) := by decide +kernel
/-- An empty queue idles. -/
theorem test_step_idle : (match step State.reset with | .next t => t.pending | _ => [.nop]) = [] := by decide +kernel

/-- Inputs that meet the hypotheses of EveryStepKeepsTheStoresCanonical and OtpOnlyAdvances: an idle step in POR. -/
theorem wit_everyStepKeepsTheStoresCanonical : State.reset.Inv ∧ step State.reset = .next State.reset := by
  refine ⟨?_, rfl⟩
  unfold State.Inv
  decide +kernel
/-- Inputs that meet the hypotheses of OtherCommandsLeaveTheStores: a host kick in POR. -/
theorem wit_otherCommandsLeaveTheStores :
    (Instr.writesDram (.hostKick 0) = false ∧ Instr.writesNor (.hostKick 0) = false ∧ Instr.writesOtp (.hostKick 0) = false ∧ Instr.reachesIso (.hostKick 0) = false)
      ∧ exec (.hostKick 0) State.reset = .next State.reset := ⟨by decide, rfl⟩

/-- The FCS of a frame is a word. -/
theorem crc32_lt (l : List Nat) (h : ∀ b ∈ l, b < 2 ^ 32) : crc32 l < 2 ^ 32 := by
  have bit (c : Nat) (h : c < 2 ^ 32) : crc32Bit c < 2 ^ 32 := by
    unfold crc32Bit
    split
    · exact Nat.xor_lt_two_pow (by omega) (by decide)
    · omega
  have fold (l : List Nat) (h : ∀ b ∈ l, b < 2 ^ 32) (c : Nat) (hc : c < 2 ^ 32) :
      l.foldl (fun c b => (List.range 8).foldl (fun c _ => crc32Bit c) (c ^^^ b)) c < 2 ^ 32 := by
    induction l generalizing c with
    | nil => exact hc
    | cons b l ih =>
      refine ih (fun x hx => h x (List.mem_cons_of_mem _ hx)) _ ?_
      have byte (r : List Nat) (c : Nat) (hc : c < 2 ^ 32) : r.foldl (fun c _ => crc32Bit c) c < 2 ^ 32 := by
        induction r generalizing c with
        | nil => exact hc
        | cons _ _ ih => exact ih _ (bit _ hc)
      exact byte _ _ (Nat.xor_lt_two_pow hc (h b List.mem_cons_self))
  exact Nat.xor_lt_two_pow (fold l h _ (by decide)) (by decide)
/-- Inputs that meet the hypotheses of EthernetPortsMoveFrames on a frame that is too long. -/
theorem wit_ethernetLongFrame :
    let frame : List Byte := List.replicate 2017 5
    let crc := crc32 (frame.map (fun (b : Byte) => b.toNat))
    let s := onMem 7 [] [(F.hdr_PAGE_CTRL_ENABLE ethPage, 1), (F.ethp_PORT_STAT_LINK 1, 1), (F.ethp_PORT_CTRL_RX_EN 1, 1)]
    (s.dev.g (F.hdr_PAGE_CTRL_ENABLE ethPage) = 1 ∧ s.dev.g (F.ethp_PORT_STAT_LINK 1) = 1 ∧ s.dev.g (F.ethp_PORT_CTRL_RX_EN 1) = 1)
      ∧ crc = (BitVec.ofNat 32 crc).toNat ∧ 2016 < frame.length := by
  intro frame crc s
  refine ⟨by decide +kernel, ?_, ?_⟩
  · rw [BitVec.toNat_ofNat, Nat.mod_eq_of_lt (crc32_lt _ ?_)]
    intro b hb
    obtain ⟨x, -, rfl⟩ := List.mem_map.1 hb
    exact Nat.lt_of_lt_of_le x.isLt (by decide)
  · rw [List.length_replicate]; decide


/-! ### Witnesses: every clause with hypotheses has a state and operands that meet them all -/

/-- Inputs that meet the hypotheses of EmptyQueueIsOneClockCycle. -/
theorem wit_emptyQueueIsOneClockCycle :
    let s : State := State.reset
    (s.pending = []) := by
  decide +kernel

/-- Inputs that meet the hypotheses of HostWritesThatReachNothing. -/
theorem wit_hostWritesThatReachNothing :
    (let c : Instr := .hostKick 0
     let a : Nat := 0x54
     let s : State := State.reset
     (c.target = some a) ∧ (s.dev.st = 0)) ∧
    (let c : Instr := .registerWrite 0x3F0FFFC (.word 0)
     let a : Nat := 0x3F0FFFC
     let s : State := on 5
     (c.target = some a) ∧ (a < 2 ^ 26) ∧ (s.dev.st ≠ 0) ∧ (s.dev.turnedAway a = true)) := by
  refine ⟨?_, ?_⟩ <;> decide +kernel

/-- Inputs that meet the hypotheses of NativeModeHidesTheSc12Window. -/
theorem wit_nativeModeHidesTheSc12Window :
    (let a : Nat := 0x3F00000
     let s : State := on 5
     (0x3F00000 ≤ a) ∧ (a < 0x3F10000) ∧ (s.dev.g F.sys_SYS_STATE_MODE ≠ 2)) ∧
    (let a : Nat := 0x3F00000
     let s : State := on 5
     let c : Instr := .registerWrite 0x3F00000 (.word 1)
     (0x3F00000 ≤ a) ∧ (a < 0x3F10000) ∧ (s.dev.g F.sys_SYS_STATE_MODE ≠ 2) ∧ (c.target = some a) ∧ (s.dev.st ≠ 0)) ∧
    (let a : Nat := 0x3F00000
     let s : State := on 5
     let c : Instr := .registerWrite 0x3F00000 (.word 1)
     (0x3F00000 ≤ a) ∧ (a < 0x3F10000) ∧ (s.dev.g F.sys_SYS_STATE_MODE ≠ 2) ∧ (c.target = some a) ∧ (s.dev.st ≠ 0)) ∧
    (let a : Nat := 0x3F00000
     let s : State := on 5
     let c : Instr := .registerWrite 0x3F00000 (.word 1)
     (0x3F00000 ≤ a) ∧ (a < 0x3F10000) ∧ (s.dev.g F.sys_SYS_STATE_MODE ≠ 2) ∧ (c.target = some a) ∧ (s.dev.st ≠ 0)) := by
  refine ⟨?_, ?_, ?_, ?_⟩ <;> decide +kernel

/-- Inputs that meet the hypotheses of PowerOnResetLosesAllButOtp. -/
theorem wit_powerOnResetLosesAllButOtp :
    let c : Instr := .brownOut
    (c = .powerOnReset ∨ c = .brownOut) := by
  decide +kernel

/-- Inputs that meet the hypotheses of RomTestsTrainsAndEnds. -/
theorem wit_romTestsTrainsAndEnds :
    (let s : State := State.reset
     (s.dev.st = 0) ∧ (s.dev.ctl.pllLocked = false)) ∧
    (let s : State := on 1
     (s.dev.st = 1)) ∧
    (let s : State := on 1
     (s.dev.st = 1)) ∧
    (let s : State := on 1
     (s.dev.st = 1) ∧ (s.dev.g F.ddr_CFG_TRAINED = 0)) ∧
    (let s : State := on 1
     (s.dev.st = 1) ∧ (s.dev.g F.ddr_CFG_TRAINED = 0)) ∧
    (let s : State := on 1 [(F.ddr_CFG_TRAINED, 1)]
     (s.dev.st = 1) ∧ (s.dev.g F.ddr_CFG_TRAINED = 1) ∧ (s.dev.hardenWaits = false)) ∧
    (let s : State := on 1 [(F.ddr_CFG_TRAINED, 1), (F.ddr_PPR_LOGi_STATE 3, 3), (F.ddr_PPR_LOGi_STATE 7, 3)]
     let i : Nat := 3
     (s.dev.st = 1) ∧ (s.dev.g F.ddr_CFG_TRAINED = 1) ∧ (i < 8) ∧ (s.dev.g (F.ddr_PPR_LOGi_STATE i) = 3) ∧ ((∀ j ∈ List.range i, s.dev.g
         (F.ddr_PPR_LOGi_STATE j) ≠ 3))) := by
  refine ⟨?_, ?_, ?_, ?_, ?_, ?_, ?_⟩ <;> decide +kernel

/-- Inputs that meet the hypotheses of ImageIsVerifiedAndLoaded. -/
theorem wit_imageIsVerifiedAndLoaded :
    (let s : State := onMem 2 [(2, 5)] [(F.boot_IMG_LEN, 64)]
     let n := min (s.dev.g F.boot_IMG_LEN) (64 * 2 ^ 20)
     (s.lets 0x1044) ∧ (s.dev.st = 2) ∧ (s.dev.quiet = true) ∧ ((∀ k ∈ burstsOf 0 n, s.dev.judge k ≤ 1))) ∧
    (let s : State := onMem 2 [] [(F.boot_IMG_LEN, 64)] (fun d => { d with ddr := { d.ddr with bursts := [(0, { poison := true })] } })
     (s.lets 0x1044) ∧ (s.dev.st = 2) ∧ (s.dev.quiet = true) ∧ ((∃ k ∈ burstsOf 0 (min (s.dev.g F.boot_IMG_LEN) (64 * 2 ^ 20)), 2 ≤ s.dev.judge k))) ∧
    (let s : State := onMem 3 []
     (s.dev.st = 3) ∧ (s.dev.quiet = true)) ∧
    (let s : State := onMem 3 [] [(F.ddr_NR_CTRL_EN, 0)]
     let c : Nat := 0x10
     (s.dev.st = 3) ∧ (s.dev.quiet = true) ∧ ((s.dev.dramRead 3 s.dev.imgCopy 0x180).1 = false) ∧ (imgHeader (memBytes s.mem s.dev.imgCopy 0x180)
         (s.dev.g F.boot_IMG_LEN) s.otp romKeyBytes = some c)) ∧
    (let s : State := on 4
     (s.dev.st = 4) ∧ (s.dev.g F.sys_SYS_STATE_MODE ≠ 2)) ∧
    (let s : State := on 4 [(F.sys_SYS_STATE_MODE, 2)]
     (s.dev.st = 4) ∧ (s.dev.g F.sys_SYS_STATE_MODE = 2)) := by
  refine ⟨?_, ?_, ?_, ?_, ?_, ?_⟩ <;> (try unfold State.lets) <;> decide +kernel

/-- Inputs that meet the hypotheses of EnrolmentChangesOneSlot. -/
theorem wit_enrolmentChangesOneSlot :
    (let v : Word := 0x454E0005
     let s : State := on 5 [] (fun d => { d with ctl := { d.ctl with image := { d.ctl.image with enrollPermit := true } } })
     let slot := Word.f v 3 2
     let fit := s.dev.st = 5 ∧ s.dev.ctl.image.enrollPermit = true
     (s.lets 0x1080) ∧ (Word.f v 31 16 = 0x454E) ∧ (s.dev.ctl.enroll = none) ∧ (Word.f v 1 0 = 1) ∧ (fit) ∧ (slot ≠ 0) ∧ (s.otp.slotSt slot = 0)) ∧
    (let v : Word := 0x454E0001
     let s : State := on 5
     let slot := Word.f v 3 2
     let fit := s.dev.st = 5 ∧ s.dev.ctl.image.enrollPermit = true
     (s.lets 0x1080) ∧ (Word.f v 31 16 = 0x454E) ∧ (s.dev.ctl.enroll = none) ∧ (Word.f v 1 0 = 1) ∧ (¬ fit ∨ slot = 0 ∨ s.otp.slotSt slot ≠ 0)) ∧
    (let v : Word := 0x454E0006
     let s : State := on 5 [] (fun d => { d with ctl := { d.ctl with image := { d.ctl.image with enrollPermit := true } } })
     let slot := Word.f v 3 2
     let fit := s.dev.st = 5 ∧ s.dev.ctl.image.enrollPermit = true
     let last := slot = 0 ∧ s.otp.slotSt 0 = 1 ∧ s.otp.slotSt 1 ≠ 1 ∧ s.otp.slotSt 2 ≠ 1 ∧ s.otp.slotSt 3 ≠ 1
     (s.lets 0x1080) ∧ (Word.f v 31 16 = 0x454E) ∧ (s.dev.ctl.enroll = none) ∧ (Word.f v 1 0 = 2) ∧ (fit) ∧ (¬ last)) ∧
    (let v : Word := 0x454E0002
     let s : State := on 5
     let slot := Word.f v 3 2
     let fit := s.dev.st = 5 ∧ s.dev.ctl.image.enrollPermit = true
     let last := slot = 0 ∧ s.otp.slotSt 0 = 1 ∧ s.otp.slotSt 1 ≠ 1 ∧ s.otp.slotSt 2 ≠ 1 ∧ s.otp.slotSt 3 ≠ 1
     (s.lets 0x1080) ∧ (Word.f v 31 16 = 0x454E) ∧ (s.dev.ctl.enroll = none) ∧ (Word.f v 1 0 = 2) ∧ (¬ fit ∨ last)) ∧
    (let s : State := on 5 [] (fun d => { d with ctl := { d.ctl with enroll := some (1, 1, []) } })
     let op : Nat := 1
     let slot : Nat := 1
     let dig : List Nat := []
     (s.dev.ctl.enroll = some (op, slot, dig))) := by
  refine ⟨?_, ?_, ?_, ?_, ?_⟩ <;> (try unfold State.lets) <;> decide +kernel

/-- Inputs that meet the hypotheses of SysCommandsAreAcceptedOrRefused. -/
theorem wit_sysCommandsAreAcceptedOrRefused :
    (let v : Word := 0x4B4D0001
     let s : State := on 5
     (s.lets 0x44) ∧ (Word.f v 31 16 = 0x4B4D) ∧ (s.dev.ctl.cmd = 0) ∧ (s.dev.ctl.stop = none) ∧ (s.dev.st = 5) ∧ (Word.f v 3 0 = 1)) ∧
    (let v : Word := 0x4B4D0002
     let s : State := on 6
     (s.lets 0x44) ∧ (Word.f v 31 16 = 0x4B4D) ∧ (s.dev.ctl.cmd = 0) ∧ (s.dev.ctl.stop = none) ∧ (s.dev.st = 6) ∧ (Word.f v 3 0 = 2)) ∧
    (let v : Word := 0x4B4D0003
     let s : State := on 7
     let met := s.dev.waiting 1 = true ∧ s.dev.g F.seq_LAYER_STAT_OPEN = 0 ∧ s.dev.seq.endFrame = none
     (s.lets 0x44) ∧ (Word.f v 31 16 = 0x4B4D) ∧ (s.dev.ctl.cmd = 0) ∧ (s.dev.ctl.stop = none) ∧ (s.dev.st = 7) ∧ (Word.f v 3 0 = 3) ∧ (¬ met)) ∧
    (let v : Word := 0x4B4D0003
     let s : State := on 7 [] (fun d => entry 1 0 0 0 0 d)
     let met := s.dev.waiting 1 = true ∧ s.dev.g F.seq_LAYER_STAT_OPEN = 0 ∧ s.dev.seq.endFrame = none
     (s.lets 0x44) ∧ (Word.f v 31 16 = 0x4B4D) ∧ (s.dev.ctl.cmd = 0) ∧ (s.dev.ctl.stop = none) ∧ (s.dev.st = 7) ∧ (Word.f v 3 0 = 3) ∧ (met)) ∧
    (let v : Word := 0x4B4D0005
     let s : State := on 6
     (s.lets 0x44) ∧ (Word.f v 31 16 = 0x4B4D) ∧ (s.dev.ctl.cmd = 0) ∧ (s.dev.ctl.stop = none) ∧ (s.dev.st = 6) ∧ (Word.f v 3 0 = 5)) ∧
    (let v : Word := 0x4B4D0004
     let s : State := on 7
     (s.lets 0x44) ∧ (Word.f v 31 16 = 0x4B4D) ∧ (Word.f v 3 0 = 4) ∧ (s.dev.st = 6 ∨ s.dev.st = 7)) ∧
    (let n : Nat := 5
     let v : Word := 0x4B4C0005
     let s : State := on 6
     let c : Instr := .disarm v
     (s.lets 0x44) ∧ (Word.f v 3 0 = n) ∧ ((n = 1 ∧ c = .arm v ∨ n = 2 ∧ c = .start v ∨ n = 3 ∧ c = .stop v ∨ n = 4 ∧ c = .abort v ∨ n = 5 ∧ c =
         .disarm v)) ∧ (Word.f v 31 16 ≠ 0x4B4D)) ∧
    (let n : Nat := 2
     let v : Word := 0x4B4D0002
     let s : State := on 6 [] (fun d => { d with ctl := { d.ctl with cmd := 5 } })
     let c : Instr := .start v
     (s.lets 0x44) ∧ (Word.f v 3 0 = n) ∧ ((n = 1 ∧ c = .arm v ∨ n = 2 ∧ c = .start v ∨ n = 3 ∧ c = .stop v ∨ n = 4 ∧ c = .abort v ∨ n = 5 ∧ c =
         .disarm v)) ∧ (Word.f v 31 16 = 0x4B4D) ∧ (n ≠ 4) ∧ (s.dev.ctl.cmd ≠ 0)) ∧
    (let n : Nat := 4
     let v : Word := 0x4B4D0004
     let s : State := on 5
     let c : Instr := .abort v
     (s.lets 0x44) ∧ (Word.f v 3 0 = n) ∧ ((n = 1 ∧ c = .arm v ∨ n = 2 ∧ c = .start v ∨ n = 3 ∧ c = .stop v ∨ n = 4 ∧ c = .abort v ∨ n = 5 ∧ c =
         .disarm v)) ∧ (Word.f v 31 16 = 0x4B4D) ∧ (n = 4) ∧ (s.dev.st ≠ 6) ∧ (s.dev.st ≠ 7)) ∧
    (let n : Nat := 1
     let v : Word := 0x4B4D0001
     let s : State := on 6
     let c : Instr := .arm v
     (s.lets 0x44) ∧ (Word.f v 3 0 = n) ∧ ((n = 1 ∧ c = .arm v ∨ n = 2 ∧ c = .start v ∨ n = 3 ∧ c = .stop v ∨ n = 4 ∧ c = .abort v ∨ n = 5 ∧ c =
         .disarm v)) ∧ (Word.f v 31 16 = 0x4B4D) ∧ (s.dev.ctl.cmd = 0) ∧ ((n = 1 ∧ s.dev.st ≠ 5 ∨ (n = 2 ∨ n = 5) ∧ s.dev.st ≠ 6 ∨ n = 3 ∧ s.dev.st ≠
         7))) := by
  refine ⟨?_, ?_, ?_, ?_, ?_, ?_, ?_, ?_, ?_, ?_⟩ <;> (try unfold State.lets) <;> decide +kernel

/-- Inputs that meet the hypotheses of SysCommandsTakeEffect. -/
theorem wit_sysCommandsTakeEffect :
    (let s : State := onAt 5 2 0 ([(F.seq_TBL_LEN, 4), (F.seq_LQ_ENTRIES, 2), (F.iso_PERMIT_STAT_VOTE, 1), (F.iso_ISO_STAT_LINK_OK, 1)] ++ fitRegs 47) (fun d => { d with seqTab := [(0, 0x01000000), (16, 0x02000000), (32, 0x03000000), (48, 0x0D000000)], ctl := { d.ctl with cmd := 1, cmdFrame := 1 } })
     (s.dev.ctl.cmdFrame < s.dev.time.frame) ∧ (s.dev.g F.sys_SYS_STATE_MODE ≠ 2) ∧ (s.dev.overruled = false) ∧ (s.dev.ctl.cmd = 1) ∧
         (s.dev.tblCheck.armOk = true)) ∧
    (let s : State := onAt 5 2 0 [] (fun d => { d with ctl := { d.ctl with cmd := 1, cmdFrame := 1 } })
     (s.dev.ctl.cmdFrame < s.dev.time.frame) ∧ (s.dev.g F.sys_SYS_STATE_MODE ≠ 2) ∧ (s.dev.overruled = false) ∧ (s.dev.ctl.cmd = 1) ∧
         (s.dev.tblCheck.camMark.armOk = false)) ∧
    (let s : State := onAt 6 2 0 [] (fun d => { d with ctl := { d.ctl with cmd := 2, cmdFrame := 1 } })
     (s.dev.ctl.cmdFrame < s.dev.time.frame) ∧ (s.dev.g F.sys_SYS_STATE_MODE ≠ 2) ∧ (s.dev.overruled = false) ∧ (s.dev.ctl.cmd = 2)) ∧
    (let s : State := onAt 6 2 0 [] (fun d => { d with ctl := { d.ctl with cmd := 5, cmdFrame := 1 } })
     (s.dev.ctl.cmdFrame < s.dev.time.frame) ∧ (s.dev.g F.sys_SYS_STATE_MODE ≠ 2) ∧ (s.dev.overruled = false) ∧ (s.dev.ctl.cmd = 5)) ∧
    (let s : State := onAt 6 2 0 [] (fun d => { d with ctl := { d.ctl with cmd := 4, cmdFrame := 1 } })
     (s.dev.ctl.cmdFrame < s.dev.time.frame) ∧ (s.dev.g F.sys_SYS_STATE_MODE ≠ 2) ∧ (s.dev.overruled = false) ∧ (s.dev.ctl.cmd = 4) ∧ (s.dev.ctl.stop
         = none)) ∧
    (let s : State := onAt 6 2 0 [] (fun d => { d with ctl := { d.ctl with cmd := 2, cmdFrame := 1, faults := [1], faultFrame := 1 } })
     (s.dev.ctl.cmdFrame < s.dev.time.frame) ∧ (s.dev.g F.sys_SYS_STATE_MODE ≠ 2) ∧ (s.dev.overruled = true) ∧ (s.dev.ctl.cmd ≠ 0)) := by
  refine ⟨?_, ?_, ?_, ?_, ?_, ?_⟩ <;> decide +kernel

/-- Inputs that meet the hypotheses of DevResetAndControlledStops. -/
theorem wit_devResetAndControlledStops :
    (let s : State := on 8 [(F.sys_SYS_STATE_FAULT_CAUSE, 2)]
     (s.lets 0x4C) ∧ (¬ (s.dev.st = 8 ∧ s.dev.g F.sys_SYS_STATE_FAULT_CAUSE = 1)) ∧ (s.dev.ctl.resetPend = false) ∧ (s.dev.ctl.stop = none)) ∧
    (let v : Word := 0xDE125E70
     let s : State := on 8 [(F.sys_SYS_STATE_FAULT_CAUSE, 1)]
     (s.lets 0x4C) ∧ ((v ≠ 0xDE125E70 ∨ s.dev.st = 8 ∧ s.dev.g F.sys_SYS_STATE_FAULT_CAUSE = 1))) ∧
    (let s : State := onAt 7 1 0 [] (fun d => { d with ctl := { d.ctl with resetPend := true } })
     (s.dev.ctl.resetPend = true) ∧ (s.dev.ctl.resetFrame < s.dev.time.frame) ∧ (s.dev.ctl.stop = none)) ∧
    (let s : State := on 7 [] (fun d => { d with ctl := { d.ctl with stop := some .abort } })
     (s.dev.ctl.stopLeft = 0) ∧ (s.dev.ctl.stop = some .abort)) ∧
    (let s : State := on 8 [] (fun d => { d with ctl := { d.ctl with stop := some .fault } })
     (s.dev.ctl.stopLeft = 0) ∧ (s.dev.ctl.stop = some .fault)) ∧
    (let s : State := on 7 [] (fun d => { d with ctl := { d.ctl with stop := some .abortFault } })
     (s.dev.ctl.stopLeft = 0) ∧ (s.dev.ctl.stop = some .abortFault)) ∧
    (let s : State := on 7 [] (fun d => { d with ctl := { d.ctl with stop := some .devRest } })
     (s.dev.ctl.stopLeft = 0) ∧ (s.dev.ctl.stop = some .devRest)) := by
  refine ⟨?_, ?_, ?_, ?_, ?_, ?_, ?_⟩ <;> (try unfold State.lets) <;> decide +kernel

/-- Inputs that meet the hypotheses of FaultsAndTheHostWatchdog. -/
theorem wit_faultsAndTheHostWatchdog :
    (let s : State := on 1
     (s.dev.st ≠ 0) ∧ (s.dev.st ≠ 8)) ∧
    (let s : State := on 7 [] (fun d => { d with link := { d.link with everRx := true, missRun := 8 } })
     (s.dev.st ≠ 0) ∧ (s.dev.st ≠ 8) ∧ (s.dev.link.everRx = true) ∧ (8 ≤ s.dev.link.missRun)) ∧
    (let s : State := onAt 2 1 0 [] (fun d => { d with ctl := { d.ctl with faults := [5, 2] } })
     let c : Nat := 5
     let cs : List Nat := [2]
     (2 ≤ s.dev.st) ∧ (s.dev.ctl.faults = c :: cs) ∧ (s.dev.ctl.faultFrame < s.dev.time.frame) ∧ (s.dev.ctl.stop = none) ∧ (s.dev.ctl.cmd = 0) ∧ ((∀ x
         ∈ c :: cs, x < 256))) ∧
    (let s : State := on 5
     (s.lets 0x54)) ∧
    (let s : State := on 6
     (s.lets 0x50) ∧ (s.dev.g (F.hdr_PAGE_CTRL_LOCK 0) = 0)) ∧
    (let s : State := on 6 [(F.sys_HOST_WDOG_TIMEOUT, 1)] (fun d => { d with ctl := { d.ctl with wdogFrames := 400 } })
     (s.dev.st = 6 ∨ s.dev.st = 7) ∧ (s.dev.g F.sys_HOST_WDOG_TIMEOUT ≠ 0) ∧ (s.dev.ctl.wdogExpired = false) ∧ (msFrames (s.dev.g
         F.sys_HOST_WDOG_TIMEOUT) ≤ s.dev.ctl.wdogFrames)) := by
  refine ⟨?_, ?_, ?_, ?_, ?_, ?_⟩ <;> (try unfold State.lets) <;> decide +kernel

/-- Inputs that meet the hypotheses of PcieLinkPowerAndMessages. -/
theorem wit_pcieLinkPowerAndMessages :
    (let s : State := on 5
     (s.dev.st ≠ 0)) ∧
    (let s : State := on 5 [(F.pcie_LINK_STAT_UP, 0)]
     let w : Fin 9 := 8
     let sp : Fin 5 := 4
     (s.dev.st ≠ 0) ∧ (s.dev.g F.pcie_LINK_STAT_UP = 0) ∧ (w.val ∈ [1, 2, 4, 8]) ∧ (sp.val ≠ 0)) ∧
    (let s : State := on 7
     (s.dev.st ≠ 0) ∧ (s.dev.pcie.d3 = false)) ∧
    (let s : State := on 5
     (s.dev.st ≠ 0)) ∧
    (let s : State := on 5 [(F.pcie_LINK_STAT_UP, 1)]
     (s.dev.g F.pcie_LINK_STAT_UP = 1) ∧ (s.dev.pcie.msixEn = false)) ∧
    (let s : State := on 5 [(F.pcie_LINK_STAT_UP, 1)] (fun d => { d with pcie := { d.pcie with msixEn := true, pba := [63] } })
     let v : Fin 64 := 63
     (s.dev.g F.pcie_LINK_STAT_UP = 1) ∧ (s.lets (0x101000 + 16 * v.val + 12)) ∧ (s.dev.pcie.msixEn = true) ∧ (s.dev.pcie.fnMask = false) ∧ (v.val ∈ s.dev.pcie.pba) ∧ ((Tab.at {} s.dev.pcie.hold v.val).until_ ≤ s.dev.now)) ∧
    (let s : State := on 5 [(F.pcie_LINK_STAT_UP, 1)] (fun d => { d with pcie := { d.pcie with msixEn := true, msix := [(3, 0)], hold := [(0, ⟨0, true⟩)] } })
     let v : Fin 64 := 0
     (s.dev.g F.pcie_LINK_STAT_UP = 1) ∧ (s.dev.pcie.msixEn = true) ∧ (s.dev.vecMasked v.val = false) ∧ ((Tab.at {} s.dev.pcie.hold v.val).deferred = true) ∧ ((Tab.at {} s.dev.pcie.hold v.val).until_ ≤ s.dev.now)) := by
  refine ⟨?_, ?_, ?_, ?_, ?_, ?_, ?_⟩ <;> (try unfold State.lets) <;> decide +kernel

/-- Inputs that meet the hypotheses of DramWindowAndBadAccesses. -/
theorem wit_dramWindowAndBadAccesses :
    (let s : State := onMem 2 []
     (s.dev.bar2Live = true) ∧ (s.dev.quiet = true)) ∧
    (let s : State := onMem 2 [(0x7FFFFFFFF, 3)]
     (s.dev.bar2Live = true) ∧ (s.dev.quiet = true)) ∧
    (let s : State := on 1
     (s.dev.bar2Live = false)) ∧
    (let s : State := on 1
     (s.dev.bar2Live = false)) ∧
    (let a : BitVec 26 := 0x46
     let len : Nat := 4
     let s : State := on 5
     (s.dev.st ≠ 0) ∧ (s.dev.goodAccess a.toNat len = false)) ∧
    (let a : BitVec 26 := 0x44
     let s : State := on 5
     (s.lets a.toNat) ∧ (wideWindow a.toNat = false) ∧ (widePair a.toNat = false)) ∧
    (let a : BitVec 26 := 0x44
     let len : Nat := 4
     let s : State := on 5
     (s.dev.st ≠ 0) ∧ (s.dev.goodAccess a.toNat len = true)) ∧
    (let a : BitVec 26 := 0x44
     let len : Nat := 4
     let s : State := on 5
     (s.dev.st ≠ 0) ∧ (s.dev.goodAccess a.toNat len = true)) := by
  refine ⟨?_, ?_, ?_, ?_, ?_, ?_, ?_, ?_⟩ <;> (try unfold State.lets) <;> decide +kernel

/-- Inputs that meet the hypotheses of PageHeadersFollowTheirCommands. -/
theorem wit_pageHeadersFollowTheirCommands :
    (let page : BitVec 26 := 0x8000
     let v : Word := 9
     let s : State := on 5
     let p := page.toNat
     (page.toNat ∈ pageBases) ∧ (s.dev.st ≠ 0) ∧ (Word.f v 3 3 = 1) ∧ (Word.f v 1 1 = 0) ∧ (Word.f v 2 2 = s.dev.g (F.hdr_PAGE_CTRL_LOCK p)) ∧ (Word.f
         v 0 0 = s.dev.g (F.hdr_PAGE_CTRL_ENABLE p))) ∧
    (let page : BitVec 26 := 0x120000
     let s : State := on 5
     (page.toNat ∈ pageBases) ∧ (s.dev.st ≠ 0)) ∧
    (let page : BitVec 26 := 0x8000
     let s : State := on 5
     (page.toNat ∈ pageBases) ∧ (s.dev.st ≠ 0)) ∧
    (let page : BitVec 26 := 0x5000
     let s : State := on 5
     let p := page.toNat
     (page.toNat ∈ pageBases) ∧ (s.dev.st ≠ 0) ∧ (s.dev.g F.sys_SYS_STATE_MODE ≠ 2) ∧ (s.dev.g (F.hdr_PAGE_CTRL_LOCK p) = 0)) ∧
    (let page : BitVec 26 := 0x8000
     let v : Word := 1
     let s : State := on 5 [(F.hdr_PAGE_CTRL_LOCK 0x8000, 1)]
     let p := page.toNat
     (page.toNat ∈ pageBases) ∧ (s.dev.st ≠ 0) ∧ (s.dev.g F.sys_SYS_STATE_MODE ≠ 2) ∧ (s.dev.g (F.hdr_PAGE_CTRL_LOCK p) = 1) ∧ (v ≠ 0)) ∧
    (let page : BitVec 26 := 0x8000
     let v : Word := 0x5
     let s : State := on 5
     let r : PgInfo := pg 0x8000
     let n : Nat := 0
     let p := page.toNat
     let native := s.dev.g F.sys_SYS_STATE_MODE ≠ 2
     let same := Word.f v 0 0 = s.dev.g (F.hdr_PAGE_CTRL_ENABLE p)
     (pageOf page.toNat = some (r, n)) ∧ (page.toNat % 0x1000 = 0) ∧ (s.dev.st ≠ 0) ∧ (Word.f v 3 3 = 0) ∧ (native) ∧ (s.dev.g (F.hdr_PAGE_CTRL_LOCK
         p) = 0) ∧ (Word.f v 2 2 = 1) ∧ (Word.f v 1 1 = 0) ∧ (same)) ∧
    (let page : BitVec 26 := 0x8000
     let v : Word := 0
     let s : State := on 5
     let r : PgInfo := pg 0x8000
     let n : Nat := 0
     let p := page.toNat
     let native := s.dev.g F.sys_SYS_STATE_MODE ≠ 2
     let same := Word.f v 0 0 = s.dev.g (F.hdr_PAGE_CTRL_ENABLE p)
     (pageOf page.toNat = some (r, n)) ∧ (page.toNat % 0x1000 = 0) ∧ (s.dev.st ≠ 0) ∧ (Word.f v 3 3 = 0) ∧ (native) ∧ (s.dev.g (F.hdr_PAGE_CTRL_LOCK
         p) = 0) ∧ (Word.f v 2 2 = 0) ∧ (Word.f v 1 1 = 0) ∧ (¬ same) ∧ (r.pg ≠ .ibex) ∧ (r.pg ≠ .dma) ∧ (r.en = true)) ∧
    (let page : BitVec 26 := 0x80000
     let v : Word := 1
     let s : State := on 5
     let r : PgInfo := pg 0x80000
     let n : Nat := 0
     let p := page.toNat
     let native := s.dev.g F.sys_SYS_STATE_MODE ≠ 2
     let same := Word.f v 0 0 = s.dev.g (F.hdr_PAGE_CTRL_ENABLE p)
     (pageOf page.toNat = some (r, n)) ∧ (page.toNat % 0x1000 = 0) ∧ (s.dev.st ≠ 0) ∧ (Word.f v 3 3 = 0) ∧ (native) ∧ (s.dev.g (F.hdr_PAGE_CTRL_LOCK
         p) = 0) ∧ (Word.f v 2 2 = 0) ∧ (Word.f v 1 1 = 0) ∧ (¬ same) ∧ (r.en = false)) ∧
    (let page : BitVec 26 := 0x6000
     let v : Word := 3
     let s : State := on 7
     let r : PgInfo := pg 0x6000
     let n : Nat := 0
     let p := page.toNat
     let native := s.dev.g F.sys_SYS_STATE_MODE ≠ 2
     let same := Word.f v 0 0 = s.dev.g (F.hdr_PAGE_CTRL_ENABLE p)
     (pageOf page.toNat = some (r, n)) ∧ (page.toNat % 0x1000 = 0) ∧ (s.dev.st ≠ 0) ∧ (Word.f v 3 3 = 0) ∧ (native) ∧ (s.dev.g (F.hdr_PAGE_CTRL_LOCK
         p) = 0) ∧ (Word.f v 2 2 = 0) ∧ (Word.f v 1 1 = 1) ∧ (same) ∧ (r.pg ∈ [.unit, .time, .sys, .boot, .irq, .evr, .hk, .cal, .ddr, .pcie])) ∧
    (let page : BitVec 26 := 0x8000
     let v : Word := 3
     let s : State := on 5
     let r : PgInfo := pg 0x8000
     let n : Nat := 0
     let p := page.toNat
     let native := s.dev.g F.sys_SYS_STATE_MODE ≠ 2
     let same := Word.f v 0 0 = s.dev.g (F.hdr_PAGE_CTRL_ENABLE p)
     (pageOf page.toNat = some (r, n)) ∧ (page.toNat % 0x1000 = 0) ∧ (s.dev.st ≠ 0) ∧ (Word.f v 3 3 = 0) ∧ (native) ∧ (s.dev.g (F.hdr_PAGE_CTRL_LOCK
         p) = 0) ∧ (Word.f v 2 2 = 0) ∧ (Word.f v 1 1 = 1) ∧ (same) ∧ (s.dev.st ≠ 6) ∧ (s.dev.st ≠ 7) ∧ (r.pg ∈ [.seq, .ibex, .fire, .ax, .bp, .eth]))
         ∧
    (let page : BitVec 26 := 0x8000
     let v : Word := 3
     let s : State := on 6
     let r : PgInfo := pg 0x8000
     let n : Nat := 0
     let p := page.toNat
     let native := s.dev.g F.sys_SYS_STATE_MODE ≠ 2
     let same := Word.f v 0 0 = s.dev.g (F.hdr_PAGE_CTRL_ENABLE p)
     (pageOf page.toNat = some (r, n)) ∧ (page.toNat % 0x1000 = 0) ∧ (s.dev.st ≠ 0) ∧ (Word.f v 3 3 = 0) ∧ (native) ∧ (s.dev.g (F.hdr_PAGE_CTRL_LOCK
         p) = 0) ∧ (Word.f v 2 2 = 0) ∧ (Word.f v 1 1 = 1) ∧ (same) ∧ (s.dev.st = 6 ∨ s.dev.st = 7) ∧ (r.pg ∈ [.seq, .hd, .loop, .ploop, .ibex, .fire,
         .ax, .bp, .cp, .ip, .iso, .led])) ∧
    (let page : BitVec 26 := 0x8000
     let v : Word := 0
     let s : State := on 5 [(F.hdr_PAGE_CTRL_LOCK 0x8000, 1)]
     let r : PgInfo := pg 0x8000
     let n : Nat := 0
     let p := page.toNat
     let native := s.dev.g F.sys_SYS_STATE_MODE ≠ 2
     let same := Word.f v 0 0 = s.dev.g (F.hdr_PAGE_CTRL_ENABLE p)
     (pageOf page.toNat = some (r, n)) ∧ (page.toNat % 0x1000 = 0) ∧ (s.dev.st ≠ 0) ∧ (Word.f v 3 3 = 0) ∧ (native) ∧ (s.dev.g (F.hdr_PAGE_CTRL_LOCK
         p) = 1) ∧ (Word.f v 2 2 = 0 ∨ Word.f v 1 1 = 1 ∨ ¬ same)) ∧
    (let page : BitVec 26 := 0x8000
     let v : Word := 0
     let s : State := on 5 [(F.sys_SYS_STATE_MODE, 2)]
     let r : PgInfo := pg 0x8000
     let n : Nat := 0
     let p := page.toNat
     (pageOf page.toNat = some (r, n)) ∧ (page.toNat % 0x1000 = 0) ∧ (s.dev.st ≠ 0) ∧ (Word.f v 3 3 = 0) ∧ (s.dev.g F.sys_SYS_STATE_MODE = 2) ∧
         (scWhole p = false)) := by
  refine ⟨?_, ?_, ?_, ?_, ?_, ?_, ?_, ?_, ?_, ?_, ?_, ?_, ?_⟩ <;> decide +kernel

/-- Inputs that meet the hypotheses of ShadowPointsReleaseAndCounters. -/
theorem wit_shadowPointsReleaseAndCounters :
    (let page : BitVec 26 := 0x10000
     let v : Word := 2
     let s : State := on 5
     let r : PgInfo := pg 0x10000
     let n : Nat := 0
     (pageOf page.toNat = some (r, n)) ∧ (page.toNat % 0x1000 = 0) ∧ (s.dev.st ≠ 0) ∧ (s.dev.g F.sys_SYS_STATE_MODE ≠ 2) ∧ (s.dev.g
         (F.hdr_PAGE_CTRL_LOCK page.toNat) = 0) ∧ (r.shd = true) ∧ ((Word.f v 1 0 ≠ 1 ∨ r.lc = true))) ∧
    (let page : BitVec 26 := 0x6000
     let s : State := on 5
     let r : PgInfo := pg 0x6000
     let n : Nat := 0
     (pageOf page.toNat = some (r, n)) ∧ (page.toNat % 0x1000 = 0) ∧ (s.dev.st ≠ 0) ∧ (s.dev.g F.sys_SYS_STATE_MODE ≠ 2) ∧ (s.dev.g
         (F.hdr_PAGE_CTRL_LOCK page.toNat) = 0) ∧ (r.shd = false)) ∧
    (let v : Word := 1
     let s : State := on 5 [(F.hdr_SHADOW_CTRL_POINT 0x10000, 2)]
     (s.lets 0x58) ∧ (Word.f v 0 0 = 1)) ∧
    (let a : BitVec 26 := 0x3F398
     let s : State := on 5
     let h : Nat := 47
     (s.lets a.toNat) ∧ (h < 48) ∧ (a.toNat = hdPage h + 0x398)) ∧
    (let a : BitVec 26 := 0x8B064
     let s : State := on 5
     let n : Nat := 11
     (s.lets a.toNat) ∧ (n < 12) ∧ (a.toNat = cpPage n + 0x64)) ∧
    (let a : BitVec 26 := 0xB7050
     let s : State := on 5
     let n : Nat := 7
     (s.lets a.toNat) ∧ (n < 8) ∧ (a.toNat = bpPage n + 0x50)) ∧
    (let a : BitVec 26 := 0x1100F8
     let s : State := on 5
     let n : Nat := 1
     (s.lets a.toNat) ∧ (n < 2) ∧ (a.toNat = 0x1100B8 + 0x40 * n)) ∧
    (let a : BitVec 26 := 0x120090
     let s : State := on 5
     (s.lets a.toNat) ∧ (a.toNat = isoPage + 0x90)) := by
  refine ⟨?_, ?_, ?_, ?_, ?_, ?_, ?_, ?_⟩ <;> (try unfold State.lets) <;> decide +kernel

/-- Inputs that meet the hypotheses of PlainRegistersFollowTheirAccessCodes. -/
theorem wit_plainRegistersFollowTheirAccessCodes :
    (let a : BitVec 26 := 0x2100
     let v : Word := 3
     let s : State := on 5
     let r : PgInfo := pg 0x2100
     let n : Nat := 0
     let rows := rowsAt r.pg (a.toNat % 0x1000)
     let m := BitVec.ofNat 32 (accMask rows (fun x => x == .rw || x == .rws))
     (pageOf a.toNat = some (r, n)) ∧ (a.toNat % 4 = 0) ∧ (0x40 ≤ a.toNat % 0x1000) ∧ (r.pg = .irq ∨ r.pg = .ploop) ∧ (s.lets a.toNat) ∧ (s.dev.g
         (F.hdr_PAGE_CTRL_LOCK (pageBase a.toNat)) = 0 ∨ (s.dev.reg a.toNat ^^^ v) &&& m = 0)) ∧
    (let a : BitVec 26 := 0x2100
     let v : Word := 3
     let s : State := on 5 [(F.hdr_PAGE_CTRL_LOCK 0x2000, 1)]
     let r : PgInfo := pg 0x2100
     let n : Nat := 0
     let rows := rowsAt r.pg (a.toNat % 0x1000)
     let m := BitVec.ofNat 32 (accMask rows (fun x => x == .rw || x == .rws))
     (pageOf a.toNat = some (r, n)) ∧ (a.toNat % 4 = 0) ∧ (0x40 ≤ a.toNat % 0x1000) ∧ (r.pg = .irq ∨ r.pg = .ploop) ∧ (s.lets a.toNat) ∧ (s.dev.g
         (F.hdr_PAGE_CTRL_LOCK (pageBase a.toNat)) = 1) ∧ ((s.dev.reg a.toNat ^^^ v) &&& m ≠ 0)) := by
  refine ⟨?_, ?_⟩ <;> (try unfold State.lets) <;> decide +kernel

/-- Inputs that meet the hypotheses of SequencerTableIsWrittenInIdleOnly. -/
theorem wit_sequencerTableIsWrittenInIdleOnly :
    (let ofs : BitVec 16 := 0xFFFC
     let s : State := on 5
     (s.lets (0x1010000 + ofs.toNat)) ∧ (ofs.toNat % 4 = 0) ∧ (s.dev.st = 5)) ∧
    (let ofs : BitVec 16 := 0
     let s : State := on 6
     (s.lets (0x1010000 + ofs.toNat)) ∧ (ofs.toNat % 4 = 0) ∧ (s.dev.st ≠ 5)) := by
  refine ⟨?_, ?_⟩ <;> (try unfold State.lets) <;> decide +kernel

/-- Inputs that meet the hypotheses of ContextsTableCheckAndQueueReset. -/
theorem wit_contextsTableCheckAndQueueReset :
    (let ofs : BitVec 15 := 0x7FFC
     let s : State := on 7
     (s.lets (0x1000000 + ofs.toNat)) ∧ (ofs.toNat % 4 = 0) ∧ (0x80 ≤ ofs.toNat)) ∧
    (let ofs : BitVec 15 := 0x7C
     let s : State := on 7
     (s.lets (0x1000000 + ofs.toNat)) ∧ (ofs.toNat % 4 = 0) ∧ (ofs.toNat < 0x80)) ∧
    (let v : Word := 0x1FF
     let s : State := on 7
     (s.lets 0x8070) ∧ (Word.f v 7 0 ≠ 0)) ∧
    (let v : Word := 0x100
     let s : State := on 7
     (s.lets 0x8070) ∧ (Word.f v 7 0 = 0)) ∧
    (let v : Word := 1
     let s : State := on 7
     (s.lets 0x804C) ∧ (Word.f v 0 0 = 1)) ∧
    (let v : Word := 1
     let s : State := on 5 [(F.seq_LQ_RD, 3)]
     (s.lets 0x8060) ∧ (Word.f v 0 0 = 1) ∧ (s.dev.st = 5)) ∧
    (let v : Word := 1
     let s : State := on 7 [(F.seq_LQ_RD, 3)]
     (s.lets 0x8060) ∧ (Word.f v 0 0 = 1) ∧ (s.dev.st ≠ 5)) := by
  refine ⟨?_, ?_, ?_, ?_, ?_, ?_, ?_⟩ <;> (try unfold State.lets) <;> decide +kernel

/-- Inputs that meet the hypotheses of SequencerEntriesActAndWait. -/
theorem wit_sequencerEntriesActAndWait :
    (let s : State := atE 0
     let d := s.dev
     (d.atEntry 0x00)) ∧
    (let s : State := atE 9
     let d := s.dev
     (d.atEntry 0x09)) ∧
    (let s : State := atE 0x0A
     let d := s.dev
     (d.atEntry 0x0A)) ∧
    (let s : State := atE 0x0B
     let d := s.dev
     (d.atEntry 0x0B)) ∧
    (let s : State := atE 0x0C
     let d := s.dev
     (d.atEntry 0x0C)) ∧
    (let s : State := on 7 [] (fun d => entry 7 0 3 1 0 { d with seq := { d.seq with fresh := true } })
     let d := s.dev
     (d.atEntry 0x07)) ∧
    (let s : State := on 7 [] (fun d => entry 4 0x8001 0 0 0 { d with seq := { d.seq with fresh := true } })
     let d := s.dev
     (d.atEntry 0x04)) ∧
    (let s : State := atE 0x0D
     let d := s.dev
     (d.atEntry 0x0D)) ∧
    (let s : State := atE 1
     let d := s.dev
     (d.atEntry 0x01) ∧ (¬ (d.stopPending = true ∧ d.g F.seq_LAYER_STAT_OPEN = 0))) ∧
    (let s : State := on 7 [] (fun d => entry 1 0 0 0 0 { d with seq := { d.seq with fresh := true }, ctl := { d.ctl with cmd := 3 } })
     let d := s.dev
     (d.atEntry 0x01) ∧ (d.stopPending = true) ∧ (d.g F.seq_LAYER_STAT_OPEN = 0)) ∧
    (let s : State := atE 3
     let d := s.dev
     (d.atEntry 0x03)) ∧
    (let s : State := atE 5
     let d := s.dev
     (d.atEntry 0x05)) ∧
    (let s : State := atE 6
     let d := s.dev
     (d.atEntry 0x06)) ∧
    (let s : State := atE 8
     let d := s.dev
     (d.atEntry 0x08)) ∧
    (let s : State := onAt 7 5 0 [] (entry 6 0 5 0 0)
     let d := s.dev
     (d.waitsAt 0x06) ∧ (d.seq.takenFrame + d.entA1 d.pc ≤ d.time.frame)) ∧
    (let s : State := onAt 7 1 0 [(F.seq_SEQ_STAT_STEP, 2)] (entry 8 0 0 0 0)
     let d := s.dev
     (d.waitsAt 0x05 ∨ d.waitsAt 0x08) ∧ (d.g F.seq_SEQ_STAT_STEP = 2) ∧ (d.seq.takenFrame < d.time.frame) ∧ (d.waitOk = true)) ∧
    (let s : State := onAt 7 3 0 [(F.seq_SEQ_STAT_STEP, 2)] (entry 5 1 3 0 0)
     let d := s.dev
     (d.waitsAt 0x05 ∨ d.waitsAt 0x08) ∧ (d.g F.seq_SEQ_STAT_STEP = 2) ∧ (d.waitTimeout ≠ 0) ∧ (d.seq.takenFrame + d.waitTimeout ≤ d.time.frame) ∧
         (d.waitOk = false)) ∧
    (let s : State := on 7 [(F.seq_SEQ_STAT_STEP, 4)]
     let d := s.dev
     let v : Word := 0x434F
     (s.lets 0x807C) ∧ (d.g F.seq_SEQ_STAT_STEP = 4) ∧ (Word.f v 15 0 = 0x434F)) ∧
    (let s : State := on 7 [(F.seq_SEQ_STAT_STEP, 4)]
     let d := s.dev
     let v : Word := 0x434E
     (s.lets 0x807C) ∧ (d.g F.seq_SEQ_STAT_STEP = 4) ∧ (Word.f v 15 0 ≠ 0x434F)) := by
  refine ⟨?_, ?_, ?_, ?_, ?_, ?_, ?_, ?_, ?_, ?_, ?_, ?_, ?_, ?_, ?_, ?_, ?_, ?_, ?_⟩ <;> (try unfold State.lets) <;> (try unfold Dev.atEntry) <;> (try unfold Dev.waitsAt) <;> decide +kernel

/-- Inputs that meet the hypotheses of FramesAndLayersGoOn. -/
theorem wit_framesAndLayersGoOn :
    (let s : State := on 7 [] (fun d => { d with ctl := { d.ctl with pllLocked := true } })
     (s.dev.ctl.pllLocked = true)) ∧
    (let s : State := on 7
     (s.dev.ctl.pllLocked = false)) ∧
    (let s : State := onAt 7 1 0 [] (fun d => entry 1 0 0 0 0 { d with seq := { d.seq with okFrame := some 0, desc := [0, 7, 1] } })
     (s.dev.mayOpen = true)) ∧
    (let s : State := on 7
     (s.dev.mayOpen = false)) ∧
    (let s : State := on 7 [(F.seq_LAYER_STAT_OPEN, 1)] (fun d => entry 2 0 0 0 0 { d with seq := { d.seq with fresh := true } })
     (s.dev.atEntry 0x02)) ∧
    (let s : State := onAt 7 2 0 [(F.seq_LAYER_STAT_OPEN, 1)] (entry 3 0 0 0 0)
     (s.dev.atLayerEnd = true)) := by
  refine ⟨?_, ?_, ?_, ?_, ?_, ?_⟩ <;> (try unfold Dev.atEntry) <;> decide +kernel

/-- Inputs that meet the hypotheses of StreamsFetchAndResume. -/
theorem wit_streamsFetchAndResume :
    (let h : Fin 48 := 47
     let s : State := on 7 [] (·.hdUpd 47 (fun h => { h with active := true, bad := true }))
     let hd := s.dev.hd h.val
     (s.lets (F.hd_STREAM_RETRY h.val).addr) ∧ (hd.active = true) ∧ ((hd.bad = true ∨ hd.under = true))) ∧
    (let h : Fin 48 := 47
     let s : State := on 7 [] (·.hdUpd 47 (fun h => { h with active := true }))
     let hd := s.dev.hd h.val
     (s.lets (F.hd_STREAM_RETRY h.val).addr) ∧ (hd.active = false ∨ (hd.bad = false ∧ hd.under = false))) ∧
    (let h : Fin 48 := 47
     let s : State := onMem 7 (ram 64 [0x10, 1]) [] (·.hdUpd 47 (fun h => { h with req := true, count := 2, fetched := 1, addr := 64 }))
     let hd := s.dev.hd h.val
     (hd.req = true) ∧ (hd.fetched < hd.count) ∧ (s.dev.quiet = true)) ∧
    (let h : Fin 48 := 47
     let s : State := onAt 7 5 0 [] (·.hdUpd 47 (fun h => { h with under := true, buf := [{}], count := 1, fetched := 1, arrived := 4 }))
     let hd := s.dev.hd h.val
     (hd.under = true) ∧ ((hd.rec? 0).isSome = true) ∧ (s.dev.time.cycle = 0) ∧ (hd.arrived < s.dev.time.frame)) := by
  refine ⟨?_, ?_, ?_, ?_⟩ <;> (try unfold State.lets) <;> decide +kernel

/-- Inputs that meet the hypotheses of ServoModesAndHostCommands. -/
theorem wit_servoModesAndHostCommands :
    (let n : Fin 160 := 143
     let s : State := on 7 [(sf F.slot_SLOT_STAT_MODE 143, 1), (sf F.slot_SAT_LIMIT 143, 5)] (·.slotUpd 143 (fun x => { x with satCount := 5 }))
     let d := s.dev
     let sl := d.slot n.val
     (d.mode n.val = 1 ∨ d.mode n.val = 4 ∨ d.mode n.val = 5) ∧ (sl.lawFb = false) ∧ (d.v (sf F.slot_SAT_LIMIT n.val) ≠ 0) ∧ (d.v (sf F.slot_SAT_LIMIT
         n.val) ≤ sl.satCount)) ∧
    (let n : Fin 160 := 143
     let s : State := onAt 7 5 0 [(sf F.slot_SLOT_STAT_MODE 143, 3), (sf F.slot_COAST_MAX 143, 2), (sf F.slot_SLOT_STAT_COAST_COUNT 143, 3)]
     let d := s.dev
     let h := 47
     let a := 2
     (d.servesAxis n.val = some (h, a)) ∧ (d.mode n.val = 3) ∧ (d.v (sf F.slot_COAST_MAX n.val) < d.g (sf F.slot_SLOT_STAT_COAST_COUNT n.val))) ∧
    (let n : Fin 160 := 143
     let s : State := on 7 [(sf F.slot_SLOT_STAT_MODE 143, 4), (F.hd_PARK_TIME 47, 9)] (·.slotUpd 143 (fun x => { x with parkFrames := 9, parkRun := 3 }))
     let d := s.dev
     let sl := d.slot n.val
     let h := 47
     let a := 2
     (d.servesAxis n.val = some (h, a)) ∧ (d.mode n.val = 4) ∧ (d.v (F.hd_PARK_TIME h) ≤ sl.parkFrames) ∧ (sl.parkRun < 4)) ∧
    (let n : Fin 160 := 143
     let s : State := on 7 [(sf F.slot_SLOT_STAT_MODE 143, 2), (sf F.slot_RECOVER 143, 4)] (·.slotUpd 143 (fun x => { x with clean := 4 }))
     let d := s.dev
     let sl := d.slot n.val
     let h := 47
     let a := 2
     (d.servesAxis n.val = some (h, a)) ∧ (d.mode n.val = 2) ∧ (d.v (sf F.slot_RECOVER n.val) ≤ sl.clean) ∧ (d.v (sf F.slot_SLOT_CTRL_FB_FORCE n.val)
         = 0) ∧ ((d.hd h).litIn (d.time.frame + 2) = false)) ∧
    (let n : Fin 160 := 143
     let s : State := on 7 [(sf F.slot_SLOT_STAT_MODE 143, 4)] (·.slotUpd 143 (fun x => { x with parkRun := 4 }))
     let d := s.dev
     let sl := d.slot n.val
     let h := 47
     let a := 2
     (d.servesAxis n.val = some (h, a)) ∧ (d.mode n.val = 4) ∧ (4 ≤ sl.parkRun)) ∧
    (let n : Fin 160 := 143
     let s : State := on 7 [(sf F.slot_SLOT_STAT_MODE 143, 2), (sf F.slot_FE_TIME 143, 2), (sf F.slot_SLOT_STAT_FE_COUNT 143, 3)]
     let d := s.dev
     let h := 47
     let a := 2
     (d.servesAxis n.val = some (h, a)) ∧ (d.mode n.val = 1 ∨ d.mode n.val = 2) ∧ (d.v (sf F.slot_FE_TIME n.val) < d.g (sf F.slot_SLOT_STAT_FE_COUNT
         n.val))) ∧
    (let h : Fin 48 := 47
     let v : Word := 1
     let s : State := on 7
     (s.lets (F.hd_PARK_REQ h.val).addr) ∧ (Word.f v 0 0 = 1)) ∧
    (let h : Fin 48 := 47
     let v : Word := 0x52530000
     let s : State := on 7 [(sf F.slot_SLOT_STAT_MODE 143, 6)]
     (s.lets (F.hd_SERVO_RESTART h.val).addr) ∧ (Word.f v 31 16 = 0x5253) ∧ (Word.f v 15 0 ≠ 0x4643)) ∧
    (let h : Fin 48 := 47
     let v : Word := 0x52540000
     let s : State := on 7 [(sf F.slot_SLOT_FLAGS_FE_FAULT 143, 1)]
     (s.lets (F.hd_SERVO_RESTART h.val).addr) ∧ (Word.f v 31 16 ≠ 0x5253) ∧ (Word.f v 15 0 ≠ 0x4643)) ∧
    (let h : Fin 48 := 47
     let s : State := on 7 [] (fun d => ((d.hdUpd 47 (fun h => { h with restart := true })).slotUpd 141 (fun x => { x with holdRun := 400 })).slotUpd 142 (fun x => { x with holdRun := 400 }) |>.slotUpd 143 (fun x => { x with holdRun := 400 }))
     ((s.dev.hd h.val).restart = true) ∧ ((∀ n ∈ s.dev.headSlots h.val, 400 ≤ (s.dev.slot n).holdRun))) ∧
    (let h : Fin 48 := 47
     let v : Word := 0x4643
     let s : State := on 7 [(F.hd_FC_STAT_HOST_WRITTEN 47, 1)]
     (s.lets (F.hd_FC_ACCEPT h.val).addr) ∧ (Word.f v 15 0 = 0x4643) ∧ (Word.f v 31 16 ≠ 0x5253)) ∧
    (let h : Fin 48 := 47
     let s : State := on 5
     let ofs : BitVec 22 := 0x2F8404
     (s.lets (0x1100000 + ofs.toNat)) ∧ (ofs.toNat % 4 = 0) ∧ (ofs.toNat / 0x10000 = h.val) ∧ (ofs.toNat % 0x10000 < 33800) ∧ (s.dev.st = 5)) ∧
    (let h : Fin 48 := 47
     let s : State := on 6
     let ofs : BitVec 22 := 0x2F8404
     (s.lets (0x1100000 + ofs.toNat)) ∧ (ofs.toNat % 4 = 0) ∧ (ofs.toNat / 0x10000 = h.val) ∧ (ofs.toNat % 0x10000 < 33800) ∧ (s.dev.st ≠ 5)) := by
  refine ⟨?_, ?_, ?_, ?_, ?_, ?_, ?_, ?_, ?_, ?_, ?_, ?_, ?_⟩ <;> (try unfold State.lets) <;> decide +kernel

/-- Inputs that meet the hypotheses of TracesCapture. -/
theorem wit_tracesCapture :
    (let p : Fin 10 := 9
     let s : State := on 7
     (s.lets (F.loop_TRACE_ARM p.val).addr)) ∧
    (let p : Fin 10 := 9
     let s : State := on 7 [(sf F.slot_TRACE_STAT_STATE 144, 1)]
     (s.lets (F.loop_TRACE_FORCE p.val).addr)) ∧
    (let n : Fin 160 := 159
     let s : State := on 7 [(sf F.slot_TRACE_STAT_STATE 159, 2), (sf F.slot_TRACE_TRIG_PRE 159, 16)] (·.slotUpd 159 (fun x => { x with tTrig := 20, tIdx := 4100, tBurst := [1, 2, 3, 4], tBurstIdx := 3 }))
     (s.dev.g (sf F.slot_TRACE_STAT_STATE n.val) = 2) ∧ ((s.dev.slot n.val).tTrig + 4096 - s.dev.g (sf F.slot_TRACE_TRIG_PRE n.val) ≤ (s.dev.slot
         n.val).tIdx)) ∧
    (let n : Fin 160 := 159
     let s : State := on 7 [] (fun d => { d with traceQ := [(159, 0x40, [1])] })
     (s.dev.traceQ.any (fun q => q.1 == n.val) = true)) := by
  refine ⟨?_, ?_, ?_, ?_⟩ <;> (try unfold State.lets) <;> decide +kernel

/-- Inputs that meet the hypotheses of DropoutsAndCassettes. -/
theorem wit_dropoutsAndCassettes :
    (let h : Fin 48 := 47
     let s : State := on 7 [(F.hd_DROP_CTRL_LIMIT 47, 3), (F.hd_DROP_COUNT 47, 3), (F.hd_DROP_CTRL_FAIL_Q 47, 8)] (·.hdUpd 47 (fun h => { h with dropOpen := true }))
     let d := s.dev
     (d.g (F.hd_FAIL_FAILED h.val) = 0) ∧ (((d.hd h.val).dropFail ≠ none ∨ (d.hd h.val).dropOpen = true ∧ (d.v (F.hd_DROP_CTRL_LIMIT h.val) ≠ 0 ∧ d.v
         (F.hd_DROP_CTRL_LIMIT h.val) ≤ d.g (F.hd_DROP_COUNT h.val) ∨ d.v (F.hd_DROP_CTRL_FAIL_Q h.val) ≤ (d.hd h.val).dropQ)))) ∧
    (let h : Fin 48 := 47
     let s : State := on 7 [(F.hd_LANE_STAT_STATE 47, 3)]
     let d := s.dev
     (s.lets (F.hd_CAS_REREAD h.val).addr) ∧ (d.laneSt h.val = 3)) ∧
    (let h : Fin 48 := 47
     let s : State := on 7 [(F.hd_LANE_STAT_STATE 47, 2)]
     let d := s.dev
     (s.lets (F.hd_CAS_REREAD h.val).addr) ∧ (d.laneSt h.val ≠ 3)) ∧
    (let h : Fin 48 := 47
     let s : State := on 7 [(F.fire_CAS_STEP, 1), (F.hd_LANE_STAT_STATE 47, 3), (F.hd_CAS_STAT_STATE 47, 2)] (·.hdUpd 47 (fun h => { h with cas := { h.cas with energy := 2000000000, limit := 9 } }))
     let d := s.dev
     let c := (d.hd h.val).cas
     (d.g F.fire_CAS_STEP * 2000000000 ≤ c.energy) ∧ (c.failed = false) ∧ (d.laneSt h.val = 3) ∧ (c.sent = []) ∧ (d.g (F.hd_CAS_STAT_STATE h.val) =
         2)) ∧
    (let h : Fin 48 := 47
     let s : State := on 7 [(F.fire_CAS_STEP, 1), (F.hd_LANE_STAT_STATE 47, 2), (F.hd_CAS_STAT_STATE 47, 2)] (·.hdUpd 47 (fun h => { h with cas := { h.cas with energy := 2000000000, limit := 9 } }))
     let d := s.dev
     let c := (d.hd h.val).cas
     (d.g F.fire_CAS_STEP * 2000000000 ≤ c.energy) ∧ (c.failed = false) ∧ (d.laneSt h.val ≠ 3) ∧ (c.sent = []) ∧ (d.g (F.hd_CAS_STAT_STATE h.val) =
         2)) ∧
    (let h : Fin 48 := 47
     let s : State := onAt 7 9 0 [(F.fire_CAS_TIMEOUT, 5)] (·.hdUpd 47 (fun h => { h with cas := { h.cas with sent := [1], sentFrame := 4 } }))
     let d := s.dev
     let c := (d.hd h.val).cas
     (c.sent ≠ []) ∧ (c.sentFrame + d.g F.fire_CAS_TIMEOUT ≤ d.time.frame)) ∧
    (let h : Fin 48 := 47
     let s : State := on 7 [(F.hd_CAS_STAT_STATE 47, 2)] (·.hdUpd 47 (fun h => { h with cas := { h.cas with limit := 2, used := 1, energy := 2000000000 } }))
     let d := s.dev
     let c := (d.hd h.val).cas
     (d.g (F.hd_CAS_STAT_STATE h.val) = 2) ∧ (c.limit * 2000000000 ≤ c.used * 2000000000 + c.energy) ∧ (c.exhausted = false)) := by
  refine ⟨?_, ?_, ?_, ?_, ?_, ?_, ?_⟩ <;> (try unfold State.lets) <;> decide +kernel

/-- Inputs that meet the hypotheses of CassetteKeyIsLoadedInIdle. -/
theorem wit_cassetteKeyIsLoadedInIdle :
    (let k : Fin 8 := 7
     let s : State := on 5 [] (fun d => { d with hand := { d.hand with casLoaded := 127 } })
     (s.lets (F.fire_CAS_KEY k.val).addr) ∧ (s.dev.st = 5)) ∧
    (let k : Fin 8 := 7
     let s : State := on 6
     (s.lets (F.fire_CAS_KEY k.val).addr) ∧ (s.dev.st ≠ 5)) := by
  refine ⟨?_, ?_⟩ <;> (try unfold State.lets) <;> decide +kernel

/-- Inputs that meet the hypotheses of HeadsFailAndRejoin. -/
theorem wit_headsFailAndRejoin :
    (let v : Word := 0x4644002F
     let s : State := on 7
     let h : Nat := 47
     (s.lets F.ibex_FAIL_REQ_KEY.addr) ∧ (h < 48) ∧ (Word.f v 31 16 = 0x4644) ∧ (Word.f v 5 0 = h)) ∧
    (let v : Word := 0x46450000
     let s : State := on 7
     (s.lets F.ibex_FAIL_REQ_KEY.addr) ∧ (Word.f v 31 16 ≠ 0x4644)) ∧
    (let h : Fin 48 := 47
     let s : State := onAt 7 1 0 [] (·.hdUpd 47 (fun h => { h with failPend := some 7 }))
     let c := 7
     ((s.dev.hd h.val).failPend = some c) ∧ ((s.dev.hd h.val).failFrame < s.dev.time.frame) ∧ (s.dev.time.cycle = 0) ∧ (s.dev.g (F.hd_FAIL_FAILED
         h.val) = 0)) ∧
    (let h : Fin 48 := 47
     let s : State := onAt 7 1 0 [(F.hd_FAIL_FAILED 47, 1), (sf F.slot_SLOT_STAT_MODE 143, 7)] (·.hdUpd 47 (fun h => { h with failPend := some 1 }))
     let c := 1
     ((s.dev.hd h.val).failPend = some c) ∧ ((s.dev.hd h.val).failFrame < s.dev.time.frame) ∧ (s.dev.time.cycle = 0) ∧ (s.dev.g (F.hd_FAIL_FAILED
         h.val) = 1)) ∧
    (let h : Fin 48 := 47
     let s : State := onAt 7 1 0 [] (·.hdUpd 47 (fun h => { h with failPend := some 7, failFrame := 1 }))
     let c := 7
     ((s.dev.hd h.val).failPend = some c) ∧ (s.dev.time.frame ≤ (s.dev.hd h.val).failFrame ∨ s.dev.time.cycle ≠ 0)) ∧
    (let h : Fin 48 := 47
     let s : State := on 7
     let v : Word := 0x524A
     (s.lets (F.hd_REJOIN h.val).addr) ∧ (Word.f v 15 0 = 0x524A)) ∧
    (let h : Fin 48 := 47
     let s : State := on 7
     let v : Word := 0x524B
     (s.lets (F.hd_REJOIN h.val).addr) ∧ (Word.f v 15 0 ≠ 0x524A)) ∧
    (let h : Fin 48 := 47
     let s : State := on 7 [(F.hd_IBEX_STAT_HELD 47, 1), (F.ibex_HOLD_MAX, 9), (F.hd_IBEX_STAT_HOLD_FRAMES 47, 9)]
     (s.dev.g (F.hd_IBEX_STAT_HELD h.val) = 1) ∧ ((s.dev.hd h.val).holdLong = false) ∧ (s.dev.v F.ibex_HOLD_MAX ≤ s.dev.g (F.hd_IBEX_STAT_HOLD_FRAMES
         h.val))) ∧
    (let s : State := on 7 [] (fun d => { d with hand := { d.hand with storeFull := true } })
     (s.dev.hand.storeFull = true) ∧ (s.dev.hoCount < 7168)) := by
  refine ⟨?_, ?_, ?_, ?_, ?_, ?_, ?_, ?_, ?_⟩ <;> (try unfold State.lets) <;> decide +kernel

/-- Inputs that meet the hypotheses of TileMapAndEdits. -/
theorem wit_tileMapAndEdits :
    (let ofs : BitVec 18 := 4
     let v : Word := 0x80
     let s : State := on 5 [(F.ibex_TILE_DIM_NX, 1), (F.ibex_TILE_DIM_NY, 1)]
     let n := ofs.toNat / 8
     let w := (Tab.at 0 s.dev.tiles n).toNat
     let w' := if ofs.toNat / 4 % 2 = 0 then w / 2 ^ 32 * 2 ^ 32 + v.toNat else v.toNat * 2 ^ 32 + w % 2 ^ 32
     (s.lets (0x1020000 + ofs.toNat)) ∧ (ofs.toNat % 4 = 0) ∧ (s.dev.st = 5) ∧ (tileBad w' = false)) ∧
    (let ofs : BitVec 18 := 8
     let v : Word := 0x80
     let s : State := on 5 [(F.ibex_TILE_DIM_NX, 2), (F.ibex_TILE_DIM_NY, 1)]
     let hi : Word := 0x81
     (s.lets (0x1020000 + ofs.toNat)) ∧ (ofs.toNat % 4 = 0) ∧ (ofs.toNat % 8 = 0) ∧ (s.dev.st = 5) ∧ (tileBad (v.toNat + hi.toNat * 2 ^ 32) = false))
         ∧
    (let ofs : BitVec 18 := 0
     let v : Word := 0xB0
     let s : State := on 5
     let n := ofs.toNat / 8
     let w := (Tab.at 0 s.dev.tiles n).toNat
     let w' := if ofs.toNat / 4 % 2 = 0 then w / 2 ^ 32 * 2 ^ 32 + v.toNat else v.toNat * 2 ^ 32 + w % 2 ^ 32
     (s.lets (0x1020000 + ofs.toNat)) ∧ (ofs.toNat % 4 = 0) ∧ (s.dev.st ≠ 5 ∨ tileBad w' = true)) ∧
    (let v : Word := 0x54450000
     let s : State := on 7 [(F.ibex_TILE_EDIT_LO, 0xAF)]
     let w := s.dev.g F.ibex_TILE_EDIT_LO + s.dev.g F.ibex_TILE_EDIT_HI * 2 ^ 32
     (s.lets F.ibex_TILE_EDIT_CMD_KEY.addr) ∧ (Word.f v 31 16 = 0x5445) ∧ (tileBad w = false)) ∧
    (let v : Word := 0x54450000
     let s : State := on 7 [(F.ibex_TILE_EDIT_LO, 0xB0)]
     let w := s.dev.g F.ibex_TILE_EDIT_LO + s.dev.g F.ibex_TILE_EDIT_HI * 2 ^ 32
     (s.lets F.ibex_TILE_EDIT_CMD_KEY.addr) ∧ (Word.f v 31 16 = 0x5445) ∧ (tileBad w = true)) ∧
    (let v : Word := 0x54440000
     let s : State := on 7
     (s.lets F.ibex_TILE_EDIT_CMD_KEY.addr) ∧ (Word.f v 31 16 ≠ 0x5445)) := by
  refine ⟨?_, ?_, ?_, ?_, ?_, ?_⟩ <;> (try unfold State.lets) <;> decide +kernel

/-- Inputs that meet the hypotheses of PowerLoopRecordsPinsAndStaleTerms. -/
theorem wit_powerLoopRecordsPinsAndStaleTerms :
    (let n : Fin 56 := 47
     let s : State := on 7 [(pf F.pl_PIN_TIME 47, 2), (pf F.pl_PL_STAT_PIN_COUNT 47, 3)] (·.plUpd 47 (fun p => { p with pinAt := some ({}, 0), demand := -5 }))
     let p := s.dev.pls n.val
     (s.dev.v (pf F.pl_PIN_TIME n.val) < s.dev.g (pf F.pl_PL_STAT_PIN_COUNT n.val)) ∧ (p.pinLogged = false) ∧ (s.dev.g (pf F.pl_PL_MAP_MAPPED n.val) =
         1) ∧ (p.pinAt ≠ none)) ∧
    (let n : Fin 56 := 47
     let s : State := on 7 [(pf F.pl_FF_SRC_EN 47, 1), (pf F.pl_FF_AGE_HOLD 47, 2)] (·.plUpd 47 (fun p => { p with age := 3 }))
     let p := s.dev.pls n.val
     (s.dev.v (pf F.pl_FF_SRC_EN n.val) = 1) ∧ (s.dev.v (pf F.pl_FF_AGE_HOLD n.val) < p.age) ∧ (p.stale = false)) := by
  refine ⟨?_, ?_⟩ <;> decide +kernel

/-- Inputs that meet the hypotheses of LanesReceive. -/
theorem wit_lanesReceive :
    (let h : Fin 48 := 47
     let s : State := onAt 7 9 240 [(F.hd_LANE_STAT_STATE 47, 3)]
     let d := s.dev
     let l := d.lane h.val
     let start : BitVec 10 := (grp ((blk 62 9) ++ [0])).headD 0
     let groups : List (BitVec 10) := (grp ((blk 62 9) ++ [0])).drop 1
     let r := rxFrame l.rdRx (start :: groups)
     let c := r.chars
     (d.laneSt h.val = 2 ∨ d.laneSt h.val = 3) ∧ (r.sof = true) ∧ (blockOk c r.bad 1 62 = true) ∧ (leAt c 1 2 = d.time.frame % 65536) ∧ (d.time.cycle
         ≤ 240) ∧ (l.missed = false) ∧ (bit (nth c 3) 7 = false)) ∧
    (let h : Fin 48 := 47
     let s : State := on 7 [(F.hd_LANE_STAT_STATE 47, 1)]
     let d := s.dev
     (d.laneSt h.val = 1)) ∧
    (let h : Fin 48 := 47
     let s : State := on 7 [(F.hd_LANE_STAT_STATE 47, 4)]
     let d := s.dev
     (d.laneSt h.val = 0 ∨ 3 < d.laneSt h.val)) ∧
    (let h : Fin 48 := 47
     let s : State := onAt 7 2 240 [(F.hd_LANE_STAT_STATE 47, 2)]
     let d := s.dev
     let l := d.lane h.val
     (240 ≤ d.time.cycle) ∧ (d.laneOn h.val = true) ∧ (l.got = false) ∧ (l.missed = false) ∧ (l.trained = false)) ∧
    (let h : Fin 48 := 47
     let s : State := on 7 [(F.hd_LANE_STAT_STATE 47, 2)]
     let d := s.dev
     let l := d.lane h.val
     let slot : List (Option Byte) := slotB 0 15 0x81 0 (List.replicate 64 1)
     let q : Nat := 0
     let ack : Nat := 15
     let m : Msg := ⟨0x81, 0, List.replicate 64 1⟩
     (d.laneOn h.val = true) ∧ ((slotChars slot).bind slotOf = some (q, ack, m)) ∧ (m.typ ≠ 0) ∧ (q = (l.rxAck + 1) % 16) ∧ (m.typ = 0x81) ∧ (d.laneSt
         h.val = 2) ∧ (m.index = 0) ∧ (m.payload.length = 64) ∧ (l.cap1.length ≠ 64)) ∧
    (let h : Fin 48 := 47
     let s : State := on 7 [(F.hd_LANE_STAT_STATE 47, 3)]
     let d := s.dev
     let l := d.lane h.val
     let slot : List (Option Byte) := slotB 0 15 0x82 0 []
     let q : Nat := 0
     let ack : Nat := 15
     let m : Msg := ⟨0x82, 0, []⟩
     (d.laneOn h.val = true) ∧ ((slotChars slot).bind slotOf = some (q, ack, m)) ∧ (m.typ ≠ 0) ∧ (q = (l.rxAck + 1) % 16) ∧ (m.typ = 0x82) ∧ ((d.hd
         h.val).cas.sent = []) ∧ (m.payload = []) ∧ (d.laneSt h.val = 3)) ∧
    (let h : Fin 48 := 47
     let s : State := onAt 7 5 0 [(F.hd_LANE_STAT_STATE 47, 3), (F.fire_CAS_TIMEOUT, 5)] (·.hdUpd 47 (fun h => { h with cas := { h.cas with sent := [4, 5] } }))
     let d := s.dev
     let l := d.lane h.val
     let slot : List (Option Byte) := slotB 0 15 0x82 0 [4, 5]
     let q : Nat := 0
     let ack : Nat := 15
     let m : Msg := ⟨0x82, 0, [4, 5]⟩
     (d.laneOn h.val = true) ∧ ((slotChars slot).bind slotOf = some (q, ack, m)) ∧ (m.typ ≠ 0) ∧ (q = (l.rxAck + 1) % 16) ∧ (m.typ = 0x82) ∧ ((d.hd
         h.val).cas.sent ≠ []) ∧ (m.payload = (d.hd h.val).cas.sent) ∧ (d.time.frame ≤ (d.hd h.val).cas.sentFrame + d.g F.fire_CAS_TIMEOUT)) ∧
    (let h : Fin 48 := 47
     let s : State := on 7 [(F.hd_LANE_STAT_STATE 47, 3)]
     let d := s.dev
     let l := d.lane h.val
     let slot : List (Option Byte) := slotB 0 15 0x83 0 []
     let q : Nat := 0
     let ack : Nat := 15
     let m : Msg := ⟨0x83, 0, []⟩
     (d.laneOn h.val = true) ∧ ((slotChars slot).bind slotOf = some (q, ack, m)) ∧ (m.typ ≠ 0) ∧ (q = (l.rxAck + 1) % 16) ∧ (m.typ = 0x83) ∧ (d.laneSt
         h.val = 3)) ∧
    (let h : Fin 48 := 47
     let s : State := on 7 [(F.hd_LANE_STAT_STATE 47, 3)]
     let d := s.dev
     let l := d.lane h.val
     let slot : List (Option Byte) := slotB 0 15 0x90 0 [1]
     let q : Nat := 0
     let ack : Nat := 15
     let m : Msg := ⟨0x90, 0, [1]⟩
     (d.laneOn h.val = true) ∧ ((slotChars slot).bind slotOf = some (q, ack, m)) ∧ (m.typ ≠ 0) ∧ (q = (l.rxAck + 1) % 16) ∧ (m.typ = 0x90) ∧ (d.g
         (F.hd_MSG_RX_STAT_FULL h.val) = 0) ∧ (m.payload.length ≤ 64)) ∧
    (let h : Fin 48 := 47
     let s : State := on 7 [(F.hd_LANE_STAT_STATE 47, 3), (F.hd_MSG_RX_STAT_FULL 47, 1)]
     let d := s.dev
     let l := d.lane h.val
     let slot : List (Option Byte) := slotB 0 15 0x90 0 [1]
     let q : Nat := 0
     let ack : Nat := 15
     let m : Msg := ⟨0x90, 0, [1]⟩
     (d.laneOn h.val = true) ∧ ((slotChars slot).bind slotOf = some (q, ack, m)) ∧ (m.typ ≠ 0) ∧ (q = (l.rxAck + 1) % 16) ∧ (m.typ = 0x90) ∧ (d.g
         (F.hd_MSG_RX_STAT_FULL h.val) = 1)) ∧
    (let h : Fin 48 := 47
     let s : State := on 7 [(F.hd_LANE_STAT_STATE 47, 3)]
     let d := s.dev
     let l := d.lane h.val
     let slot : List (Option Byte) := slotB 0 15 0x84 0 [1]
     let q : Nat := 0
     let ack : Nat := 15
     let m : Msg := ⟨0x84, 0, [1]⟩
     (d.laneOn h.val = true) ∧ ((slotChars slot).bind slotOf = some (q, ack, m)) ∧ (m.typ ≠ 0) ∧ (q = (l.rxAck + 1) % 16) ∧ (m.typ ∉ [0x81, 0x82,
         0x83, 0x90])) := by
  refine ⟨?_, ?_, ?_, ?_, ?_, ?_, ?_, ?_, ?_, ?_, ?_⟩ <;> decide +kernel

/-- Inputs that meet the hypotheses of LanesSend. -/
theorem wit_lanesSend :
    (let h : Fin 48 := 47
     let s : State := on 7 [(F.hd_LANE_STAT_STATE 47, 3), (F.hd_MSG_TX_LEN 47, 64)]
     let d := s.dev
     (s.lets (F.hd_MSG_TX_GO h.val).addr) ∧ (d.g (F.hd_MSG_TX_STAT h.val) ≠ 1) ∧ (d.laneSt h.val = 3)) ∧
    (let h : Fin 48 := 47
     let s : State := on 7 [(F.hd_LANE_STAT_STATE 47, 2)]
     let d := s.dev
     (s.lets (F.hd_MSG_TX_GO h.val).addr) ∧ (d.g (F.hd_MSG_TX_STAT h.val) ≠ 1) ∧ (d.laneSt h.val ≠ 3)) ∧
    (let h : Fin 48 := 47
     let s : State := on 7 [(F.hd_MSG_TX_STAT 47, 1)]
     let d := s.dev
     (s.lets (F.hd_MSG_TX_GO h.val).addr) ∧ (d.g (F.hd_MSG_TX_STAT h.val) = 1)) ∧
    (let h : Fin 48 := 47
     let s : State := on 7 [(F.hd_MSG_RX_STAT_FULL 47, 1)]
     (s.lets (F.hd_MSG_RX_FREE h.val).addr)) ∧
    (let h : Fin 48 := 47
     let s : State := on 7 [(F.hd_LANE_STAT_STATE 47, 3)] (·.laneUpd 47 (fun l => { l with out := [⟨2, {}, 1, 0⟩, ⟨3, {}, 1, 0⟩] }))
     let d := s.dev
     let l := d.lane h.val
     let slot : List (Option Byte) := slotB 0 2 0 0 []
     let q : Nat := 0
     let ack : Nat := 2
     let m : Msg := ⟨0, 0, []⟩
     (d.laneOn h.val = true) ∧ ((slotChars slot).bind slotOf = some (q, ack, m)) ∧ ((∃ o ∈ l.out, o.seq = ack))) ∧
    (let h : Fin 48 := 47
     let s : State := onAt 7 9 0 [(F.hd_LANE_STAT_STATE 47, 3), (F.hd_LANE_CTRL_RETRY_TMO 47, 8), (F.hd_LANE_CTRL_RETRY_MAX 47, 2)] (·.laneUpd 47 (fun l => { l with out := [⟨2, {}, 1, 1⟩] }))
     let d := s.dev
     let l := d.lane h.val
     let o : Sent := ⟨2, {}, 1, 1⟩
     let os : List Sent := []
     (l.out = o :: os) ∧ (d.laneOn h.val = true) ∧ (l.again = []) ∧ (o.frame + d.g (F.hd_LANE_CTRL_RETRY_TMO h.val) ≤ d.time.frame) ∧ (o.sends < d.g
         (F.hd_LANE_CTRL_RETRY_MAX h.val))) ∧
    (let h : Fin 48 := 47
     let s : State := onAt 7 9 0 [(F.hd_LANE_STAT_STATE 47, 3), (F.hd_LANE_CTRL_RETRY_TMO 47, 8), (F.hd_LANE_CTRL_RETRY_MAX 47, 2)] (·.laneUpd 47 (fun l => { l with out := [⟨2, {}, 2, 1⟩] }))
     let d := s.dev
     let l := d.lane h.val
     let o : Sent := ⟨2, {}, 2, 1⟩
     let os : List Sent := []
     (l.out = o :: os) ∧ (d.laneOn h.val = true) ∧ (l.again = []) ∧ (o.frame + d.g (F.hd_LANE_CTRL_RETRY_TMO h.val) ≤ d.time.frame) ∧ (d.g
         (F.hd_LANE_CTRL_RETRY_MAX h.val) ≤ o.sends)) := by
  refine ⟨?_, ?_, ?_, ?_, ?_, ?_, ?_⟩ <;> (try unfold State.lets) <;> decide +kernel

/-- Inputs that meet the hypotheses of LaneStatesChange. -/
theorem wit_laneStatesChange :
    (let h : Fin 48 := 47
     let s : State := on 7
     let d := s.dev
     let st := d.laneSt h.val
     let v : Word := 1
     (s.lets (F.hd_LANE_CTRL_EN h.val).addr) ∧ (d.g (F.hdr_PAGE_CTRL_LOCK (hdPage h.val)) = 0) ∧ (Word.f v 0 0 = 1) ∧ (Word.f v 1 1 = 0) ∧ (st = 0)) ∧
    (let h : Fin 48 := 47
     let s : State := on 7 [(F.hd_LANE_STAT_STATE 47, 3), (F.hd_LANE_CTRL_EN 47, 1)]
     let d := s.dev
     let st := d.laneSt h.val
     let v : Word := 0
     (s.lets (F.hd_LANE_CTRL_EN h.val).addr) ∧ (d.g (F.hdr_PAGE_CTRL_LOCK (hdPage h.val)) = 0) ∧ (Word.f v 0 0 = 0) ∧ (Word.f v 1 1 = 0) ∧ (st ≠ 0)) ∧
    (let h : Fin 48 := 47
     let s : State := on 7 [(F.hd_LANE_STAT_STATE 47, 5), (F.hd_LANE_CTRL_EN 47, 1)]
     let d := s.dev
     let st := d.laneSt h.val
     let v : Word := 3
     (s.lets (F.hd_LANE_CTRL_EN h.val).addr) ∧ (d.g (F.hdr_PAGE_CTRL_LOCK (hdPage h.val)) = 0) ∧ (Word.f v 0 0 = 1) ∧ (Word.f v 1 1 = 1) ∧ (st = 5)) ∧
    (let h : Fin 48 := 47
     let s : State := on 7 [(F.hd_LANE_STAT_STATE 47, 1), (F.hd_LANE_CTRL_EN 47, 1)]
     let d := s.dev
     let st := d.laneSt h.val
     let v : Word := 3
     (s.lets (F.hd_LANE_CTRL_EN h.val).addr) ∧ (d.g (F.hdr_PAGE_CTRL_LOCK (hdPage h.val)) = 0) ∧ (Word.f v 0 0 = 1) ∧ (Word.f v 1 1 = 1) ∧ (d.g
         (F.hd_LANE_CTRL_EN h.val) = 1) ∧ (st = 1 ∨ st = 2 ∨ st = 3)) ∧
    (let h : Fin 48 := 47
     let s : State := on 7 [(F.hd_LANE_STAT_STATE 47, 1)] (·.laneUpd 47 (fun l => { l with trainRun := 16, rtdSum := 2880 }))
     let d := s.dev
     let l := d.lane h.val
     let st := d.laneSt h.val
     let rtd := (rdiv l.rtdSum 32).toNat * 2
     (st = 1) ∧ (l.trainRun = 16) ∧ (rtd ≤ 180)) ∧
    (let h : Fin 48 := 47
     let s : State := on 7 [(F.hd_LANE_STAT_STATE 47, 1)] (·.laneUpd 47 (fun l => { l with trainRun := 16, rtdSum := 2912 }))
     let d := s.dev
     let l := d.lane h.val
     let st := d.laneSt h.val
     let rtd := (rdiv l.rtdSum 32).toNat * 2
     (st = 1) ∧ (l.trainRun = 16) ∧ (180 < rtd)) ∧
    (let h : Fin 48 := 47
     let s : State := onAt 7 40000 0 [(F.hd_LANE_STAT_STATE 47, 1)]
     let d := s.dev
     let l := d.lane h.val
     let st := d.laneSt h.val
     (st = 1) ∧ (l.since + 40000 ≤ d.time.frame) ∧ (l.timeoutSeen = false)) ∧
    (let h : Fin 48 := 47
     let s : State := onAt 7 800 0 [(F.hd_LANE_STAT_STATE 47, 2)]
     let d := s.dev
     let l := d.lane h.val
     let st := d.laneSt h.val
     (st = 2) ∧ (l.since + 800 ≤ d.time.frame)) ∧
    (let h : Fin 48 := 47
     let s : State := on 7 [(F.hd_LANE_STAT_STATE 47, 3), (F.hd_LANE_CTRL_LOSS_FRAMES 47, 3)] (·.laneUpd 47 (fun l => { l with missing := 3 }))
     let d := s.dev
     let l := d.lane h.val
     let st := d.laneSt h.val
     (st = 2 ∨ st = 3) ∧ (d.g (F.hd_LANE_CTRL_LOSS_FRAMES h.val) ≤ l.missing) ∧ (l.missing ≠ 0)) ∧
    (let h : Fin 48 := 47
     let s : State := onAt 7 40 0 [(F.hd_LANE_STAT_STATE 47, 4)]
     let d := s.dev
     let l := d.lane h.val
     let st := d.laneSt h.val
     (st = 4) ∧ (l.since + 40 ≤ d.time.frame)) ∧
    (let h : Fin 48 := 47
     let s : State := on 7 [] (·.laneUpd 47 (fun l => { l with changed := true }))
     let v : Word := 0x4843
     (s.lets (F.hd_LINK_ACCEPT h.val).addr) ∧ (Word.f v 15 0 = 0x4843)) ∧
    (let h : Fin 48 := 47
     let s : State := on 7
     let v : Word := 0x4842
     (s.lets (F.hd_LINK_ACCEPT h.val).addr) ∧ (Word.f v 15 0 ≠ 0x4843)) := by
  refine ⟨?_, ?_, ?_, ?_, ?_, ?_, ?_, ?_, ?_, ?_, ?_, ?_⟩ <;> (try unfold State.lets) <;> decide +kernel

/-- Inputs that meet the hypotheses of CamerasAndPipelines. -/
theorem wit_camerasAndPipelines :
    (let p : Fin 12 := 11
     let s : State := on 7 [(F.hdr_PAGE_CTRL_ENABLE 0x8B000, 1), (F.cp_CP_STAT_PCLK_PRESENT 11, 1)]
     let d := s.dev
     let n := p.val
     (d.cpLive n = true) ∧ ((d.cp n).fv = false)) ∧
    (let p : Fin 12 := 11
     let s : State := on 7 [(F.hdr_PAGE_CTRL_ENABLE 0x8B000, 1), (F.cp_CP_STAT_PCLK_PRESENT 11, 1)] (·.cpUpd 11 (fun c => { c with fv := true, frame := some { port := 11, width := 2, height := 1 } }))
     let d := s.dev
     let n := p.val
     let fr : CFrame := { port := 11, width := 2, height := 1 }
     ((d.cp n).frame = some fr) ∧ (d.cpLive n = true) ∧ (fr.dropped = false) ∧ (bit fr.flags 0 = false) ∧ (fr.seen < fr.height) ∧ ((fr.slot.isSome =
         true ∨ fr.src ≠ 1 ∨ fr.pipe = 7 ∨ fr.lines.length < 8))) ∧
    (let p : Fin 12 := 11
     let s : State := on 7 [(F.hdr_PAGE_CTRL_ENABLE 0x8B000, 1), (F.cp_CP_STAT_PCLK_PRESENT 11, 1)] (·.cpUpd 11 (fun c => { c with fv := true }))
     let d := s.dev
     let n := p.val
     (d.cpLive n = true) ∧ ((d.cp n).fv = true)) ∧
    (let p : Fin 12 := 11
     let s : State := on 7 [] (·.cpUpd 11 (fun c => { c with fv := true }))
     let d := s.dev
     let n := p.val
     (d.cpLive n = false)) ∧
    (let p : Fin 12 := 11
     let s : State := onAt 7 1 0 [] (·.cpUpd 11 (fun c => { c with frame := some { port := 11, tmo := 2 }, lvAt := 250 }))
     let d := s.dev
     let n := p.val
     let fr : CFrame := { port := 11, tmo := 2 }
     ((d.cp n).frame = some fr) ∧ (fr.port = n) ∧ ((d.cp n).lvAt + 500 * fr.tmo ≤ d.now)) ∧
    (let p : Fin 12 := 11
     let s : State := on 7 [(F.hdr_PAGE_CTRL_ENABLE 0x8B000, 1), (F.cp_CP_STAT_PCLK_PRESENT 11, 1)]
     let d := s.dev
     let n := p.val
     (d.g (F.hdr_PAGE_CTRL_ENABLE (cpPage n)) = 1) ∧ (d.g (F.cp_CP_STAT_PCLK_PRESENT n) = 1)) ∧
    (let p : Fin 12 := 11
     let s : State := on 7 [(F.hdr_PAGE_CTRL_ENABLE 0x8B000, 0), (F.cp_CP_STAT_PCLK_PRESENT 11, 1)]
     let d := s.dev
     let n := p.val
     (d.g (F.hdr_PAGE_CTRL_ENABLE (cpPage n)) = 0)) ∧
    (let p : Fin 12 := 11
     let s : State := on 7 [(F.hdr_PAGE_CTRL_ENABLE 0x8B000, 0)]
     let d := s.dev
     let n := p.val
     (d.g (F.hdr_PAGE_CTRL_ENABLE (cpPage n)) = 0)) ∧
    (let p : Fin 12 := 11
     let s : State := on 7 [(F.hdr_PAGE_CTRL_ENABLE 0x8B000, 1)]
     let d := s.dev
     let n := p.val
     (d.g (F.hdr_PAGE_CTRL_ENABLE (cpPage n)) = 1)) ∧
    (let p : Fin 7 := 6
     let s : State := on 7 [] (·.ipUpd 6 (fun t => { t with ring := [{ num := 3 }] }))
     let d := s.dev
     let t := d.ip p.val
     let fr : CFrame := { num := 3 }
     let rest : List CFrame := []
     (t.ring = fr :: rest) ∧ (d.ipOk p.val = true) ∧ (t.wait.any (fun x => x.src == 1 && !x.dropped) = false) ∧ ((d.g (F.ip_IP_SRC_IL_EN p.val) = 0 ∨
         (d.cp (d.g (F.ip_IP_SRC_IL_PORT p.val))).frame = none)) ∧ (d.quiet = true)) ∧
    (let p : Fin 7 := 6
     let s : State := on 7 [] (·.cpUpd 0 (fun c => { c with held := some { num := 3, pipe := 6, src := 1 } }))
     let d := s.dev
     let fr : CFrame := { num := 3, pipe := 6, src := 1 }
     let k : Nat := 0
     (d.freeSlot p.val = some k) ∧ (d.ipOk p.val = true) ∧ ((d.cp (d.vmPort p.val)).held = some fr) ∧ (fr.pipe = p.val) ∧ (fr.src = 1) ∧ (fr.slot =
         none) ∧ (fr.dropped = false)) ∧
    (let p : Fin 7 := 6
     let s : State := on 7 [(F.ip_REC_LOG2 6, 4)] (·.ipUpd 6 (fun t => { t with wait := [{ num := 3 }] }))
     let d := s.dev
     let t := d.ip p.val
     let fr : CFrame := { num := 3 }
     let rest : List CFrame := []
     (t.wait = fr :: rest) ∧ (d.ipOk p.val = true)) ∧
    (let p : Fin 7 := 6
     let s : State := on 7
     let d := s.dev
     let t := d.ip p.val
     let c : Fin 2 := 0
     (d.ipOk p.val = true) ∧ ((c = 0 ∨ t.wait ≠ []))) ∧
    (let p : Fin 7 := 6
     let s : State := on 7 [(F.ips_DPC_STAT_STATE 6 1, 1)]
     let d := s.dev
     let b : Fin 2 := 1
     (d.g (F.ips_DPC_STAT_STATE p.val b.val) = 1) ∧ (d.quiet = true)) := by
  refine ⟨?_, ?_, ?_, ?_, ?_, ?_, ?_, ?_, ?_, ?_, ?_, ?_, ?_, ?_⟩ <;> decide +kernel

/-- Inputs that meet the hypotheses of BridgePortsFollowTheirFrames. -/
theorem wit_bridgePortsFollowTheirFrames :
    (let s : State := onAt 7 8 0 [] (fun d => { d with ctl := { d.ctl with pllLocked := true } })
     (s.dev.time.frame % 8 = 0) ∧ (s.dev.aux.tick ≠ s.dev.time.frame / 8 + 1) ∧ (s.dev.ctl.pllLocked = true)) ∧
    (let p : Fin 8 := 7
     let s : State := onAt 7 80 0 [(F.bp_BP_STAT_STATE 7, 1)]
     let d := s.dev
     let n := p.val
     let t := d.bpSt n
     let start : BitVec 10 := (grp ((blk 24 10))).headD 0
     let groups : List (BitVec 10) := (grp ((blk 24 10))).drop 1
     let r := rxFrame t.rdRx (start :: groups)
     let c := r.chars
     (d.g (F.bp_BP_STAT_STATE n) ≠ 0) ∧ (t.got = 0) ∧ (r.sof = true) ∧ (blockOk c r.bad 1 24 = true) ∧ (leAt c 1 2 = d.time.frame / 8 % 65536)) ∧
    (let p : Fin 8 := 7
     let s : State := on 7 [(F.bp_BP_STAT_STATE 7, 2)]
     let d := s.dev
     let n := p.val
     let t := d.bpSt n
     (d.g (F.bp_BP_STAT_STATE n) ≠ 0) ∧ (t.got = 0)) ∧
    (let p : Fin 8 := 7
     let s : State := on 7 [(F.bp_BP_STAT_STATE 7, 1)] (·.bpUpd 7 (fun t => { t with good := 16 }))
     let d := s.dev
     let n := p.val
     let t := d.bpSt n
     (d.g (F.bp_BP_STAT_STATE n) = 1) ∧ (16 ≤ t.good)) ∧
    (let p : Fin 8 := 7
     let s : State := on 7 [(F.bp_BP_STAT_STATE 7, 2), (F.bp_LOSS_TICKS 7, 3), (F.ax_AX_STAT_STATE 15, 1)] (·.bpUpd 7 (fun t => { t with missing := 3 }))
     let d := s.dev
     let n := p.val
     let t := d.bpSt n
     (d.g (F.bp_BP_STAT_STATE n) = 2) ∧ (d.g (F.bp_LOSS_TICKS n) ≤ t.missing)) ∧
    (let p : Fin 8 := 7
     let s : State := onAt 7 64 0 [(F.bp_BP_STAT_STATE 7, 3)]
     let d := s.dev
     let n := p.val
     let t := d.bpSt n
     (d.g (F.bp_BP_STAT_STATE n) = 3) ∧ (t.lostTick + 8 ≤ d.time.frame / 8)) := by
  refine ⟨?_, ?_, ?_, ?_, ?_, ?_⟩ <;> decide +kernel

/-- Inputs that meet the hypotheses of AxisCommands. -/
theorem wit_axisCommands :
    (let a : Fin 16 := 15
     let v : Word := 0x41580071
     let s : State := on 5 [(F.ax_AX_STAT_STATE 15, 1), (F.ax_MOVEk_VMAX 15 7, 1), (F.ax_MOVEk_AMAX 15 7, 1), (F.ax_MOVEk_JMAX 15 7, 1)]
     let d := s.dev
     let n := a.val
     let t := d.ax n
     (s.lets (F.ax_AX_CMD_OP a.val).addr) ∧ (Word.f v 31 16 = 0x4158) ∧ (Word.f v 2 0 = 1) ∧ (d.st ≠ 8) ∧ (t.seqTick ≠ d.tickNo) ∧ (d.axRefusal n
         (Word.f v 6 4) 0 = 0)) ∧
    (let a : Fin 16 := 15
     let v : Word := 0x41580071
     let s : State := on 5 [(F.ax_AX_STAT_STATE 15, 1)]
     let d := s.dev
     let n := a.val
     let t := d.ax n
     (s.lets (F.ax_AX_CMD_OP a.val).addr) ∧ (Word.f v 31 16 = 0x4158) ∧ (Word.f v 2 0 = 1) ∧ (d.st ≠ 8) ∧ (t.seqTick ≠ d.tickNo) ∧ (d.axRefusal n
         (Word.f v 6 4) 0 ≠ 0)) ∧
    (let a : Fin 16 := 15
     let v : Word := 0x41580071
     let s : State := on 8
     let d := s.dev
     let n := a.val
     let t := d.ax n
     (s.lets (F.ax_AX_CMD_OP a.val).addr) ∧ (Word.f v 31 16 = 0x4158) ∧ (Word.f v 2 0 = 1) ∧ (d.st = 8) ∧ (t.seqTick ≠ d.tickNo)) ∧
    (let a : Fin 16 := 15
     let v : Word := 0x41580002
     let s : State := on 5 [(F.ax_AX_STAT_STATE 15, 1), (F.ax_HOME_VFAST 15, 1), (F.ax_HOME_VSLOW 15, 1), (F.ax_ALIM_STOP 15, 1), (F.ax_JLIM_STOP 15,
         1)]
     let d := s.dev
     let n := a.val
     let t := d.ax n
     (s.lets (F.ax_AX_CMD_OP a.val).addr) ∧ (Word.f v 31 16 = 0x4158) ∧ (Word.f v 2 0 = 2) ∧ (d.st ≠ 8) ∧ (t.seqTick ≠ d.tickNo) ∧ (d.axState n = 1) ∧
         (d.v (F.ax_HOME_VFAST n) ≠ 0) ∧ (d.v (F.ax_HOME_VSLOW n) ≠ 0) ∧ (d.v (F.ax_ALIM_STOP n) ≠ 0) ∧ (d.v (F.ax_JLIM_STOP n) ≠ 0)) ∧
    (let a : Fin 16 := 15
     let v : Word := 0x41580003
     let s : State := on 5 [(F.ax_AX_STAT_STATE 15, 4)]
     let d := s.dev
     let n := a.val
     let t := d.ax n
     (s.lets (F.ax_AX_CMD_OP a.val).addr) ∧ (Word.f v 31 16 = 0x4158) ∧ (Word.f v 2 0 = 3) ∧ (t.seqTick ≠ d.tickNo) ∧ (d.axState n = 2 ∨ d.axState n =
         4)) ∧
    (let a : Fin 16 := 15
     let v : Word := 0x41580004
     let s : State := on 5 [(F.ax_AX_STAT_STATE 15, 5), (F.bp_BP_STAT_STATE 7, 2), (F.ax_AX_STAT_CAUSE 15, 2)]
     let d := s.dev
     let n := a.val
     let t := d.ax n
     (s.lets (F.ax_AX_CMD_OP a.val).addr) ∧ (Word.f v 31 16 = 0x4158) ∧ (Word.f v 2 0 = 4) ∧ (t.seqTick ≠ d.tickNo) ∧ (d.axState n = 5) ∧ (d.bpUp (n /
         2) = true) ∧ ((t.bridge = true ∨ d.g (F.ax_AX_STAT_CAUSE n) = 3 → d.g (F.bps_DRV_STAT (n / 2) (n % 2)) % 16 = 1)) ∧ ((t.bridge = false → d.g
         (F.ax_AX_STAT_CAUSE n) = 4 → d.time.frame < d.aux.diFrame + 3)) ∧ ((t.bridge = false → d.g (F.ax_AX_STAT_CAUSE n) ≠ 3 → d.g
         (F.ax_AX_STAT_CAUSE n) ≠ 4 → t.mot.still = true))) ∧
    (let a : Fin 16 := 15
     let v : Word := 0x41580003
     let s : State := on 5 [] (·.axUpd 15 (fun t => { t with seqTick := 1 }))
     let d := s.dev
     let n := a.val
     let t := d.ax n
     let c := ((3, .axStop a v) : Nat × Instr)
     (s.lets (F.ax_AX_CMD_OP a.val).addr) ∧ (Word.f v 31 16 = 0x4158) ∧ (t.seqTick = d.tickNo) ∧ (c ∈ [(1, Instr.move a v), (2, .home a v), (3,
         .axStop a v), (4, .clearErr a v)]) ∧ (Word.f v 2 0 = c.1)) ∧
    (let a : Fin 16 := 15
     let v : Word := 0x41590004
     let s : State := on 5
     let c := .clearErr a v
     (s.lets (F.ax_AX_CMD_OP a.val).addr) ∧ (Word.f v 31 16 ≠ 0x4158) ∧ (c ∈ [Instr.move a v, .home a v, .axStop a v, .clearErr a v])) := by
  refine ⟨?_, ?_, ?_, ?_, ?_, ?_, ?_, ?_⟩ <;> (try unfold State.lets) <;> decide +kernel

/-- Inputs that meet the hypotheses of AxesMoveAndHome. -/
theorem wit_axesMoveAndHome :
    (let a : Fin 16 := 15
     let s : State := on 7 [(F.ax_AX_STAT_STATE 15, 2)] (·.axUpd 15 (fun t => { t with plan := .move 1 1 1 1, mot := ⟨1, 0, 0⟩ }))
     let d := s.dev
     let n := a.val
     let t := d.ax n
     let x := (1 : Int)
     let v := 1
     let m := 1
     let j := 1
     (t.plan = .move x v m j) ∧ (d.axState n = 2) ∧ (t.next = none) ∧ (t.hold = false) ∧ (t.mot.still = true) ∧ (t.mot.p = x)) ∧
    (let a : Fin 16 := 15
     let s : State := on 7 [(F.ax_AX_STAT_STATE 15, 3)] (·.axUpd 15 (fun t => { t with after := 6 }))
     let d := s.dev
     let n := a.val
     let t := d.ax n
     (d.axState n = 3) ∧ (t.next = none) ∧ (t.mot.still = true)) ∧
    (let a : Fin 16 := 15
     let s : State := on 7 [] (fun d => { d.axUpd 15 (fun t => { t with limN := ⟨false, 0, true⟩ }) with aux := { d.aux with diFrame := 400000 } })
     let d := s.dev
     let n := a.val
     let t := d.ax n
     (t.limN.deb = true) ∧ (t.limN.raw = false) ∧ (d.axHeld n t.limN d.aux.diFrame = true)) ∧
    (let a : Fin 16 := 15
     let s : State := on 7 [] (fun d => { d.axUpd 15 (fun t => { t with limP := ⟨false, 0, true⟩ }) with aux := { d.aux with diFrame := 400000 } })
     let d := s.dev
     let n := a.val
     let t := d.ax n
     (t.limP.deb = true) ∧ (t.limP.raw = false) ∧ (d.axHeld n t.limP d.aux.diFrame = true)) ∧
    (let a : Fin 16 := 15
     let s : State := onAt 7 3 0 [(F.ax_AX_IN_HOME_EN 15, 1), (F.ax_AX_STAT_STATE 15, 4)]
     let d := s.dev
     let n := a.val
     let t := d.ax n
     (d.v (F.ax_AX_IN_HOME_EN n) = 1 ∨ d.v (F.ax_AX_IN_LIMN_EN n) = 1 ∨ d.v (F.ax_AX_IN_LIMP_EN n) = 1) ∧ (d.aux.diFrame + 3 ≤ d.time.frame) ∧ (1 ≤
         d.axState n) ∧ (d.axState n ≤ 4) ∧ (t.after ≠ 4)) ∧
    (let a : Fin 16 := 15
     let s : State := on 7 [(F.ax_AX_CFG_STALL_EN 15, 1), (F.ax_AX_CFG_STALL_ACT 15, 1), (F.ax_AX_STAT_STATE 15, 2), (F.ax_STALL_N 15, 2)] (·.axUpd 15 (fun t => { t with stallRun := 2 }))
     let d := s.dev
     let n := a.val
     let t := d.ax n
     (d.v (F.ax_AX_CFG_STALL_EN n) = 1) ∧ (1 ≤ d.axState n) ∧ (d.axState n ≤ 4) ∧ (0 < t.stallRun) ∧ (d.v (F.ax_STALL_N n) ≤ t.stallRun)) ∧
    (let a : Fin 16 := 15
     let s : State := on 7 [(F.ax_AX_STAT_LEVEL 15, 2), (F.ax_AX_STAT_STATE 15, 1), (F.ax_STBY_DELAY 15, 1)] (·.axUpd 15 (fun t => { t with restTicks := 50 }))
     let d := s.dev
     let n := a.val
     let t := d.ax n
     (d.g (F.ax_AX_STAT_LEVEL n) = 2) ∧ (d.axState n ≠ 5) ∧ (50 * d.v (F.ax_STBY_DELAY n) ≤ t.restTicks)) ∧
    (let a : Fin 16 := 15
     let s : State := on 7 [(F.ax_AX_STAT_STATE 15, 4), (F.ax_AX_STAT_HOME_STEP 15, 4)] (·.axUpd 15 (fun t => { t with plan := .stop 1 1 }))
     let d := s.dev
     let n := a.val
     let t := d.ax n
     let al := 1
     let jl := 1
     (d.axState n = 4) ∧ (t.plan = .stop al jl) ∧ (t.next = none) ∧ (t.mot.still = true) ∧ (d.g (F.ax_AX_STAT_HOME_STEP n) = 3 ∨ d.g
         (F.ax_AX_STAT_HOME_STEP n) = 4)) ∧
    (let a : Fin 16 := 15
     let s : State := on 7 [(F.ax_AX_STAT_STATE 15, 4), (F.ax_AX_STAT_HOME_STEP 15, 4), (F.ax_DEBOUNCE 15, 0)]
     let d := s.dev
     let n := a.val
     let t := d.ax n
     (d.axState n = 4) ∧ (d.g (F.ax_AX_STAT_HOME_STEP n) = 4) ∧ (t.backDone = false) ∧ (t.home.deb = false) ∧ (t.home.raw = false) ∧ (d.axHeld n
         t.home d.aux.diFrame = true)) ∧
    (let a : Fin 16 := 15
     let s : State := on 7 [(F.ax_AX_STAT_STATE 15, 4), (F.ax_AX_STAT_HOME_STEP 15, 5), (F.ax_DEBOUNCE 15, 0)] (·.axUpd 15 (fun t => { t with home := ⟨true, 0, true⟩ }))
     let d := s.dev
     let n := a.val
     let t := d.ax n
     (d.axState n = 4) ∧ (d.g (F.ax_AX_STAT_HOME_STEP n) = 5) ∧ (t.home.deb = true) ∧ (t.home.raw = true) ∧ (t.seekAt ≤ t.home.since) ∧ (d.axHeld n
         t.home d.aux.diFrame = true)) ∧
    (let a : Fin 16 := 15
     let s : State := on 7 [(F.ax_AX_STAT_STATE 15, 4), (F.ax_AX_STAT_HOME_STEP 15, 6)]
     let d := s.dev
     let n := a.val
     let t := d.ax n
     (d.axState n = 4) ∧ (6 ≤ d.g (F.ax_AX_STAT_HOME_STEP n)) ∧ (t.next = none) ∧ (t.mot.still = true)) ∧
    (let a : Fin 16 := 15
     let s : State := on 7 [(F.ax_AX_STAT_STATE 15, 4), (F.ax_CHAT_MAX 15, 0), (F.ax_CHAT_WIN 15, 1)] (·.axUpd 15 (fun t => { t with trans := [0] }))
     let d := s.dev
     let n := a.val
     (d.axState n = 4) ∧ (d.axChatHit n = true)) ∧
    (let a : Fin 16 := 15
     let s : State := on 7 [(F.ax_AX_STAT_STATE 15, 4), (F.ax_AX_STAT_HOME_STEP 15, 5), (F.ax_HOME_MAXDIST 15, 1)] (·.axUpd 15 (fun t => { t with mot := ⟨-nmU, 0, 0⟩ }))
     let d := s.dev
     let n := a.val
     let t := d.ax n
     (d.axState n = 4) ∧ (d.v (F.ax_HOME_MAXDIST n) ≠ 0) ∧ (d.g (F.ax_AX_STAT_HOME_STEP n) ∈ [1, 4, 5]) ∧ ((d.v (F.ax_HOME_MAXDIST n) : Int) * nmU ≤
         absI (t.mot.p - t.base))) := by
  refine ⟨?_, ?_, ?_, ?_, ?_, ?_, ?_, ?_, ?_, ?_, ?_, ?_, ?_⟩ <;> decide +kernel

/-- Inputs that meet the hypotheses of LedMatrixRuns. -/
theorem wit_ledMatrixRuns :
    (let s : State := iso { led := { en := true } }
     let x := s.iso.st
     let l := x.led
     (l.en = true) ∧ (2 ≤ s.dev.st) ∧ ((l.running = false ∨ l.row = 15 ∧ l.begun = true))) ∧
    (let s : State := iso { led := { en := true, running := true, row := 15 } }
     let x := s.iso.st
     let l := x.led
     (l.en = true) ∧ (l.running = true) ∧ (¬ (l.begun = true ∧ l.row = 15))) ∧
    (let s : State := iso { led := { en := true, ctl := 0x48 } }
     let x := s.iso.st
     let l := x.led
     let act : Bool := true
     (l.en = true) ∧ (l.cf F.led_LED_CTRL_SYNC_SRC = 1 ∨ l.cf F.led_LED_CTRL_SYNC_SRC = 2) ∧ (bit l.ctl.toNat 3 = act)) ∧
    (let s : State := iso { led := { en := true } }
     let x := s.iso.st
     let l := x.led
     let temp : BitVec 16 := -640
     (l.en = true) ∧ ((∀ f, l.measAt = some f → f + 64 ≤ l.mf)) ∧ (-640 ≤ temp.toInt) ∧ (temp.toInt ≤ 2400)) ∧
    (let s : State := iso { led := { en := true, mf := 256, ctl := 0x21 } }
     let x := s.iso.st
     let l := x.led
     let led : Fin 512 := 511
     (l.en = true) ∧ (l.wantsStretch led.val = true) ∧ (Tab.at 0 l.due led.val + 256 ≤ l.mf)) := by
  refine ⟨?_, ?_, ?_, ?_, ?_⟩ <;> decide +kernel

/-- Inputs that meet the hypotheses of LedWritesJoinTheCommandFrame. -/
theorem wit_ledWritesJoinTheCommandFrame :
    (let s : State := on 7
     let d := s.dev
     let ofs : BitVec 12 := 0x800
     (s.lets (0x10A0000 + ofs.toNat)) ∧ (ofs.toNat % 4 = 0) ∧ (ofs.toNat / 4 / 512 ≠ d.g F.led_LED_STAT_FRONT) ∧ (d.g F.led_LED_STAT_ARMED = 0) ∧
         (d.link.ledArm = 0)) ∧
    (let s : State := on 7
     let d := s.dev
     let ofs : BitVec 12 := 0x7FC
     (s.lets (0x10A0000 + ofs.toNat)) ∧ (ofs.toNat % 4 = 0) ∧ (ofs.toNat / 4 / 512 = d.g F.led_LED_STAT_FRONT ∨ d.g F.led_LED_STAT_ARMED = 1 ∨
         d.link.ledArm ≠ 0)) ∧
    (let v : Word := 1
     let s : State := on 7
     (s.lets F.led_LED_SWAP_ARM.addr) ∧ (Word.f v 0 0 = 1) ∧ (Word.f v 1 1 = 0)) ∧
    (let v : Word := 3
     let s : State := on 7
     (s.lets F.led_LED_SWAP_ARM.addr) ∧ (Word.f v 1 1 = 1)) ∧
    (let s : State := on 7
     (s.lets F.led_DIAG_CLEAR.addr)) := by
  refine ⟨?_, ?_, ?_, ?_, ?_⟩ <;> (try unfold State.lets) <;> decide +kernel

/-- Inputs that meet the hypotheses of BarrierLinkAndPermit. -/
theorem wit_barrierLinkAndPermit :
    (let s : State := on 7 [] (fun d => { d with ctl := { d.ctl with pllLocked := true } })
     let d := s.dev
     (d.ctl.pllLocked = true) ∧ (d.link.rxFrame ≠ d.time.frame + 1)) ∧
    (let s : State := on 7 [] (fun d => { d with ctl := { d.ctl with pllLocked := true } })
     let d := s.dev
     (d.ctl.pllLocked = true) ∧ (d.link.rxFrame ≠ d.time.frame + 1)) ∧
    (let s : State := on 6 [] (fun d => { d with link := { d.link with everRx := true } })
     let d := s.dev
     (d.link.everRx = true) ∧ (d.g F.iso_PERMIT_STAT_VOTE = 0) ∧ (d.st = 6 ∨ d.st = 7) ∧ (d.link.permitTold = false)) ∧
    (let s : State := on 5 [(F.iso_PERMIT_STAT_CLEARABLE, 4)]
     let d := s.dev
     let v : Word := 0x50430000
     (s.lets F.iso_PERMIT_CLEAR_KEY.addr) ∧ (d.st = 5) ∧ (d.g F.iso_PERMIT_STAT_CLEARABLE ≠ 0) ∧ (Word.f v 31 16 = 0x5043)) ∧
    (let s : State := on 5 [(F.iso_PERMIT_STAT_CLEARABLE, 4)]
     let d := s.dev
     let v : Word := 0x50440000
     (s.lets F.iso_PERMIT_CLEAR_KEY.addr) ∧ (d.st = 5) ∧ (d.g F.iso_PERMIT_STAT_CLEARABLE ≠ 0) ∧ (Word.f v 31 16 ≠ 0x5043)) ∧
    (let s : State := on 6 [(F.iso_PERMIT_STAT_CLEARABLE, 4)]
     let d := s.dev
     (s.lets F.iso_PERMIT_CLEAR_KEY.addr) ∧ (d.st ≠ 5 ∨ d.g F.iso_PERMIT_STAT_CLEARABLE = 0)) ∧
    (let s : State := on 7
     let d := s.dev
     (s.lets F.iso_DO_OUT.addr) ∧ (d.g (F.hdr_PAGE_CTRL_LOCK isoPage) = 0)) := by
  refine ⟨?_, ?_, ?_, ?_, ?_, ?_, ?_⟩ <;> (try unfold State.lets) <;> decide +kernel

/-- Inputs that meet the hypotheses of IsolatedDieFollowsItsInputs. -/
theorem wit_isolatedDieFollowsItsInputs :
    (let s : State := { on 5 with iso := { missed := 2 } }
     let x := s.iso.st
     (2 ≤ s.iso.missed) ∧ (x.lost = false)) ∧
    (let s : State := iso {}
     let x := s.iso.st
     let c : Fin 3 := 2
     let on : Bool := true
     (bit x.level c.val ≠ on)) ∧
    (let s : State := iso { level := 3, regs := [(0x120048, 0)] }
     let x := s.iso.st
     let c : Fin 3 := 2
     (bit x.level ((c.val + 1) % 3) = bit x.level ((c.val + 2) % 3)) ∧ (bit x.level c.val ≠ bit x.level ((c.val + 1) % 3)) ∧ (x.since + x.disc ≤
         s.dev.now) ∧ (bit x.faulted c.val = false)) ∧
    (let s : State := iso { level := 7, regs := [(0x120048, 0)], faulted := 1, falseSeen := 1 }
     let x := s.iso.st
     (x.level = 7) ∧ (x.since + x.disc ≤ s.dev.now)) ∧
    (let s : State := iso { vote := true, leCmd := 2 ^ 47 }
     let x := s.iso.st
     let n : Fin 48 := 47
     (x.leOut n.val = true) ∧ (bit x.ovl n.val = false)) ∧
    (let s : State := iso { vote := true }
     let x := s.iso.st
     let n : Fin 48 := 47
     (x.vote = false ∨ bit x.leCmd n.val = false ∨ bit x.ovl n.val = true ∨ x.uv = true) ∧ (bit x.stuck n.val = false)) ∧
    (let s : State := iso { doCmd := 0x8000 }
     let x := s.iso.st
     let n : Fin 16 := 15
     (x.doOut n.val = true)) ∧
    (let s : State := iso {}
     let x := s.iso.st
     (x.uv = false)) ∧
    (let s : State := iso {}
     let x := s.iso.st
     (x.hot = false)) := by
  refine ⟨?_, ?_, ?_, ?_, ?_, ?_, ?_, ?_, ?_⟩ <;> decide +kernel

/-- Inputs that meet the hypotheses of DmaCommandsAndChains. -/
theorem wit_dmaCommandsAndChains :
    (let c : Fin 32 := 31
     let v : Word := 0x444D0001
     let s : State := onMem 5 [] [(F.hdr_PAGE_CTRL_ENABLE (dmaPage 31), 1), (F.dma_CHAIN_LO 31, 2)]
     let d := s.dev
     let n := c.val
     (s.lets (F.dma_CH_CMD_OP n).addr) ∧ (Word.f v 31 16 = 0x444D) ∧ (Word.f v 2 0 = 1) ∧ (d.dmaSt n = 0) ∧ (d.g (F.hdr_PAGE_CTRL_ENABLE (dmaPage n))
         = 1) ∧ (5 ≤ d.st)) ∧
    (let c : Fin 32 := 31
     let v : Word := 0x444D0001
     let s : State := onMem 5 [] [(F.hdr_PAGE_CTRL_ENABLE (dmaPage 31), 1), (F.dma_CH_STAT_STATE 31, 1)]
     let d := s.dev
     let n := c.val
     (s.lets (F.dma_CH_CMD_OP n).addr) ∧ (Word.f v 31 16 = 0x444D) ∧ (Word.f v 2 0 = 1) ∧ (d.dmaSt n ≠ 0 ∨ d.g (F.hdr_PAGE_CTRL_ENABLE (dmaPage n)) =
         0)) ∧
    (let c : Fin 32 := 31
     let v : Word := 0x444D0001
     let s : State := onMem 4 [] [(F.hdr_PAGE_CTRL_ENABLE (dmaPage 31), 1)]
     let d := s.dev
     let n := c.val
     (s.lets (F.dma_CH_CMD_OP n).addr) ∧ (Word.f v 31 16 = 0x444D) ∧ (Word.f v 2 0 = 1) ∧ (d.dmaSt n = 0) ∧ (d.g (F.hdr_PAGE_CTRL_ENABLE (dmaPage n))
         = 1) ∧ (d.st < 5)) ∧
    (let c : Fin 32 := 31
     let v : Word := 0x444D0002
     let s : State := onMem 5 [] [(F.dma_CH_STAT_STATE 31, 4)]
     let d := s.dev
     let n := c.val
     (s.lets (F.dma_CH_CMD_OP n).addr) ∧ (Word.f v 31 16 = 0x444D) ∧ (Word.f v 2 0 = 2) ∧ (d.dmaSt n ≠ 0)) ∧
    (let c : Fin 32 := 31
     let v : Word := 0x444D0002
     let s : State := onMem 5 []
     let d := s.dev
     let n := c.val
     (s.lets (F.dma_CH_CMD_OP n).addr) ∧ (Word.f v 31 16 = 0x444D) ∧ (Word.f v 2 0 = 2) ∧ (d.dmaSt n = 0)) ∧
    (let c : Fin 32 := 31
     let v : Word := 0x444D0003
     let s : State := onMem 5 [] [(F.dma_CH_STAT_STATE 31, 4)]
     let d := s.dev
     let n := c.val
     (s.lets (F.dma_CH_CMD_OP n).addr) ∧ (Word.f v 31 16 = 0x444D) ∧ (Word.f v 2 0 = 3) ∧ (d.dmaSt n = 4)) ∧
    (let c : Fin 32 := 31
     let v : Word := 0x444D0003
     let s : State := onMem 5 [] [(F.dma_CH_STAT_STATE 31, 3)]
     let d := s.dev
     let n := c.val
     (s.lets (F.dma_CH_CMD_OP n).addr) ∧ (Word.f v 31 16 = 0x444D) ∧ (Word.f v 2 0 = 3) ∧ (d.dmaSt n ≠ 4)) ∧
    (let c : Fin 32 := 31
     let v : Word := 0x444D0004
     let s : State := onMem 5 [] [(F.dma_CH_STAT_STATE 31, 4)]
     let d := s.dev
     let n := c.val
     (s.lets (F.dma_CH_CMD_OP n).addr) ∧ (Word.f v 31 16 = 0x444D) ∧ (Word.f v 2 0 = 4) ∧ (d.dmaSt n = 4)) ∧
    (let c : Fin 32 := 31
     let v : Word := 0x444D0004
     let s : State := onMem 5 [] [(F.dma_CH_STAT_STATE 31, 3)]
     let d := s.dev
     let n := c.val
     (s.lets (F.dma_CH_CMD_OP n).addr) ∧ (Word.f v 31 16 = 0x444D) ∧ (Word.f v 2 0 = 4) ∧ (d.dmaSt n ≠ 4)) ∧
    (let c : Fin 32 := 31
     let v : Word := 0x444E0004
     let s : State := onMem 5 []
     let n := c.val
     let i := .skip c v
     (s.lets (F.dma_CH_CMD_OP n).addr) ∧ (Word.f v 31 16 ≠ 0x444D) ∧ (i ∈ [Instr.dmaStart c v, .dmaStop c v, .resume c v, .skip c v])) ∧
    (let c : Fin 32 := 31
     let s : State := onMem 5 [] [(F.dma_CH_STAT_STATE 31, 3), (F.dma_TAIL_LO 31, 64)]
     let d := s.dev
     let n := c.val
     (s.lets (F.dma_DOORBELL n).addr) ∧ (d.dmaSt n = 3)) ∧
    (let c : Fin 32 := 31
     let s : State := onMem 5 [] [(F.dma_CH_STAT_STATE 31, 2)]
     let d := s.dev
     let n := c.val
     (s.lets (F.dma_DOORBELL n).addr) ∧ (d.dmaSt n = 1 ∨ d.dmaSt n = 2)) ∧
    (let c : Fin 32 := 31
     let s : State := onMem 5 [] [(F.dma_CH_STAT_STATE 31, 4)]
     let d := s.dev
     let n := c.val
     (s.lets (F.dma_DOORBELL n).addr) ∧ (d.dmaSt n = 0 ∨ d.dmaSt n = 4)) ∧
    (let c : Fin 32 := 31
     let s : State := onMem 5 [] [(F.dma_CH_STAT_STATE 31, 1)] (·.dmaUpd 31 (fun t => { t with phase := 1, served := true }))
     let d := s.dev
     let n := c.val
     let t := d.dma n
     (t.phase = 1 ∨ t.phase = 3)) ∧
    (let c : Fin 32 := 31
     let s : State := onMem 5 [] [(F.dma_CH_STAT_STATE 31, 1)] (·.dmaUpd 31 (fun t => { t with phase := 1, served := true, bad := true }))
     let d := s.dev
     let n := c.val
     let t := d.dma n
     let r1 := dmaAwait n (d, s.mem)
     let d1 := r1.1
     let t1 := d1.dma n
     (t.phase = 1) ∧ (t1.bad = true)) ∧
    (let c : Fin 32 := 31
     let s : State := onMem 5 [] [(F.dma_CH_STAT_STATE 31, 1)] (·.dmaUpd 31 (fun t => { t with phase := 1, served := true, read := desc 1 1 0 0 0 0 }))
     let d := s.dev
     let n := c.val
     let t := d.dma n
     let r1 := dmaAwait n (d, s.mem)
     let d1 := r1.1
     let t1 := d1.dma n
     (t.phase = 1) ∧ (t1.bad = false) ∧ (d1.descCheck n (d1.dmaCur n) t1.read ≠ 0)) ∧
    (let c : Fin 32 := 31
     let s : State := onMem 5 [] [(F.dma_CH_STAT_STATE 31, 1)] (·.dmaUpd 31 (fun t => { t with phase := 1, served := true, read := desc 1 1 8 0x100 0x200 0 }))
     let d := s.dev
     let n := c.val
     let t := d.dma n
     let r1 := dmaAwait n (d, s.mem)
     let d1 := r1.1
     let t1 := d1.dma n
     (t.phase = 1) ∧ (t1.bad = false) ∧ (d1.descCheck n (d1.dmaCur n) t1.read = 0)) ∧
    (let c : Fin 32 := 31
     let s : State := onMem 5 [] [(F.dma_CH_STAT_STATE 31, 1)] (·.dmaUpd 31 (fun t => { t with phase := 3, served := true, read := leN 8 0x7F0000000 }))
     let d := s.dev
     let n := c.val
     let t := d.dma n
     let r1 := dmaAwait n (d, s.mem)
     let d1 := r1.1
     let t1 := d1.dma n
     let w := descF t1.read 0 8
     let code := (7 : Nat)
     (t.phase = 3) ∧ ((t1.bad = true ∧ code = 5) ∨ (t1.bad = false ∧ d1.devRegion ≤ w / 64 * 64 ∧ code = 7))) ∧
    (let c : Fin 32 := 31
     let s : State := onMem 5 [] [(F.dma_CH_STAT_STATE 31, 1)] (·.dmaUpd 31 (fun t => { t with phase := 3, served := true, read := leN 8 64 }))
     let d := s.dev
     let n := c.val
     let t := d.dma n
     let r1 := dmaAwait n (d, s.mem)
     let d1 := r1.1
     let t1 := d1.dma n
     let w := descF t1.read 0 8
     (t.phase = 3) ∧ (t1.bad = false) ∧ (w / 64 * 64 < d1.devRegion)) ∧
    (let c : Fin 32 := 31
     let s : State := onMem 5 [] [(F.dma_CH_STAT_STATE 31, 2), (F.hdr_PAGE_CTRL_ENABLE (dmaPage 31), 1)] (·.dmaUpd 31 (fun t => { t with due := 1 }))
     let d := s.dev
     let n := c.val
     let t := d.dma n
     (0 < t.due) ∧ (d.g (F.hdr_PAGE_CTRL_ENABLE (dmaPage n)) = 1) ∧ (d.dmaSt n = 2)) ∧
    (let c : Fin 32 := 31
     let s : State := onMem 5 [] [(F.dma_CH_STAT_STATE 31, 1), (F.dma_CH_CTRL_TRIG_LATCH 31, 1), (F.hdr_PAGE_CTRL_ENABLE (dmaPage 31), 1)] (·.dmaUpd 31 (fun t => { t with due := 1 }))
     let d := s.dev
     let n := c.val
     let t := d.dma n
     (0 < t.due) ∧ (d.g (F.hdr_PAGE_CTRL_ENABLE (dmaPage n)) = 1) ∧ (d.dmaSt n ≠ 2) ∧ (d.g (F.dma_CH_CTRL_TRIG_LATCH n) = 1) ∧ (d.g
         (F.dma_CH_STAT_TRIG_PEND n) = 0)) ∧
    (let c : Fin 32 := 31
     let s : State := onMem 5 [] [(F.dma_CH_STAT_STATE 31, 1), (F.hdr_PAGE_CTRL_ENABLE (dmaPage 31), 1), (F.dma_TRIG_MISSED 31, 65535)] (·.dmaUpd 31 (fun t => { t with due := 2 }))
     let d := s.dev
     let n := c.val
     let t := d.dma n
     (0 < t.due) ∧ (d.g (F.hdr_PAGE_CTRL_ENABLE (dmaPage n)) = 1) ∧ (d.dmaSt n ≠ 2) ∧ (d.g (F.dma_CH_CTRL_TRIG_LATCH n) = 0 ∨ d.g
         (F.dma_CH_STAT_TRIG_PEND n) = 1)) ∧
    (let c : Fin 32 := 31
     let s : State := onMem 5 [] [(F.dma_CH_STAT_STATE 31, 2), (F.hdr_PAGE_CTRL_ENABLE (dmaPage 31), 0)] (·.dmaUpd 31 (fun t => { t with due := 1 }))
     let d := s.dev
     let n := c.val
     let t := d.dma n
     (0 < t.due) ∧ (d.g (F.hdr_PAGE_CTRL_ENABLE (dmaPage n)) = 0)) ∧
    (let c : Fin 32 := 31
     let s : State := onAt 5 1 0 [(F.dma_CH_CTRL_TRIG_SRC 31, 1), (F.dma_TIMER_US 31, 1)] (·.dmaUpd 31 (fun t => { t with timer := some 1250 }))
     let d := s.dev
     let n := c.val
     let t := d.dma n
     let x := (1250 : Nat)
     (t.timer = some x) ∧ (d.g (F.dma_CH_CTRL_TRIG_SRC n) = 1) ∧ (x ≤ d.now)) := by
  refine ⟨?_, ?_, ?_, ?_, ?_, ?_, ?_, ?_, ?_, ?_, ?_, ?_, ?_, ?_, ?_, ?_, ?_, ?_, ?_, ?_, ?_, ?_, ?_, ?_⟩ <;> (try unfold State.lets) <;> decide +kernel

/-- Inputs that meet the hypotheses of DmaDescriptorsComplete. -/
theorem wit_dmaDescriptorsComplete :
    (let c : Fin 32 := 31
     let s : State := onMem 5 (ram 0x100 [1, 2, 3, 4, 5]) [(F.ddr_NR_CTRL_EN, 0), (F.dma_CH_CTRL_PRIO 3, 1), (F.dma_CH_STAT_STATE 31, 1), (F.dma_CH_STAT_STATE 3, 1)] (fun d => (d.dmaUpd 31 (fun t => { t with phase := 2, desc := desc 1 0x101 4 0x100 0x102 0 })).dmaUpd 3 (fun t => { t with phase := 2, desc := desc 1 0x202 100 0 0x101 7 }))
     let d := s.dev
     let n := c.val
     let t := d.dma n
     let b := t.desc
     let len := descLen b
     (t.phase = 2) ∧ (d.dmaSt n = 1) ∧ (0 < len) ∧ (len ≤ 0x40000000)) ∧
    (let c : Fin 32 := 31
     let s : State := onMem 5 (ram 0x100 [1, 2, 3, 4, 5]) [(F.ddr_NR_CTRL_EN, 0), (F.dma_CH_STAT_STATE 31, 1)] (·.dmaUpd 31 (fun t => { t with phase := 2, desc := desc 1 0x101 4 0x100 0x102 0 }))
     let d := s.dev
     let n := c.val
     let t := d.dma n
     let b := t.desc
     let ctl := descCtrl b
     let dst := descDst b
     let len := descLen b
     let r := (dmaRun n (descFrags b) (d, s.mem)).1.dma n
     let alone := d.dmaAlone n ∧ t.pos = 0 ∧ t.done = 0 ∧ t.err = 0 ∧ t.miss = none
     (t.phase = 2) ∧ (d.dmaSt n = 1) ∧ (0 < len) ∧ (len ≤ 0x40000000) ∧ (alone) ∧ (ctl % 16 = 1) ∧ (r.err = 0) ∧ (dst + len ≤ d.capacity)) ∧
    (let c : Fin 32 := 31
     let s : State := onMem 5 [] [(F.ddr_NR_CTRL_EN, 0), (F.dma_CH_STAT_STATE 31, 1)] (·.dmaUpd 31 (fun t => { t with phase := 2, desc := desc 1 0x202 1 0 0x7FFFFFFFF 0x0807060504030201 }))
     let d := s.dev
     let n := c.val
     let t := d.dma n
     let b := t.desc
     let ctl := descCtrl b
     let dst := descDst b
     let len := descLen b
     let alone := d.dmaAlone n ∧ t.pos = 0 ∧ t.done = 0 ∧ t.err = 0 ∧ t.miss = none
     (t.phase = 2) ∧ (d.dmaSt n = 1) ∧ (0 < len) ∧ (len ≤ 0x40000000) ∧ (alone) ∧ (ctl % 16 = 2) ∧ (dst + len ≤ d.capacity)) ∧
    (let c : Fin 32 := 31
     let s : State := onMem 5 (ram 0x100 [1, 2, 3, 4, 5]) [(F.ddr_NR_CTRL_EN, 0), (F.dma_CH_STAT_STATE 31, 1)] (·.dmaUpd 31 (fun t => { t with phase := 2, desc := desc 1 0x403 4 0x100 0x101 0 }))
     let d := s.dev
     let n := c.val
     let t := d.dma n
     let b := t.desc
     let ctl := descCtrl b
     let len := descLen b
     let r := (dmaRun n (descFrags b) (d, s.mem)).1.dma n
     let alone := d.dmaAlone n ∧ t.pos = 0 ∧ t.done = 0 ∧ t.err = 0 ∧ t.miss = none
     (t.phase = 2) ∧ (d.dmaSt n = 1) ∧ (0 < len) ∧ (len ≤ 0x40000000) ∧ (alone) ∧ (ctl % 16 = 3) ∧ (r.err = 0)) ∧
    (let c : Fin 32 := 31
     let s : State := onMem 5 [] [(F.ddr_NR_CTRL_EN, 0), (F.dma_CH_STAT_STATE 31, 1)] (fun d => { d.dmaUpd 31 (fun t => { t with phase := 2, desc := desc 1 0x301 4 0x100 0x200 0 }) with ddr := { d.ddr with bursts := [(4, ⟨true, []⟩)] } })
     let d := s.dev
     let n := c.val
     let t := d.dma n
     let b := t.desc
     let ctl := descCtrl b
     let len := descLen b
     let r := (dmaRun n (descFrags b) (d, s.mem)).1.dma n
     let alone := d.dmaAlone n ∧ t.pos = 0 ∧ t.done = 0 ∧ t.err = 0 ∧ t.miss = none
     (t.phase = 2) ∧ (d.dmaSt n = 1) ∧ (0 < len) ∧ (len ≤ 0x40000000) ∧ (alone) ∧ (ctl % 16 ∈ [1, 2, 3]) ∧ (r.err ≠ 0)) := by
  refine ⟨?_, ?_, ?_, ?_, ?_⟩ <;> (try unfold Dev.dmaAlone) <;> decide +kernel

/-- Inputs that meet the hypotheses of DramFragmentsEnd. -/
theorem wit_dramFragmentsEnd :
    (let sc : Fin 2 := 0
     let s : State := onMem 5 [(0, 7)] [] (fun d => { d with ddr := { d.ddr with run0 := some ⟨0, 3, 0, true, none⟩ } })
     let d := s.dev
     let k : Nat := 0
     let cls : Nat := 3
     let t : Nat := 0
     let tr : Bool := true
     (d.ddr.run sc.val = some ⟨k, cls, t, tr, none⟩) ∧ (cls < 4) ∧ (64 * k < d.capacity)) ∧
    (let sc : Fin 2 := 0
     let s : State := onMem 5 [(0, 7)] [] (fun d => { d with ddr := { d.ddr with run0 := some ⟨0, 3, 0, true, none⟩ } })
     let d := s.dev
     let k : Nat := 0
     let cls : Nat := 3
     let t : Nat := 0
     let tr : Bool := true
     let syms : List (Fin 80) := []
     let b := Tab.at {} d.ddr.bursts k
     let all := (b.syms ++ syms.map (fun (x : Fin 80) => x.val)).eraseDups
     (d.ddr.run sc.val = some ⟨k, cls, t, tr, none⟩) ∧ (cls < 4) ∧ (64 * k < d.capacity) ∧ (all = []) ∧ (b.poison = false)) ∧
    (let sc : Fin 2 := 1
     let s : State := onMem 5 [] [] (fun d => { d with ddr := { d.ddr with run1 := some ⟨1, 0, 0, false, none⟩, bursts := [(1, ⟨false, [0, 8, 16, 24]⟩)] } })
     let d := s.dev
     let k : Nat := 1
     let cls : Nat := 0
     let t : Nat := 0
     let tr : Bool := false
     let syms : List (Fin 80) := [32, 40, 48, 79]
     let b := Tab.at {} d.ddr.bursts k
     let all := (b.syms ++ syms.map (fun (x : Fin 80) => x.val)).eraseDups
     let within := match d.marked (burstSc k) with | none => decide (all.length ≤ 8) | some v => decide ((all.filter (fun x => decide (x / 8 ≠
         v))).length ≤ 4)
     (d.ddr.run sc.val = some ⟨k, cls, t, tr, none⟩) ∧ (cls < 4) ∧ (64 * k < d.capacity) ∧ (all ≠ []) ∧ (b.poison = false) ∧ (within = true)) ∧
    (let sc : Fin 2 := 1
     let s : State := onMem 5 [] [] (fun d => { d with ddr := { d.ddr with run1 := some ⟨1, 0, 0, false, none⟩, bursts := [(1, ⟨true, []⟩)] } })
     let d := s.dev
     let k : Nat := 1
     let cls : Nat := 0
     let t : Nat := 0
     let tr : Bool := false
     let syms : List (Fin 80) := []
     let b := Tab.at {} d.ddr.bursts k
     let all := (b.syms ++ syms.map (fun (x : Fin 80) => x.val)).eraseDups
     (d.ddr.run sc.val = some ⟨k, cls, t, tr, none⟩) ∧ (cls < 4) ∧ (64 * k < d.capacity) ∧ (all = []) ∧ (b.poison = true)) ∧
    (let sc : Fin 2 := 1
     let s : State := onMem 5 [] [(F.ddr_MARK_M1_EN, 1), (F.ddr_MARK_M1_DEV, 9)] (fun d => { d with ddr := { d.ddr with run1 := some ⟨1, 0, 0, false, none⟩ } })
     let d := s.dev
     let k : Nat := 1
     let cls : Nat := 0
     let t : Nat := 0
     let tr : Bool := false
     let syms : List (Fin 80) := [0, 8, 16, 24, 32]
     let b := Tab.at {} d.ddr.bursts k
     let all := (b.syms ++ syms.map (fun (x : Fin 80) => x.val)).eraseDups
     let within := match d.marked (burstSc k) with | none => decide (all.length ≤ 8) | some v => decide ((all.filter (fun x => decide (x / 8 ≠
         v))).length ≤ 4)
     (d.ddr.run sc.val = some ⟨k, cls, t, tr, none⟩) ∧ (cls < 4) ∧ (64 * k < d.capacity) ∧ (all ≠ []) ∧ (b.poison = true ∨ within = false)) ∧
    (let sc : Fin 2 := 0
     let s : State := onMem 5 [] [] (fun d => { d with ddr := { d.ddr with run0 := some ⟨0x1FFFFFFE, 1, 0, false, some (62, [1, 2])⟩ } })
     let d := s.dev
     let k : Nat := 0x1FFFFFFE
     let cls : Nat := 1
     let t : Nat := 0
     let o : Nat := 62
     let tr : Bool := false
     let bs : List Byte := [1, 2]
     (d.ddr.run sc.val = some ⟨k, cls, t, tr, some (o, bs)⟩) ∧ (0 < bs.length) ∧ (o + bs.length ≤ 64) ∧ (64 * k + 64 ≤ d.capacity)) ∧
    (let sc : Fin 2 := 1
     let s : State := onMem 5 [] [(F.ddr_MARK_N, 4)] (fun d => { d with ddr := { d.ddr with runs := [(18, 3), (19, 4)] } })
     let d := s.dev
     let v : Nat := 9
     (v < 10) ∧ (d.g F.ddr_MARK_N ≠ 0) ∧ (d.g F.ddr_MARK_N ≤ Tab.at 0 d.ddr.runs (10 * sc.val + v)) ∧ ((∀ w ∈ List.range v, Tab.at 0 d.ddr.runs (10 *
         sc.val + w) < d.g F.ddr_MARK_N)) ∧ (d.marked sc.val = none)) ∧
    (let sc : Fin 2 := 1
     let s : State := onMem 5 [] [(F.ddr_MARK_N, 4), (F.ddr_MARK_M1_EN, 1)] (fun d => { d with ddr := { d.ddr with runs := [(18, 3), (19, 4)] } })
     let d := s.dev
     let v : Nat := 9
     (v < 10) ∧ (d.g F.ddr_MARK_N ≠ 0) ∧ (d.g F.ddr_MARK_N ≤ Tab.at 0 d.ddr.runs (10 * sc.val + v)) ∧ ((∀ w ∈ List.range v, Tab.at 0 d.ddr.runs (10 *
         sc.val + w) < d.g F.ddr_MARK_N)) ∧ (d.marked sc.val ≠ none)) := by
  refine ⟨?_, ?_, ?_, ?_, ?_, ?_, ?_, ?_⟩ <;> decide +kernel

/-- Inputs that meet the hypotheses of DramServesRefreshesAndRepairs. -/
theorem wit_dramServesRefreshesAndRepairs :
    (let s : State := onMem 5 []
     let d := s.dev
     let addr : BitVec 36 := 0x7FFFFFFC0
     let len : BitVec 16 := 64
     let wr : Option (List Byte) := none
     let n := match wr with | some b => b.length | none => len.toNat
     (s.dev.g F.ddr_CFG_TRAINED = 1) ∧ (addr.toNat + n ≤ d.capacity)) ∧
    (let s : State := onMem 5 []
     let d := s.dev
     let sc : Fin 2 := 1
     (s.dev.g F.ddr_CFG_TRAINED = 1) ∧ (d.ddr.class0 sc.val = false)) ∧
    (let s : State := onMem 5 [] [(F.ddr_REF_CTRL_POSTPONE_MAX, 4), (owed 1, 3)] (fun d => { d with ddr := { d.ddr with frags := [⟨1, 0, 0, false, none⟩] } })
     let d := s.dev
     let sc : Fin 2 := 1
     let o := d.g (owed sc.val)
     (s.dev.g F.ddr_CFG_TRAINED = 1) ∧ (d.ddr.class0 sc.val = true) ∧ (o < d.g F.ddr_REF_CTRL_POSTPONE_MAX)) ∧
    (let s : State := onMem 5 [] [(F.ddr_REF_CTRL_POSTPONE_MAX, 4), (owed 1, 4)] (fun d => { d with ddr := { d.ddr with run1 := some ⟨1, 0, 0, false, none⟩ } })
     let d := s.dev
     let sc : Fin 2 := 1
     let o := d.g (owed sc.val)
     (s.dev.g F.ddr_CFG_TRAINED = 1) ∧ (d.ddr.class0 sc.val = true) ∧ (d.g F.ddr_REF_CTRL_POSTPONE_MAX ≤ o)) ∧
    (let s : State := onMem 5 [] [(owed 1, 1)]
     let d := s.dev
     let sc : Fin 2 := 1
     let o := d.g (owed sc.val)
     (s.dev.g F.ddr_CFG_TRAINED = 1) ∧ (d.ddr.class0 sc.val = false) ∧ (0 < o)) ∧
    (let s : State := onMem 5 [] [(F.ddr_NR_CTRL_RFM_REQ, 1)] (fun d => { d with ddr := { d.ddr with raaimt := 8, raa := [(63, 8)] } })
     let d := s.dev
     let sc : Fin 2 := 1
     let bank : Fin 32 := 31
     let n := Tab.at 0 d.ddr.raa (32 * sc.val + bank.val)
     (s.dev.g F.ddr_CFG_TRAINED = 1) ∧ (d.g F.ddr_NR_CTRL_RFM_REQ = 1) ∧ (n ≠ 0) ∧ (d.ddr.raaimt ≤ n) ∧ (d.ddr.run sc.val = none)) ∧
    (let s : State := onMem 5 [] [(F.ddr_PD_CTRL_PD_EN, 1), (F.ddr_PD_CTRL_PD_IDLE, 8)] (fun d => { d with time := { d.time with cycle := 5 } })
     let d := s.dev
     let sc : Fin 2 := 1
     (s.dev.g F.ddr_CFG_TRAINED = 1) ∧ (d.g F.ddr_PD_CTRL_PD_EN = 1) ∧ (d.g F.ddr_PD_CTRL_RUN_PD = 1 ∨ (d.st ≠ 6 ∧ d.st ≠ 7)) ∧ ((d.ddr.frags ++
         (d.ddr.run sc.val).toList).all (fun x => burstSc x.burst != sc.val) = true) ∧ (d.g F.ddr_PD_CTRL_PD_IDLE * 5 ≤ (d.now - Tab.at 0
         d.ddr.lastFrag sc.val) * 8) ∧ (sc.val ∉ d.ddr.powerDown)) ∧
    (let s : State := onMem 5 [] [(F.ddr_SCRUB_HOURS, 24)] (fun d => { d with ddr := { d.ddr with scrub := 0x1FFFFFFE } })
     let d := s.dev
     let total := d.capacity / 64
     (d.g F.ddr_CFG_TRAINED = 1) ∧ (d.g F.ddr_SCRUB_HOURS ≠ 0) ∧ (d.quiet = true) ∧ (d.ddr.scrub + 1 < total)) ∧
    (let s : State := onMem 5 [] [(F.ddr_SCRUB_HOURS, 24)] (fun d => { d with ddr := { d.ddr with scrub := 0x1FFFFFFF } })
     let d := s.dev
     let total := d.capacity / 64
     (d.g F.ddr_CFG_TRAINED = 1) ∧ (d.g F.ddr_SCRUB_HOURS ≠ 0) ∧ (d.quiet = true) ∧ (d.ddr.scrub + 1 = total)) ∧
    (let s : State := onMem 5 [] [(F.ddr_PPR_LOGi_STATE 7, 1)] (fun d => { d with ddr := { d.ddr with committed := [7], res := (List.range 8).map (fun i => (i, 1)) } })
     let d := s.dev
     let i := 7
     let rest := []
     let group := d.g (F.ddr_PPR_LOGi_DEV i) * 8 + burstBg (d.g2 (F.ddr_PPR_LOGi_ADDR_LO i) (F.ddr_PPR_LOGi_ADDR_HI i) / 64)
     (d.ddr.committed = i :: rest) ∧ (i < 8) ∧ (Tab.at 0 d.ddr.res group ≠ 0)) ∧
    (let s : State := onMem 5 [] [(F.ddr_PPR_LOGi_STATE 7, 1)] (fun d => { d with ddr := { d.ddr with committed := [7] } })
     let d := s.dev
     let i := 7
     let rest := []
     let group := d.g (F.ddr_PPR_LOGi_DEV i) * 8 + burstBg (d.g2 (F.ddr_PPR_LOGi_ADDR_LO i) (F.ddr_PPR_LOGi_ADDR_HI i) / 64)
     (d.ddr.committed = i :: rest) ∧ (i < 8) ∧ (Tab.at 0 d.ddr.res group = 0)) ∧
    (let s : State := onMem 5 [] [(F.ddr_PPR_LOGi_STATE 7, 2)]
     let d := s.dev
     let v : Word := 0x50500001
     (s.lets F.ddr_PPR_CMD_OP.addr) ∧ (Word.f v 31 16 = 0x5050) ∧ (Word.f v 1 0 = 1) ∧ (d.st = 5)) ∧
    (let s : State := onMem 6 []
     let d := s.dev
     let v : Word := 0x50500001
     (s.lets F.ddr_PPR_CMD_OP.addr) ∧ (Word.f v 31 16 = 0x5050) ∧ (Word.f v 1 0 = 1) ∧ (d.st ≠ 5)) ∧
    (let s : State := onMem 6 [] [(F.ddr_PPR_LOGi_STATE 7, 1)]
     let v : Word := 0x50500002
     (s.lets F.ddr_PPR_CMD_OP.addr) ∧ (Word.f v 31 16 = 0x5050) ∧ (Word.f v 1 0 = 2)) ∧
    (let s : State := onMem 6 []
     let v : Word := 0x50510002
     (s.lets F.ddr_PPR_CMD_OP.addr) ∧ (Word.f v 31 16 ≠ 0x5050)) ∧
    (let s : State := onMem 6 []
     let v : Word := 0x50510002
     (s.lets F.ddr_PPR_CMD_OP.addr) ∧ (Word.f v 31 16 ≠ 0x5050)) := by
  refine ⟨?_, ?_, ?_, ?_, ?_, ?_, ?_, ?_, ?_, ?_, ?_, ?_, ?_, ?_, ?_, ?_⟩ <;> (try unfold State.lets) <;> decide +kernel

/-- Inputs that meet the hypotheses of UnitsAreTestedAndFailOver. -/
theorem wit_unitsAreTestedAndFailOver :
    (let k : KatFail := ⟨.block 5, 3⟩
     let i : BitVec 16 := 5
     (k.part = .block i)) ∧
    (let k : KatFail := ⟨.sram 383 9, 3⟩
     let a : Fin 384 := 383
     let r : Word := 9
     (k.part = .sram a r)) ∧
    (let s : State := on 7 [] (fun d => { d with units := { d.units with rows := [(383, 9, 3)] } })
     let d := s.dev
     let k : KatFail := ⟨.spareRow 383 3, 3⟩
     let a : Fin 384 := 383
     let r : Fin 4 := 3
     let x : Nat := 9
     (k.part = .spareRow a r) ∧ (d.rowOf a.val r.val = some x) ∧ (x < 2 ^ 32)) ∧
    (let s : State := on 7
     let d := s.dev
     let u : Fin 2 := 1
     let k : KatFail := ⟨.spareRow 383 3, 3⟩
     let a : Fin 384 := 383
     let r : Fin 4 := 3
     (k.part = .spareRow a r) ∧ (d.rowOf a.val r.val = none) ∧ (d.unitSt u.val ≠ 2)) ∧
    (let s : State := on 7
     let d := s.dev
     let u : Fin 2 := 1
     let k : KatFail := ⟨.loopSlot 159, 3⟩
     let l : Fin 160 := 159
     (k.part = .loopSlot l) ∧ (d.g (sf F.slot_SLOT_MAP_MAPPED l.val) = 0) ∧ (144 ≤ l.val) ∧ (d.unitSt u.val ≠ 2)) ∧
    (let s : State := on 7
     let d := s.dev
     let u : Fin 2 := 1
     let k : KatFail := ⟨.powerSlot 55, 3⟩
     let l : Fin 56 := 55
     (k.part = .powerSlot l) ∧ (d.g (pf F.pl_PL_MAP_MAPPED l.val) = 0) ∧ (48 ≤ l.val) ∧ (d.unitSt u.val ≠ 2)) ∧
    (let s : State := on 7
     let d := s.dev
     let k : KatFail := ⟨.loopSlot 143, 3⟩
     let l : Fin 160 := 143
     (k.part = .loopSlot l) ∧ (d.g (sf F.slot_SLOT_MAP_MAPPED l.val) = 1)) ∧
    (let s : State := on 7
     let d := s.dev
     let k : KatFail := ⟨.powerSlot 47, 3⟩
     let l : Fin 56 := 47
     (k.part = .powerSlot l) ∧ (d.g (pf F.pl_PL_MAP_MAPPED l.val) = 1)) ∧
    (let s : State := on 7
     let d := s.dev
     let room := ∃ i ∈ List.range 16, d.g (F.unit_REMAP_Qi_STATE i) = 0 ∨ d.g (F.unit_REMAP_Qi_STATE i) = 3
     let row := fun (a r : Nat) (e : Dev) => room → e.entryOf 3 a r ≠ none
     let owner : Fin 3 := 1
     let array : Fin 384 := 383
     let row : Word := 9
     let again := d.units.ce.contains (owner.val, array.val, row.toNat)
     (again = false)) ∧
    (let s : State := on 7 [] (fun d => { d with units := { d.units with ce := [(1, 383, 9)] } })
     let d := s.dev
     let room := ∃ i ∈ List.range 16, d.g (F.unit_REMAP_Qi_STATE i) = 0 ∨ d.g (F.unit_REMAP_Qi_STATE i) = 3
     let row := fun (a r : Nat) (e : Dev) => room → e.entryOf 3 a r ≠ none
     let owner : Fin 3 := 1
     let array : Fin 384 := 383
     let row : Word := 9
     let again := d.units.ce.contains (owner.val, array.val, row.toNat)
     (room) ∧ (again = true)) ∧
    (let s : State := on 7
     let d := s.dev
     let room := ∃ i ∈ List.range 16, d.g (F.unit_REMAP_Qi_STATE i) = 0 ∨ d.g (F.unit_REMAP_Qi_STATE i) = 3
     (room)) ∧
    (let s : State := on 7 [(F.unit_UNIT_STAT_B_STATE, 1)] (fun d => { d with units := { d.units with directed := 2 } })
     let d := s.dev
     (d.units.directed ≠ 0)) ∧
    (let s : State := onAt 7 1 1150
     let d := s.dev
     let u : Fin 2 := 1
     let p : Fin 2 := 1
     let k := 2 * u.val + p.val
     let w : BitVec 64 := BitVec.ofNat 64 (crc16 (List.replicate 6 0))
     (crc16 ((leBytes 6 (w.toNat / 65536)).map (fun (b : Byte) => b.toNat)) = w.toNat % 65536) ∧ ((bits w.toNat 63 48 + 1) % 65536 = d.time.frame %
         65536) ∧ (bits w.toNat 47 47 = 1 - u.val) ∧ (d.time.cycle ≤ 1150) ∧ (k ∉ d.units.judged)) ∧
    (let s : State := onAt 7 0 1150 [] (fun d => { d with units := { d.units with miss := [(2, 2), (3, 3)] } })
     let d := s.dev
     let u : Fin 2 := 1
     let p : Fin 2 := 0
     let k := 2 * u.val + p.val
     (k ∉ d.units.judged) ∧ (1150 ≤ d.time.cycle)) ∧
    (let s : State := on 7 [(F.unit_UNIT_STAT_PATH_MGMT_OK, 1)] (fun d => { d with units := { d.units with miss := [(3, 3)] } })
     let d := s.dev
     let p : Fin 2 := 1
     (d.g (pathOkFld p.val) = 1) ∧ ((∃ u ∈ List.range 2, 3 ≤ d.misses u p.val ∧ d.misses u (1 - p.val) = 0))) ∧
    (let s : State := on 7 [(F.unit_UNIT_STAT_PATH_MGMT_OK, 0)] (fun d => { d with units := { d.units with run := [(1, 400), (3, 400)] } })
     let d := s.dev
     let p : Fin 2 := 1
     (d.g (pathOkFld p.val) = 0) ∧ ((∀ u ∈ List.range 2, 400 ≤ Tab.at 0 d.units.run (2 * u + p.val)))) ∧
    (let s : State := on 7 [(F.unit_UNIT_STAT_B_STATE, 1)] (fun d => { d with units := { d.units with miss := [(2, 3), (3, 3)] } })
     let d := s.dev
     (d.unitSt d.standbyUnit = 1) ∧ (d.lostBoth d.standbyUnit = true)) ∧
    (let s : State := on 7 [(F.unit_UNIT_STAT_B_STATE, 1)] (fun d => { d with units := { d.units with failDue := some 15 } })
     let d := s.dev
     let c := 15
     (d.units.failDue = some c) ∧ (c < 16) ∧ (d.unitSt d.standbyUnit = 1) ∧ (d.unitWord d.standbyUnit < 2) ∧ (d.time.cycle = 0)) := by
  refine ⟨?_, ?_, ?_, ?_, ?_, ?_, ?_, ?_, ?_, ?_, ?_, ?_, ?_, ?_, ?_, ?_, ?_, ?_⟩ <;> decide +kernel

/-- Inputs that meet the hypotheses of UnitsRecoverAndRemap. -/
theorem wit_unitsRecoverAndRemap :
    (let s : State := on 7 [(F.unit_UNIT_STAT_B_STATE, 2)]
     let d := s.dev
     let u : Fin 2 := 1
     let n := u.val
     let r := d.unitRec n
     (d.unitSt n = 2) ∧ (r.phase = 0) ∧ (d.remapWaits n = false)) ∧
    (let s : State := on 7 [(F.unit_UNIT_STAT_B_STATE, 2)] (fun d => { d with units := { d.units with recB := { phase := 1, spares := [(3, 5)] } } })
     let d := s.dev
     let u : Fin 2 := 1
     let n := u.val
     let r := d.unitRec n
     let l := ([] : List KatFail)
     (d.unitSt n = 2) ∧ (r.phase = 1) ∧ (l.any d.katCounts = false)) ∧
    (let s : State := on 7 [(F.unit_UNIT_STAT_B_STATE, 2)] (fun d => { d with units := { d.units with recB := { phase := 1 } } })
     let d := s.dev
     let u : Fin 2 := 1
     let n := u.val
     let r := d.unitRec n
     let l := [(⟨.block 5, 3⟩ : KatFail)]
     (d.unitSt n = 2) ∧ (r.phase = 1) ∧ (l.any d.katCounts = true)) ∧
    (let s : State := onAt 7 400000 0 [(F.unit_UNIT_STAT_B_STATE, 2)] (fun d => { d with units := { d.units with recB := { phase := 2 } } })
     let d := s.dev
     let u : Fin 2 := 1
     let n := u.val
     let r := d.unitRec n
     (d.unitSt n = 2) ∧ (r.phase = 2) ∧ (r.since + 400000 ≤ d.time.frame)) ∧
    (let s : State := on 7 [(F.unit_UNIT_STAT_B_STATE, 3)]
     let d := s.dev
     let u : Fin 2 := 1
     let n := u.val
     let r := d.unitRec n
     (d.unitSt n = 3) ∧ (r.phase = 0)) ∧
    (let s : State := on 7 [(F.unit_UNIT_STAT_B_STATE, 3)] (fun d => { d with units := { d.units with recB := { phase := 1, clean := 400 } } })
     let d := s.dev
     let u : Fin 2 := 1
     let n := u.val
     let r := d.unitRec n
     (d.unitSt n = 3) ∧ (r.phase = 1) ∧ (400 ≤ r.clean)) ∧
    (let s : State := on 7 [(F.unit_UNIT_STAT_ACTIVE, 1), (F.unit_REV_DWELL, 1)] (fun d => { d with units := { d.units with dwell := 400000 } })
     let d := s.dev
     (d.units.dwellEnd = none) ∧ (d.activeUnit = 1) ∧ (400000 * max 1 (d.g F.unit_REV_DWELL) ≤ d.units.dwell)) ∧
    (let s : State := on 7 [(F.unit_REV_STAT_STATE, 2), (F.unit_REV_STAT_DEFER_LEFT, 9)]
     let d := s.dev
     (s.lets F.unit_REV_DEFER.addr) ∧ (d.g (F.hdr_PAGE_CTRL_LOCK unitPage) = 0)) ∧
    (let s : State := on 7
     let v : Word := 0x55540001
     (s.lets F.unit_UNIT_CMD_OP.addr) ∧ (Word.f v 31 16 = 0x5554) ∧ (Word.f v 3 0 = 1)) ∧
    (let s : State := on 7 [(F.unit_UNIT_STAT_B_STATE, 2)] (fun d => { d with units := { d.units with recB := { phase := 2 } } })
     let v : Word := 0x55540002
     (s.lets F.unit_UNIT_CMD_OP.addr) ∧ (Word.f v 31 16 = 0x5554) ∧ (Word.f v 3 0 = 2)) ∧
    (let s : State := on 7
     let v : Word := 0x55540003
     (s.lets F.unit_UNIT_CMD_OP.addr) ∧ (Word.f v 31 16 = 0x5554) ∧ (Word.f v 3 0 = 3)) ∧
    (let s : State := on 7
     let v : Word := 0x55550003
     let i := .clearCounters v
     (s.lets F.unit_UNIT_CMD_OP.addr) ∧ (Word.f v 31 16 ≠ 0x5554) ∧ (i ∈ [Instr.directedPass v, .retry v, .clearCounters v])) ∧
    (let s : State := on 7 [(F.unit_REMAP_Qi_STATE 15, 1)]
     let d := s.dev
     let i : Fin 16 := 15
     (d.g (F.unit_REMAP_Qi_STATE i.val) = 1)) ∧
    (let s : State := on 7 [(F.unit_REMAP_Qi_STATE 15, 2)]
     (s.lets F.unit_REMAP_GO.addr)) ∧
    (let s : State := on 7
     let d := s.dev
     let room := ∃ i ∈ List.range 16, d.g (F.unit_REMAP_Qi_STATE i) = 0 ∨ d.g (F.unit_REMAP_Qi_STATE i) = 3
     let v : Word := 0x524D2005
     let k := Word.f v 13 12
     let i := Word.f v 7 0
     let mapped := (k = 0 ∧ i < 144 ∧ d.g (sf F.slot_SLOT_MAP_MAPPED i) = 1) ∨ (k = 1 ∧ i < 48 ∧ d.g (pf F.pl_PL_MAP_MAPPED i) = 1) ∨ (k = 2 ∧ i < 6 ∧
         d.g (F.ip_IP_MAP_MAPPED i) = 1)
     (s.lets F.unit_REMAP_REQ_KEY.addr) ∧ (Word.f v 31 16 = 0x524D) ∧ (mapped) ∧ (room)) ∧
    (let s : State := on 7
     let d := s.dev
     let v : Word := 0x524D2006
     let k := Word.f v 13 12
     let i := Word.f v 7 0
     let mapped := (k = 0 ∧ i < 144 ∧ d.g (sf F.slot_SLOT_MAP_MAPPED i) = 1) ∨ (k = 1 ∧ i < 48 ∧ d.g (pf F.pl_PL_MAP_MAPPED i) = 1) ∨ (k = 2 ∧ i < 6 ∧
         d.g (F.ip_IP_MAP_MAPPED i) = 1)
     (s.lets F.unit_REMAP_REQ_KEY.addr) ∧ (Word.f v 31 16 = 0x524D) ∧ (¬ mapped)) ∧
    (let s : State := on 7
     let v : Word := 0x524C2006
     (s.lets F.unit_REMAP_REQ_KEY.addr) ∧ (Word.f v 31 16 ≠ 0x524D)) ∧
    (let s : State := on 7 [] (fun d => { d with units := { d.units with healthDue := true } })
     let d := s.dev
     (d.units.healthDue = true ∨ (d.units.healthAt + 4000 ≤ d.time.frame ∧ d.healthWords.set 1 0 ≠ d.units.health.set 1 0))) := by
  refine ⟨?_, ?_, ?_, ?_, ?_, ?_, ?_, ?_, ?_, ?_, ?_, ?_, ?_, ?_, ?_, ?_, ?_, ?_⟩ <;> (try unfold State.lets) <;> decide +kernel

/-- Inputs that meet the hypotheses of TimeStepsCapturesAndCompares. -/
theorem wit_timeStepsCapturesAndCompares :
    (let v : Word := 1
     let s : State := on 7 [(F.time_TIME_INC_LO, 4252017624)]
     let d := s.dev
     let x := (Word.f v 1 0 * 2 ^ 32 + d.g F.time_TIME_INC_LO) * 1000
     (s.lets F.time_TIME_INC_HI.addr) ∧ (d.g (F.hdr_PAGE_CTRL_LOCK timePage) = 0) ∧ (1990 * 2 ^ 32 ≤ x ∧ x ≤ 2010 * 2 ^ 32)) ∧
    (let v : Word := 1
     let s : State := on 7 [(F.time_TIME_INC_LO, 4252017623)]
     let d := s.dev
     let x := (Word.f v 1 0 * 2 ^ 32 + d.g F.time_TIME_INC_LO) * 1000
     (s.lets F.time_TIME_INC_HI.addr) ∧ (d.g (F.hdr_PAGE_CTRL_LOCK timePage) = 0) ∧ (x < 1990 * 2 ^ 32 ∨ 2010 * 2 ^ 32 < x)) ∧
    (let v : Word := 0x544D0001
     let s : State := on 7 [(F.time_SET_NS, 999999999)]
     let d := s.dev
     (s.lets F.time_TIME_CMD_OP.addr) ∧ (Word.f v 31 16 = 0x544D) ∧ (Word.f v 2 0 = 1) ∧ (d.g F.time_SET_NS < 10 ^ 9)) ∧
    (let v : Word := 0x544D0001
     let s : State := on 7 [(F.time_SET_NS, 1000000000)]
     let d := s.dev
     (s.lets F.time_TIME_CMD_OP.addr) ∧ (Word.f v 31 16 = 0x544D) ∧ (Word.f v 2 0 = 1) ∧ (10 ^ 9 ≤ d.g F.time_SET_NS)) ∧
    (let v : Word := 0x544D0002
     let s : State := on 7 [(F.time_ADD_NS, 4294967295)]
     let d := s.dev
     (s.lets F.time_TIME_CMD_OP.addr) ∧ (Word.f v 31 16 = 0x544D) ∧ (Word.f v 2 0 = 2) ∧ (absI (d.gi F.time_ADD_NS) < 10 ^ 9)) ∧
    (let v : Word := 0x544D0002
     let s : State := on 7 [(F.time_ADD_NS, 3294967296)]
     let d := s.dev
     (s.lets F.time_TIME_CMD_OP.addr) ∧ (Word.f v 31 16 = 0x544D) ∧ (Word.f v 2 0 = 2) ∧ (10 ^ 9 ≤ absI (d.gi F.time_ADD_NS))) ∧
    (let v : Word := 0x544D0003
     let s : State := on 7
     (s.lets F.time_TIME_CMD_OP.addr) ∧ (Word.f v 31 16 = 0x544D) ∧ (Word.f v 2 0 = 3)) ∧
    (let v : Word := 0x544D0004
     let s : State := on 7
     (s.lets F.time_TIME_CMD_OP.addr) ∧ (Word.f v 31 16 = 0x544D) ∧ (Word.f v 2 0 = 4)) ∧
    (let v : Word := 0x544C0001
     let s : State := on 7
     (s.lets F.time_TIME_CMD_OP.addr) ∧ (Word.f v 31 16 ≠ 0x544D) ∧ (Word.f v 2 0 = 1)) ∧
    (let v : Word := 0x544C0002
     let s : State := on 7
     (s.lets F.time_TIME_CMD_OP.addr) ∧ (Word.f v 31 16 ≠ 0x544D) ∧ (Word.f v 2 0 = 2)) ∧
    (let v : Word := 0x544C0003
     let s : State := on 7
     (s.lets F.time_TIME_CMD_OP.addr) ∧ (Word.f v 31 16 ≠ 0x544D) ∧ (Word.f v 2 0 = 3)) ∧
    (let v : Word := 0x544C0004
     let s : State := on 7
     (s.lets F.time_TIME_CMD_OP.addr) ∧ (Word.f v 31 16 ≠ 0x544D) ∧ (Word.f v 2 0 = 4)) ∧
    (let s : State := on 7 [(F.time_TCMPk_PERIOD 7, 100)]
     let d := s.dev
     let k : Fin 8 := 7
     let n := k.val
     (s.lets (F.time_TCMPk_CTRL_EN n).addr) ∧ (d.g (F.hdr_PAGE_CTRL_LOCK timePage) = 0)) ∧
    (let s : State := on 7 [] (fun d => { d with time := { d.time with ns := 5, tcmp := [(7, ⟨true, 0, 5, 0⟩)] } })
     let d := s.dev
     let t := d.time
     let k : Fin 8 := 7
     let n := k.val
     let u := Tab.at {} t.tcmp n
     let x := t.since u.sec u.ns
     (u.armed = true) ∧ (0 ≤ x) ∧ (u.period = 0)) ∧
    (let s : State := on 7 [] (fun d => { d with time := { d.time with ns := 305, tcmp := [(7, ⟨true, 0, 5, 100⟩)] } })
     let d := s.dev
     let t := d.time
     let k : Fin 8 := 7
     let n := k.val
     let u := Tab.at {} t.tcmp n
     let x := t.since u.sec u.ns
     (u.armed = true) ∧ (0 ≤ x) ∧ (0 < u.period)) ∧
    (let s : State := on 7 [] (fun d => { d with time := { d.time with ns := 4, tcmp := [(7, ⟨true, 0, 5, 100⟩)] } })
     let d := s.dev
     let t := d.time
     let k : Fin 8 := 7
     let n := k.val
     let u := Tab.at {} t.tcmp n
     let x := t.since u.sec u.ns
     (u.armed = true) ∧ (x < 0)) := by
  refine ⟨?_, ?_, ?_, ?_, ?_, ?_, ?_, ?_, ?_, ?_, ?_, ?_, ?_, ?_, ?_, ?_⟩ <;> (try unfold State.lets) <;> decide +kernel

/-- Inputs that meet the hypotheses of EthernetPortsMoveFrames. -/
theorem wit_ethernetPortsMoveFrames :
    (let port : Fin 2 := 1
     let s : State := onMem 7 [] [(F.hdr_PAGE_CTRL_ENABLE ethPage, 1), (F.ethp_PORT_STAT_LINK 1, 1), (F.ethp_PORT_CTRL_RX_EN 1, 1), (F.ethp_LOG2_RX 1,
         4), (F.ethp_RX_RD 1, 1), (F.ethp_RX_WR 1, 15)]
     let d := s.dev
     let p := port.val
     let frame : List Byte := List.replicate 14 5
     let fcs : Word := BitVec.ofNat 32 (crc32 (frame.map (fun (b : Byte) => b.toNat)))
     let good := crc32 (frame.map (fun (b : Byte) => b.toNat)) = fcs.toNat
     let wr := d.g (F.ethp_RX_WR p)
     let a := d.rxBase p + 2048 * wr
     let full := (wr + 1) % d.rxSize p = d.g (F.ethp_RX_RD p)
     (d.g (F.hdr_PAGE_CTRL_ENABLE ethPage) = 1) ∧ (d.g (F.ethp_PORT_STAT_LINK p) = 1) ∧ (d.g (F.ethp_PORT_CTRL_RX_EN p) = 1) ∧ (good) ∧ (d.quiet =
         true) ∧ (14 ≤ frame.length) ∧ (frame.length ≤ 2016) ∧ (¬ full) ∧ (d.g (F.ethp_LOG2_RX p) ≤ 12) ∧ (a + 2048 ≤ d.devRegion)) ∧
    (let port : Fin 2 := 1
     let s : State := onMem 7 [] [(F.hdr_PAGE_CTRL_ENABLE ethPage, 1), (F.ethp_PORT_STAT_LINK 1, 1), (F.ethp_PORT_CTRL_RX_EN 1, 1)]
     let d := s.dev
     let p := port.val
     let frame : List Byte := List.replicate 13 5
     let fcs : Word := 5
     let good := crc32 (frame.map (fun (b : Byte) => b.toNat)) = fcs.toNat
     (d.g (F.hdr_PAGE_CTRL_ENABLE ethPage) = 1) ∧ (d.g (F.ethp_PORT_STAT_LINK p) = 1) ∧ (d.g (F.ethp_PORT_CTRL_RX_EN p) = 1) ∧ (¬ good)) ∧
    (let port : Fin 2 := 1
     let s : State := onMem 7 [] [(F.hdr_PAGE_CTRL_ENABLE ethPage, 1), (F.ethp_PORT_STAT_LINK 1, 1), (F.ethp_PORT_CTRL_RX_EN 1, 1)]
     let d := s.dev
     let p := port.val
     let frame : List Byte := List.replicate 13 5
     let fcs : Word := BitVec.ofNat 32 (crc32 (frame.map (fun (b : Byte) => b.toNat)))
     let good := crc32 (frame.map (fun (b : Byte) => b.toNat)) = fcs.toNat
     (d.g (F.hdr_PAGE_CTRL_ENABLE ethPage) = 1) ∧ (d.g (F.ethp_PORT_STAT_LINK p) = 1) ∧ (d.g (F.ethp_PORT_CTRL_RX_EN p) = 1) ∧ (good) ∧ (frame.length
         < 14)) ∧
    (let port : Fin 2 := 1
     let s : State := onMem 7 [] [(F.hdr_PAGE_CTRL_ENABLE ethPage, 1), (F.ethp_PORT_STAT_LINK 1, 1), (F.ethp_PORT_CTRL_RX_EN 1, 1), (F.ethp_LOG2_RX 1,
         4), (F.ethp_RX_RD 1, 0), (F.ethp_RX_WR 1, 15)]
     let d := s.dev
     let p := port.val
     let frame : List Byte := List.replicate 14 5
     let fcs : Word := BitVec.ofNat 32 (crc32 (frame.map (fun (b : Byte) => b.toNat)))
     let good := crc32 (frame.map (fun (b : Byte) => b.toNat)) = fcs.toNat
     let wr := d.g (F.ethp_RX_WR p)
     let full := (wr + 1) % d.rxSize p = d.g (F.ethp_RX_RD p)
     (d.g (F.hdr_PAGE_CTRL_ENABLE ethPage) = 1) ∧ (d.g (F.ethp_PORT_STAT_LINK p) = 1) ∧ (d.g (F.ethp_PORT_CTRL_RX_EN p) = 1) ∧ (good) ∧ (14 ≤
         frame.length) ∧ (frame.length ≤ 2016) ∧ (full)) ∧
    (let port : Fin 2 := 1
     let s : State := onMem 7 [] [(F.hdr_PAGE_CTRL_ENABLE ethPage, 1), (F.ethp_PORT_STAT_LINK 1, 1), (F.ethp_PORT_CTRL_TX_EN 1, 1), (F.ethp_LOG2_TX 1,
         4), (F.ethp_TX_RD 1, 15)]
     let d := s.dev
     let p := port.val
     let rd := d.g (F.ethp_TX_RD p)
     let a := d.txBase p + 2048 * rd
     (d.g (F.hdr_PAGE_CTRL_ENABLE ethPage) = 1) ∧ (d.g (F.ethp_PORT_STAT_LINK p) = 1) ∧ (d.g (F.ethp_PORT_CTRL_TX_EN p) = 1) ∧ (d.g (F.ethp_TX_RD p) ≠
         d.g (F.ethp_TX_WR p)) ∧ (d.g (F.ethp_LOG2_TX p) ≤ 12) ∧ (a + 2048 ≤ d.devRegion) ∧ (d.quiet = true)) ∧
    (let port : Fin 2 := 1
     let s : State := on 7 [(F.ethp_LOG2_TX 1, 4), (F.ethp_TX_RD 1, 15)]
     let d := s.dev
     let p := port.val
     let v : Word := 14
     let n : Int := Word.f v 11 0
     let ok := n < d.txSize p ∧ (n - d.g (F.ethp_TX_WR p)) % d.txSize p ≤ ((d.g (F.ethp_TX_RD p) : Int) - 1 - d.g (F.ethp_TX_WR p)) % d.txSize p
     (d.g (F.hdr_PAGE_CTRL_LOCK ethPage) = 0) ∧ (s.lets (F.ethp_TX_WR p).addr) ∧ (ok)) ∧
    (let port : Fin 2 := 1
     let s : State := on 7 [(F.ethp_LOG2_TX 1, 4), (F.ethp_TX_RD 1, 15)]
     let d := s.dev
     let p := port.val
     let v : Word := 15
     let n : Int := Word.f v 11 0
     let ok := n < d.txSize p ∧ (n - d.g (F.ethp_TX_WR p)) % d.txSize p ≤ ((d.g (F.ethp_TX_RD p) : Int) - 1 - d.g (F.ethp_TX_WR p)) % d.txSize p
     (d.g (F.hdr_PAGE_CTRL_LOCK ethPage) = 0) ∧ (s.lets (F.ethp_TX_WR p).addr) ∧ (¬ ok)) ∧
    (let port : Fin 2 := 1
     let s : State := on 7 [(F.ethp_LOG2_RX 1, 4), (F.ethp_RX_WR 1, 15)]
     let d := s.dev
     let p := port.val
     let v : Word := 15
     let n : Int := Word.f v 11 0
     let ok := n < d.rxSize p ∧ (n - d.g (F.ethp_RX_RD p)) % d.rxSize p ≤ ((d.g (F.ethp_RX_WR p) : Int) - d.g (F.ethp_RX_RD p)) % d.rxSize p
     (d.g (F.hdr_PAGE_CTRL_LOCK ethPage) = 0) ∧ (s.lets (F.ethp_RX_RD p).addr) ∧ (ok)) ∧
    (let port : Fin 2 := 1
     let s : State := on 7 [(F.ethp_LOG2_RX 1, 4), (F.ethp_RX_WR 1, 14)]
     let d := s.dev
     let p := port.val
     let v : Word := 15
     let n : Int := Word.f v 11 0
     let ok := n < d.rxSize p ∧ (n - d.g (F.ethp_RX_RD p)) % d.rxSize p ≤ ((d.g (F.ethp_RX_WR p) : Int) - d.g (F.ethp_RX_RD p)) % d.rxSize p
     (d.g (F.hdr_PAGE_CTRL_LOCK ethPage) = 0) ∧ (s.lets (F.ethp_RX_RD p).addr) ∧ (¬ ok)) ∧
    (let port : Fin 2 := 1
     let s : State := on 7
     let d := s.dev
     let p := port.val
     let up : Bool := true
     (d.g (F.ethp_PORT_STAT_LINK p) ≠ b2n up)) ∧
    (let port : Fin 2 := 1
     let s : State := on 7 [(F.ethp_PORT_STAT_LINK 1, 1), (F.ethp_PORT_CTRL_AN_EN 1, 1), (F.ethp_PORT_CTRL_SPEED 1, 0)]
     let d := s.dev
     let p := port.val
     (d.g (F.ethp_PORT_STAT_LINK p) = 1) ∧ (d.g (F.ethp_PORT_CTRL_AN_EN p) = 1) ∧ (d.g (F.ethp_PORT_CTRL_SPEED p) = 0)) ∧
    (let s : State := on 7
     let d := s.dev
     (s.lets F.eth_MDIO_CMD_OP.addr) ∧ (d.g F.eth_MDIO_STAT_BUSY = 0)) ∧
    (let s : State := on 7 [(F.eth_MDIO_STAT_BUSY, 1)]
     let d := s.dev
     (s.lets F.eth_MDIO_CMD_OP.addr) ∧ (d.g F.eth_MDIO_STAT_BUSY = 1)) ∧
    (let s : State := on 7 [(F.eth_MDIO_STAT_BUSY, 1)] (fun d => { d with mdio := 0x20000000 })
     let d := s.dev
     (d.g F.eth_MDIO_STAT_BUSY = 1)) := by
  refine ⟨?_, ?_, ?_, ?_, ?_, ?_, ?_, ?_, ?_, ?_, ?_, ?_, ?_, ?_⟩ <;> (try unfold State.lets) <;> decide +kernel

/-- Inputs that meet the hypotheses of RecorderWritesInOrder. -/
theorem wit_recorderWritesInOrder :
    (let s : State := onMem 7 [] [(F.evr_REGION_LO, 0x100000)] (fun d => { d with evr := { d.evr with queue := [⟨0x100, 0, 0, 0, [1]⟩] } })
     let d := s.dev
     let w := d.evr
     let x := (⟨0x100, 0, 0, 0, [1]⟩ : EvRec)
     let rest := ([] : List EvRec)
     let bs := recBytes x w.seq
     let stop := if w.keepClosed then 0x400000 else 0x100000
     (w.front = []) ∧ (w.dropped = 0) ∧ (w.closed = false) ∧ (w.queue = x :: rest) ∧ (rest.length < 2048) ∧ (d.quiet = true) ∧ (d.evrBase ≠ 0) ∧
         (d.capacity ≠ 0) ∧ (w.ofs + bs.length < stop) ∧ (w.ofs + bs.length + 8 ≠ stop) ∧ (d.evrBase + stop ≤ d.capacity)) ∧
    (let s : State := on 7
     let d := s.dev
     let w := d.evr
     (w.front = []) ∧ (w.dropped = 0) ∧ (w.queue = [])) ∧
    (let s : State := on 7
     let v : Word := 1
     (s.lets F.evr_EVR_CMD_SNAP.addr) ∧ (Word.f v 0 0 = 1)) ∧
    (let s : State := on 7
     let v : Word := 0
     (s.lets F.evr_EVR_CMD_SNAP.addr) ∧ (Word.f v 0 0 = 0)) := by
  refine ⟨?_, ?_, ?_, ?_⟩ <;> (try unfold State.lets) <;> decide +kernel

/-- Inputs that meet the hypotheses of HousekeepingJudgesAndThrottles. -/
theorem wit_housekeepingJudgesAndThrottles :
    (let s : State := on 7 [] (fun d => { d with hk := { d.hk with slot := 15 } })
     let d := s.dev
     let k := d.hk
     (d.st ≠ 0) ∧ (k.slot < 16)) ∧
    (let s : State := on 7 [] (fun d => { d with hk := { d.hk with outRun := [(15, 3)] } })
     let d := s.dev
     let k := d.hk
     let c : Fin 16 := 15
     (3 ≤ Tab.at 0 k.outRun c.val) ∧ (d.g (supplyFld c.val) = 0)) ∧
    (let s : State := on 7 [] (fun d => { d with hk := { d.hk with levelDue := true, active := [true, true, true, false] } })
     let d := s.dev
     let k := d.hk
     let i := .thermLevelChange
     (k.levelDue = true) ∧ (d.g F.hk_THERM_STAT_LEVEL ≠ 3) ∧ (k.level ≠ d.g F.hk_THERM_STAT_LEVEL) ∧ (i ∈ [Instr.thermLevelChange, .sensorBrokenLong])
         ∧ (i = .thermLevelChange ∨ 125 ≤ k.broken) ∧ (k.level = 3)) ∧
    (let s : State := on 7 [] (fun d => { d with hk := { d.hk with levelDue := true, broken := 125 } })
     let d := s.dev
     let k := d.hk
     let i := .sensorBrokenLong
     (k.levelDue = true) ∧ (d.g F.hk_THERM_STAT_LEVEL ≠ 3) ∧ (k.level ≠ d.g F.hk_THERM_STAT_LEVEL) ∧ (i ∈ [Instr.thermLevelChange, .sensorBrokenLong])
         ∧ (i = .thermLevelChange ∨ 125 ≤ k.broken) ∧ (k.level = 2)) ∧
    (let s : State := on 7 [(F.hk_THERM_STAT_LEVEL, 2), (F.hk_THERM_STAT_THR_LEVEL, 1)] (fun d => { d with hk := { d.hk with levelDue := true } })
     let d := s.dev
     let k := d.hk
     let i := .thermLevelChange
     (k.levelDue = true) ∧ (d.g F.hk_THERM_STAT_LEVEL ≠ 3) ∧ (k.level ≠ d.g F.hk_THERM_STAT_LEVEL) ∧ (i ∈ [Instr.thermLevelChange, .sensorBrokenLong])
         ∧ (i = .thermLevelChange ∨ 125 ≤ k.broken) ∧ (k.level < 2) ∧ (d.g F.hk_THERM_STAT_LEVEL = 2)) ∧
    (let s : State := on 7 [] (fun d => { d with hk := { d.hk with levelDue := true, active := [true, false, false, false] } })
     let d := s.dev
     let k := d.hk
     let i := .thermLevelChange
     (k.levelDue = true) ∧ (d.g F.hk_THERM_STAT_LEVEL ≠ 3) ∧ (k.level ≠ d.g F.hk_THERM_STAT_LEVEL) ∧ (i ∈ [Instr.thermLevelChange, .sensorBrokenLong])
         ∧ (i = .thermLevelChange ∨ 125 ≤ k.broken) ∧ (k.level < 2) ∧ (d.g F.hk_THERM_STAT_LEVEL ≠ 2)) ∧
    (let s : State := on 7 [(F.hk_THERM_STAT_LEVEL, 2), (F.hk_THERM_STAT_THR_LEVEL, 5), (F.hk_THERM_STAT_T_DIE, 0x640)] (fun d => { d with hk := { d.hk with sinceStep := 4, good := true } })
     let d := s.dev
     let k := d.hk
     let thr := d.g F.hk_THERM_STAT_THR_LEVEL
     let hot := k.good = true ∧ nthI (if k.thr = [] then d.thrRegs else k.thr) 1 ≤ d.gi F.hk_THERM_STAT_T_DIE
     (k.stepped = false) ∧ (0 < k.sinceStep) ∧ (k.sinceStep % 4 = 0) ∧ (d.g F.hk_THERM_STAT_LEVEL = 2) ∧ (hot) ∧ (thr < 6)) ∧
    (let s : State := on 7 [(F.hk_THERM_STAT_LEVEL, 2), (F.hk_THERM_STAT_THR_LEVEL, 6), (F.hk_THERM_STAT_T_DIE, 0x640)] (fun d => { d with hk := { d.hk with sinceStep := 4, good := true } })
     let d := s.dev
     let k := d.hk
     let thr := d.g F.hk_THERM_STAT_THR_LEVEL
     let hot := k.good = true ∧ nthI (if k.thr = [] then d.thrRegs else k.thr) 1 ≤ d.gi F.hk_THERM_STAT_T_DIE
     (k.stepped = false) ∧ (0 < k.sinceStep) ∧ (k.sinceStep % 4 = 0) ∧ (d.g F.hk_THERM_STAT_LEVEL = 2) ∧ (¬ hot ∨ 6 ≤ thr)) ∧
    (let s : State := on 7 [(F.hk_THERM_STAT_LEVEL, 1), (F.hk_THERM_STAT_THR_LEVEL, 1)] (fun d => { d with hk := { d.hk with sinceStep := 4 } })
     let d := s.dev
     let k := d.hk
     let thr := d.g F.hk_THERM_STAT_THR_LEVEL
     let low := d.g F.hk_THR_MIN
     (k.stepped = false) ∧ (0 < k.sinceStep) ∧ (k.sinceStep % 4 = 0) ∧ (d.g F.hk_THERM_STAT_LEVEL < 2) ∧ (low < thr)) ∧
    (let s : State := on 7 [(F.hk_T_WARN, 0x5F0), (F.hk_T_THROTTLE, 0x640), (F.hk_T_CRIT, 0x6E0)]
     let d := s.dev
     let w : Fin 3 := 2
     let v : Word := 0x641
     let x := sx 16 (Word.f v 15 0)
     let t := d.thrRegs.set w.val x
     let ok := x ≤ nthI (gradeThr (d.g F.sys_DEV_ID_GRADE)) w.val ∧ nthI t 0 ≤ nthI t 1 ∧ nthI t 1 < nthI t 2
     (s.lets (thrFld w.val).addr) ∧ (d.g (F.hdr_PAGE_CTRL_LOCK hkPage) = 0) ∧ (ok)) ∧
    (let s : State := on 7 [(F.hk_T_WARN, 0x5F0), (F.hk_T_THROTTLE, 0x640), (F.hk_T_CRIT, 0x6E0)]
     let d := s.dev
     let w : Fin 3 := 2
     let v : Word := 0x640
     let x := sx 16 (Word.f v 15 0)
     let t := d.thrRegs.set w.val x
     let ok := x ≤ nthI (gradeThr (d.g F.sys_DEV_ID_GRADE)) w.val ∧ nthI t 0 ≤ nthI t 1 ∧ nthI t 1 < nthI t 2
     (s.lets (thrFld w.val).addr) ∧ (d.g (F.hdr_PAGE_CTRL_LOCK hkPage) = 0) ∧ (¬ ok)) := by
  refine ⟨?_, ?_, ?_, ?_, ?_, ?_, ?_, ?_, ?_, ?_, ?_⟩ <;> (try unfold State.lets) <;> decide +kernel

/-- Inputs that meet the hypotheses of CalibrationRunsRecordsAndNor. -/
theorem wit_calibrationRunsRecordsAndNor :
    (let s : State := on 5
     let v : Word := 0x434C3001
     let op := Word.f v 3 0
     let h := Word.f v 13 8
     let rows := [Instr.runStart v, .runSubmit v, .runCancel v, .reload v, .acceptSerial v, .norRead v, .norProgram v, .norErase v]
     let i := .runStart v
     (s.lets F.cal_CAL_CMD_OP.addr) ∧ (i ∈ rows) ∧ (rows[op - 1]? = some i) ∧ (1 ≤ op) ∧ (Word.f v 31 16 ≠ 0x434C ∨ 48 ≤ h)) ∧
    (let s : State := on 7
     let d := s.dev
     let run := d.g F.cal_RUN_STAT_STATE
     let busy := d.cal.reload ≠ none ∨ d.cal.norOp ≠ none
     let v : Word := 0x434C2F51
     let op := Word.f v 3 0
     let h := Word.f v 13 8
     let t := Word.f v 6 4
     (s.lets F.cal_CAL_CMD_OP.addr) ∧ (Word.f v 31 16 = 0x434C) ∧ (h < 48) ∧ (op = 1) ∧ (1 ≤ t) ∧ (t ≤ 5) ∧ (d.st ∈ [5, 6, 7]) ∧ (run = 0) ∧ (¬ busy))
         ∧
    (let s : State := on 8
     let d := s.dev
     let v : Word := 0x434C2F51
     let op := Word.f v 3 0
     let h := Word.f v 13 8
     let t := Word.f v 6 4
     (s.lets F.cal_CAL_CMD_OP.addr) ∧ (Word.f v 31 16 = 0x434C) ∧ (h < 48) ∧ (op = 1) ∧ (1 ≤ t) ∧ (t ≤ 5) ∧ (d.st ∉ [5, 6, 7])) ∧
    (let s : State := on 5 [(F.ddr_NR_CTRL_EN, 0), (F.cal_RUN_STAT_STATE, 1)]
     let d := s.dev
     let run := d.g F.cal_RUN_STAT_STATE
     let busy := d.cal.reload ≠ none ∨ d.cal.norOp ≠ none
     let v : Word := 0x434C2F51
     let op := Word.f v 3 0
     let h := Word.f v 13 8
     let t := Word.f v 6 4
     (s.lets F.cal_CAL_CMD_OP.addr) ∧ (Word.f v 31 16 = 0x434C) ∧ (h < 48) ∧ (op = 1) ∧ (1 ≤ t) ∧ (t ≤ 5) ∧ (d.st ∈ [5, 6, 7]) ∧ (run ≠ 0 ∨ busy)) ∧
    (let s : State := on 5
     let v : Word := 0x434C2F61
     let op := Word.f v 3 0
     let h := Word.f v 13 8
     let t := Word.f v 6 4
     (s.lets F.cal_CAL_CMD_OP.addr) ∧ (Word.f v 31 16 = 0x434C) ∧ (h < 48) ∧ (op = 1) ∧ (t < 1 ∨ 5 < t)) ∧
    (let s : State := on 5
     let d := s.dev
     let run := d.g F.cal_RUN_STAT_STATE
     let v : Word := 0x434C0002
     let op := Word.f v 3 0
     let h := Word.f v 13 8
     (s.lets F.cal_CAL_CMD_OP.addr) ∧ (Word.f v 31 16 = 0x434C) ∧ (h < 48) ∧ (op = 2) ∧ (d.quiet = true) ∧ (run = 0 ∨ run = 3)) ∧
    (let s : State := onMem 5 [] [(F.ddr_NR_CTRL_EN, 0), (F.cal_RUN_STAT_STATE, 1), (F.cal_RUN_STAT_TYPE, 2)]
     let d := s.dev
     let run := d.g F.cal_RUN_STAT_STATE
     let h0 := d.g F.cal_RUN_STAT_HEAD
     let t0 := d.g F.cal_RUN_STAT_TYPE
     let v : Word := 0x434C0002
     let op := Word.f v 3 0
     let h := Word.f v 13 8
     let a := d.g F.cal_CAND_LO * 8 + d.g F.cal_CAND_HI * 2 ^ 32
     let b := memBytes s.mem a (36 + calLen t0)
     let good := a + (36 + calLen t0) ≤ d.devRegion ∧ (d.dramRead 3 a (36 + calLen t0)).1 = false ∧ calValid h0 t0 b = true ∧ leAt b 8 4 = 0 ∧ (d.lane
         h0).serial = some (leAt b 16 8)
     (s.lets F.cal_CAL_CMD_OP.addr) ∧ (Word.f v 31 16 = 0x434C) ∧ (h < 48) ∧ (op = 2) ∧ (d.quiet = true) ∧ (run = 1 ∨ run = 2) ∧ (¬ good)) ∧
    (let s : State := onMem 5 (ram 0x100 (rec2 47 0)) [(F.ddr_NR_CTRL_EN, 0), (F.cal_RUN_STAT_STATE, 1), (F.cal_RUN_STAT_TYPE, 2), (F.cal_RUN_STAT_HEAD, 47), (F.cal_CAND_LO, 0x20)] (·.laneUpd 47 (fun l => { l with serial := some 9 }))
     let d := s.dev
     let run := d.g F.cal_RUN_STAT_STATE
     let h0 := d.g F.cal_RUN_STAT_HEAD
     let t0 := d.g F.cal_RUN_STAT_TYPE
     let v : Word := 0x434C0002
     let op := Word.f v 3 0
     let h := Word.f v 13 8
     let a := d.g F.cal_CAND_LO * 8 + d.g F.cal_CAND_HI * 2 ^ 32
     let b := memBytes s.mem a (36 + calLen t0)
     let good := a + (36 + calLen t0) ≤ d.devRegion ∧ (d.dramRead 3 a (36 + calLen t0)).1 = false ∧ calValid h0 t0 b = true ∧ leAt b 8 4 = 0 ∧ (d.lane
         h0).serial = some (leAt b 16 8)
     (s.lets F.cal_CAL_CMD_OP.addr) ∧ (Word.f v 31 16 = 0x434C) ∧ (h < 48) ∧ (op = 2) ∧ (d.quiet = true) ∧ (run = 1) ∧ (good)) ∧
    (let s : State := onMem 5 (ram 0x100 (rec2 47 0)) [(F.ddr_NR_CTRL_EN, 0), (F.cal_RUN_STAT_STATE, 2), (F.cal_RUN_STAT_TYPE, 2), (F.cal_RUN_STAT_HEAD, 47), (F.cal_CAND_LO, 0x20)] (fun d => { d.laneUpd 47 (fun l => { l with serial := some 9 }) with cal := { d.cal with run1 := rec2 47 0 } })
     let d := s.dev
     let run := d.g F.cal_RUN_STAT_STATE
     let h0 := d.g F.cal_RUN_STAT_HEAD
     let t0 := d.g F.cal_RUN_STAT_TYPE
     let v : Word := 0x434C0002
     let op := Word.f v 3 0
     let h := Word.f v 13 8
     let a := d.g F.cal_CAND_LO * 8 + d.g F.cal_CAND_HI * 2 ^ 32
     let b := memBytes s.mem a (36 + calLen t0)
     let good := a + (36 + calLen t0) ≤ d.devRegion ∧ (d.dramRead 3 a (36 + calLen t0)).1 = false ∧ calValid h0 t0 b = true ∧ leAt b 8 4 = 0 ∧ (d.lane
         h0).serial = some (leAt b 16 8)
     let differ := fun (w : Nat) => d.calAgree t0 (nth (calWords t0 d.cal.run1) w) (nth (calWords t0 b) w) = false
     (s.lets F.cal_CAL_CMD_OP.addr) ∧ (Word.f v 31 16 = 0x434C) ∧ (h < 48) ∧ (op = 2) ∧ (d.quiet = true) ∧ (run = 2) ∧ (good) ∧ ((∀ w < calLen t0 / 4,
         ¬ differ w))) ∧
    (let s : State := onMem 5 (ram 0x100 (rec2 47 200)) [(F.ddr_NR_CTRL_EN, 0), (F.cal_RUN_STAT_STATE, 2), (F.cal_RUN_STAT_TYPE, 2), (F.cal_RUN_STAT_HEAD, 47), (F.cal_CAND_LO, 0x20)] (fun d => { d.laneUpd 47 (fun l => { l with serial := some 9 }) with cal := { d.cal with run1 := rec2 47 0 } })
     let d := s.dev
     let run := d.g F.cal_RUN_STAT_STATE
     let h0 := d.g F.cal_RUN_STAT_HEAD
     let t0 := d.g F.cal_RUN_STAT_TYPE
     let v : Word := 0x434C0002
     let op := Word.f v 3 0
     let h := Word.f v 13 8
     let a := d.g F.cal_CAND_LO * 8 + d.g F.cal_CAND_HI * 2 ^ 32
     let b := memBytes s.mem a (36 + calLen t0)
     let good := a + (36 + calLen t0) ≤ d.devRegion ∧ (d.dramRead 3 a (36 + calLen t0)).1 = false ∧ calValid h0 t0 b = true ∧ leAt b 8 4 = 0 ∧ (d.lane
         h0).serial = some (leAt b 16 8)
     let differ := fun (w : Nat) => d.calAgree t0 (nth (calWords t0 d.cal.run1) w) (nth (calWords t0 b) w) = false
     let w : Nat := 0
     (s.lets F.cal_CAL_CMD_OP.addr) ∧ (Word.f v 31 16 = 0x434C) ∧ (h < 48) ∧ (op = 2) ∧ (d.quiet = true) ∧ (run = 2) ∧ (good) ∧ (w < calLen t0 / 4) ∧
         (differ w) ∧ ((∀ x ∈ List.range w, ¬ differ x))) ∧
    (let s : State := on 5 [(F.ddr_NR_CTRL_EN, 0), (F.cal_RUN_STAT_STATE, 1), (F.cal_RUN_STAT_TYPE, 5), (F.cal_RUN_STAT_HEAD, 47)]
     let d := s.dev
     let run := d.g F.cal_RUN_STAT_STATE
     let v : Word := 0x434C0003
     let op := Word.f v 3 0
     let h := Word.f v 13 8
     (s.lets F.cal_CAL_CMD_OP.addr) ∧ (Word.f v 31 16 = 0x434C) ∧ (h < 48) ∧ (op = 3) ∧ (run ≠ 0)) ∧
    (let s : State := on 5
     let d := s.dev
     let run := d.g F.cal_RUN_STAT_STATE
     let v : Word := 0x434C0003
     let op := Word.f v 3 0
     let h := Word.f v 13 8
     (s.lets F.cal_CAL_CMD_OP.addr) ∧ (Word.f v 31 16 = 0x434C) ∧ (h < 48) ∧ (op = 3) ∧ (run = 0)) ∧
    (let s : State := on 5
     let d := s.dev
     let run := d.g F.cal_RUN_STAT_STATE
     let busy := d.cal.reload ≠ none ∨ d.cal.norOp ≠ none
     let v : Word := 0x434C2F04
     let op := Word.f v 3 0
     let h := Word.f v 13 8
     (s.lets F.cal_CAL_CMD_OP.addr) ∧ (Word.f v 31 16 = 0x434C) ∧ (h < 48) ∧ (op = 4) ∧ (d.st = 5) ∧ (run = 0) ∧ (¬ busy)) ∧
    (let s : State := on 6
     let d := s.dev
     let v : Word := 0x434C2F04
     let op := Word.f v 3 0
     let h := Word.f v 13 8
     (s.lets F.cal_CAL_CMD_OP.addr) ∧ (Word.f v 31 16 = 0x434C) ∧ (h < 48) ∧ (op = 4) ∧ (d.st ≠ 5)) ∧
    (let s : State := on 5 [(F.ddr_NR_CTRL_EN, 0), (F.cal_RUN_STAT_STATE, 1)]
     let d := s.dev
     let run := d.g F.cal_RUN_STAT_STATE
     let busy := d.cal.reload ≠ none ∨ d.cal.norOp ≠ none
     let v : Word := 0x434C2F04
     let op := Word.f v 3 0
     let h := Word.f v 13 8
     (s.lets F.cal_CAL_CMD_OP.addr) ∧ (Word.f v 31 16 = 0x434C) ∧ (h < 48) ∧ (op = 4) ∧ (d.st = 5) ∧ (run ≠ 0 ∨ busy)) ∧
    (let s : State := on 5 [] (·.laneUpd 47 (fun l => { l with serial := some 9 }))
     let d := s.dev
     let v : Word := 0x434C2F05
     let op := Word.f v 3 0
     let h := Word.f v 13 8
     let x := (9 : Nat)
     (s.lets F.cal_CAL_CMD_OP.addr) ∧ (Word.f v 31 16 = 0x434C) ∧ (h < 48) ∧ (op = 5) ∧ ((d.lane h).serial = some x)) ∧
    (let s : State := on 5 [] (fun d => { d with cal := { d.cal with reload := some 47 } })
     let d := s.dev
     let h : Nat := 47
     (h < 48) ∧ (d.cal.reload = some h)) ∧
    (let s : State := on 5 [(F.ddr_NR_CTRL_EN, 0), (F.cal_RUN_STAT_STATE, 3), (F.cal_RUN_STAT_TYPE, 2), (F.cal_RUN_STAT_HEAD, 47)] (fun d => { d with cal := { d.cal with run1 := rec2 47 0, run2 := rec2 47 0 } })
     let d := s.dev
     let run := d.g F.cal_RUN_STAT_STATE
     (run = 3) ∧ (d.cal.loadWaits = false)) ∧
    (let s : State := on 5 [] (fun d => { d with cal := { d.cal with cut := some (47, 2, rec2 47 0, rec2 47 0) } })
     let d := s.dev
     let run := d.g F.cal_RUN_STAT_STATE
     let h : Nat := 47
     let t : Nat := 2
     let x : List Nat := rec2 47 0
     let y : List Nat := rec2 47 0
     (run ≠ 3) ∧ (d.cal.cut = some (h, t, x, y))) ∧
    (let s : State := on 5 [(F.cal_NOR_LEN, 1), (F.cal_NOR_ADDR, 255)]
     let d := s.dev
     let run := d.g F.cal_RUN_STAT_STATE
     let busy := d.cal.reload ≠ none ∨ d.cal.norOp ≠ none
     let a := d.g F.cal_NOR_ADDR
     let n := d.g F.cal_NOR_LEN
     let v : Word := 0x434C0007
     let x := (7, Instr.norProgram v)
     (s.lets F.cal_CAL_CMD_OP.addr) ∧ (Word.f v 31 16 = 0x434C) ∧ (Word.f v 13 8 < 48) ∧ (x ∈ [(6, Instr.norRead v), (7, .norProgram v), (8, .norErase
         v)]) ∧ (Word.f v 3 0 = x.1) ∧ (d.st = 5) ∧ (run = 0) ∧ (¬ busy) ∧ (x.1 = 8 ∨ (n ≠ 0 ∧ a % 256 + n ≤ 256))) ∧
    (let s : State := on 6
     let d := s.dev
     let run := d.g F.cal_RUN_STAT_STATE
     let v : Word := 0x434C0008
     let x := (8, Instr.norErase v)
     (s.lets F.cal_CAL_CMD_OP.addr) ∧ (Word.f v 31 16 = 0x434C) ∧ (Word.f v 13 8 < 48) ∧ (x ∈ [(6, Instr.norRead v), (7, .norProgram v), (8, .norErase
         v)]) ∧ (Word.f v 3 0 = x.1) ∧ (d.st ≠ 5 ∨ run ≠ 0)) ∧
    (let s : State := on 5 [] (fun d => { d with cal := { d.cal with reload := some 1 } })
     let d := s.dev
     let run := d.g F.cal_RUN_STAT_STATE
     let busy := d.cal.reload ≠ none ∨ d.cal.norOp ≠ none
     let v : Word := 0x434C0006
     let x := (6, Instr.norRead v)
     (s.lets F.cal_CAL_CMD_OP.addr) ∧ (Word.f v 31 16 = 0x434C) ∧ (Word.f v 13 8 < 48) ∧ (x ∈ [(6, Instr.norRead v), (7, .norProgram v), (8, .norErase
         v)]) ∧ (Word.f v 3 0 = x.1) ∧ (d.st = 5) ∧ (run = 0) ∧ (busy)) ∧
    (let s : State := on 5 [] (fun d => { d with cal := { d.cal with norOp := some (6, 0, 256, []) } })
     let d := s.dev
     let a := d.g F.cal_NOR_ADDR
     let n := d.g F.cal_NOR_LEN
     let op : Nat := 6
     let a : Nat := 0
     let n : Nat := 256
     let buf : List Nat := []
     (d.cal.norOp = some (op, a, n, buf)) ∧ (op = 6) ∧ (n ≤ 256)) ∧
    (let s : State := { on 5 [] (fun d => { d with cal := { d.cal with norOp := some (7, 255, 1, [5]) } }) with nor := [(255, 0x0C)] }
     let d := s.dev
     let a := d.g F.cal_NOR_ADDR
     let n := d.g F.cal_NOR_LEN
     let op : Nat := 7
     let a : Nat := 255
     let n : Nat := 1
     let buf : List Nat := [5]
     (d.cal.norOp = some (op, a, n, buf)) ∧ (op = 7)) ∧
    (let s : State := { on 5 [] (fun d => { d with cal := { d.cal with norOp := some (8, 4096, 0, []) } }) with nor := [(4095, 1), (4096, 2), (8191, 3), (8192, 4)] }
     let d := s.dev
     let a := d.g F.cal_NOR_ADDR
     let n := d.g F.cal_NOR_LEN
     let op : Nat := 8
     let a : Nat := 4096
     let n : Nat := 0
     let buf : List Nat := []
     (d.cal.norOp = some (op, a, n, buf)) ∧ (op = 8)) := by
  refine ⟨?_, ?_, ?_, ?_, ?_, ?_, ?_, ?_, ?_, ?_, ?_, ?_, ?_, ?_, ?_, ?_, ?_, ?_, ?_, ?_, ?_, ?_, ?_, ?_, ?_⟩ <;> (try unfold State.lets) <;> decide +kernel

/-- Inputs that meet the hypotheses of Sc12ListsRunsAndReports. -/
theorem wit_sc12ListsRunsAndReports :
    (let s : State := on 7 [(F.sys_SYS_STATE_MODE, 2)] (·.sccUpd 11 (fun c => { c with part := [1, 2] }))
     let d := s.dev
     let c : Fin 12 := 11
     let n := c.val
     let ch := d.scc n
     (s.dev.st ≠ 0) ∧ (s.dev.g F.sys_SYS_STATE_MODE = 2) ∧ (ch.part.length < 3) ∧ (ch.segs.length < 65536)) ∧
    (let s : State := on 7 [(F.sys_SYS_STATE_MODE, 2)] (·.sccUpd 11 (fun c => { c with part := [1, 2, 3] }))
     let d := s.dev
     let c : Fin 12 := 11
     let n := c.val
     let ch := d.scc n
     (s.dev.st ≠ 0) ∧ (s.dev.g F.sys_SYS_STATE_MODE = 2) ∧ (ch.part.length = 3) ∧ (ch.segs.length < 65536)) ∧
    (let s : State := on 7 [(F.sys_SYS_STATE_MODE, 2)] (·.sccUpd 11 (fun c => { c with part := [1, 2], segs := List.replicate 65536 [] }))
     let d := s.dev
     let c : Fin 12 := 11
     let n := c.val
     let ch := d.scc n
     (s.dev.st ≠ 0) ∧ (s.dev.g F.sys_SYS_STATE_MODE = 2) ∧ (65536 ≤ ch.segs.length)) ∧
    (let s : State := on 7 [(F.sys_SYS_STATE_MODE, 2), (F.scc_CH_STATE 11, 1)]
     let d := s.dev
     let c : Fin 12 := 11
     let n := c.val
     (s.dev.st ≠ 0) ∧ (s.dev.g F.sys_SYS_STATE_MODE = 2) ∧ (d.g (F.scc_CH_STATE n) ≠ 2)) ∧
    (let s : State := on 7 [(F.sys_SYS_STATE_MODE, 2), (F.scc_CH_STATE 11, 2)]
     let d := s.dev
     let c : Fin 12 := 11
     let n := c.val
     (s.dev.st ≠ 0) ∧ (s.dev.g F.sys_SYS_STATE_MODE = 2) ∧ (d.g (F.scc_CH_STATE n) = 2)) ∧
    (let s : State := on 7 [(F.sys_SYS_STATE_MODE, 2), (F.sc_SC_CTRL_ENABLE, 1)]
     let d := s.dev
     (s.dev.st ≠ 0) ∧ (s.dev.g F.sys_SYS_STATE_MODE = 2) ∧ (d.st = 7 ∨ d.sc.phase = 1 ∨ d.sc.phase = 2) ∧ (d.g F.sc_SC_CTRL_ENABLE = 1)) ∧
    (let s : State := on 6 [(F.sys_SYS_STATE_MODE, 2), (F.sc_SC_CTRL_ENABLE, 1)]
     let d := s.dev
     let v : Word := 0x800
     let c : Nat := 11
     (s.dev.st ≠ 0) ∧ (s.dev.g F.sys_SYS_STATE_MODE = 2) ∧ ((d.st ≠ 7 ∧ d.sc.phase ≠ 1 ∧ d.sc.phase ≠ 2) ∨ d.g F.sc_SC_CTRL_ENABLE = 0) ∧ (c < 12) ∧
         (v.getLsbD c = true) ∧ ((∀ k ∈ List.range c, v.getLsbD k = false))) ∧
    (let s : State := onMem 7 [] [(F.sys_SYS_STATE_MODE, 2)] (fun d => { d with sc := { d.sc with trans := some 0 } })
     let d := s.dev
     let mask := (0 : Nat)
     (s.dev.st ≠ 0) ∧ (s.dev.g F.sys_SYS_STATE_MODE = 2) ∧ (d.sc.trans = some mask) ∧ (1 ≤ d.g F.ddr_CFG_CAP_GB)) ∧
    (let s : State := on 5 [(F.sys_SYS_STATE_MODE, 2)] (fun d => { d with sc := { d.sc with ok := true } })
     let d := s.dev
     let v : Word := 1
     (s.dev.st ≠ 0) ∧ (s.dev.g F.sys_SYS_STATE_MODE = 2) ∧ (Word.f v 0 0 = 1) ∧ (d.g F.sc_SC_CTRL_ENABLE = 0) ∧ (d.sc.ok = true) ∧ (d.st = 5) ∧
         (d.ctl.cmd = 0)) ∧
    (let s : State := on 6 [(F.sys_SYS_STATE_MODE, 2)] (fun d => { d with sc := { d.sc with ok := true } })
     let d := s.dev
     let v : Word := 1
     (s.dev.st ≠ 0) ∧ (s.dev.g F.sys_SYS_STATE_MODE = 2) ∧ (Word.f v 0 0 = 1) ∧ (d.g F.sc_SC_CTRL_ENABLE = 0) ∧ (d.sc.ok = true) ∧ (d.st ≠ 5 ∨
         d.ctl.cmd ≠ 0)) ∧
    (let s : State := on 5 [(F.sys_SYS_STATE_MODE, 2)]
     let d := s.dev
     let v : Word := 1
     (s.dev.st ≠ 0) ∧ (s.dev.g F.sys_SYS_STATE_MODE = 2) ∧ (Word.f v 0 0 = 1) ∧ (d.g F.sc_SC_CTRL_ENABLE = 0) ∧ (d.sc.ok = false)) ∧
    (let s : State := on 7 [(F.sys_SYS_STATE_MODE, 2), (F.sc_SC_CTRL_ENABLE, 1)]
     let d := s.dev
     let v : Word := 0
     (s.dev.st ≠ 0) ∧ (s.dev.g F.sys_SYS_STATE_MODE = 2) ∧ (Word.f v 0 0 = 0) ∧ (d.g F.sc_SC_CTRL_ENABLE = 1)) ∧
    (let s : State := on 7 [(F.sys_SYS_STATE_MODE, 2), (F.scc_CH_STATE 11, 2)]
     (s.dev.st ≠ 0) ∧ (s.dev.g F.sys_SYS_STATE_MODE = 2)) ∧
    (let s : State := on 7 [(F.sys_SYS_STATE_MODE, 2), (F.scc_CH_STATE 11, 3)]
     (s.dev.st ≠ 0) ∧ (s.dev.g F.sys_SYS_STATE_MODE = 2)) ∧
    (let s : State := on 7 [(F.sys_SYS_STATE_MODE, 2), (F.scc_CH_STATE 11, 2), (F.seq_LAYER_STAT_OPEN, 1), (F.seq_LAYER_FRAMES, 18)] (fun d => { d with sc := { d.sc with ok := true, pers := List.replicate 368 0 ++ [0x85] } })
     let d := s.dev
     let c : Fin 12 := 11
     let n := c.val
     let h := 5
     (s.dev.st ≠ 0) ∧ (s.dev.g F.sys_SYS_STATE_MODE = 2) ∧ (d.scHead n = some h) ∧ (d.g (F.scc_CH_STATE n) = 2) ∧ (d.g F.seq_LAYER_STAT_OPEN = 1) ∧
         (17 < d.g F.seq_LAYER_FRAMES) ∧ (d.streamExposed h = true)) ∧
    (let s : State := on 7 [(F.sys_SYS_STATE_MODE, 2)] (fun d => { d with sc := { d.sc with ok := true, pers := List.replicate 368 0 ++ [0x85], orphans := [(0, 400000)] }, hand := { d.hand with items := [(0, { src := 5, orphan := true })] } })
     let d := s.dev
     let c : Fin 12 := 11
     let n := c.val
     let x := ((0, 400000) : Nat × Nat)
     (s.dev.st ≠ 0) ∧ (s.dev.g F.sys_SYS_STATE_MODE = 2) ∧ (x ∈ d.sc.orphans) ∧ (400000 ≤ x.2) ∧ ((Tab.at {} d.hand.items x.1).orphan = true) ∧ (d.scHead n = some (Tab.at {} d.hand.items x.1).src) ∧ ((d.scc n).fault = false)) := by
  refine ⟨?_, ?_, ?_, ?_, ?_, ?_, ?_, ?_, ?_, ?_, ?_, ?_, ?_, ?_, ?_, ?_⟩ <;> decide +kernel

/-- Inputs that meet the hypotheses of ExposureSetNeedsEveryCondition. -/
theorem wit_exposureSetNeedsEveryCondition :
    (let s : State := on 5 (fitRegs 5)
     let d := s.dev
     let h := 5
     (h ∈ d.exposureSet)) ∧
    (let s : State := onAt 7 1 0 [] (fun d => entry 1 0 0 0 0 { d with seq := { d.seq with okFrame := some 0, desc := [0, 7, 1] } })
     let d := s.dev
     (d.mayOpen = true)) := by
  refine ⟨?_, ?_⟩ <;> decide +kernel


end Sys2Proof.Tests
end

section
/-!
A power-loop page does have a rule of its own: SUM_FLAG shows which slots have any PL_FLAGS bit set (07 R254), so a write that clears the flags of a slot changes
SUM_FLAG too, a second register of the page. Of PLOOP0, slot 0's PL_FLAGS stands at 0x5008C, with FF_STALE as bit 6, and SUM_FLAG at 0x50048.
-/
namespace Sys2Proof.Machine

/-- A 32-bit write of a block register of a power-loop page goes by its access codes and then renews the summaries of the power-loop pages (07 R254). -/
theorem exec_registerWrite_ploop {a : BitVec 26} (v : Word) {s : State} {r : PgInfo} {n : Nat} (hpage : pageOf a.toNat = some (r, n))
    (halign : a.toNat % 4 = 0) (hblock : 0x40 ≤ a.toNat % 0x1000) (hpg : r.pg = .ploop) (hlets : s.lets a.toNat) :
    exec (.registerWrite a (.word v)) s = .next { s with dev := (s.dev.plainWrite a.toNat v).plSums } := by
  obtain ⟨hpor, hturned⟩ := hlets
  have hblock' : ¬ a.toNat % 0x1000 < 0x40 := by omega
  change hosted a.toNat (onMem (bar0Write s.otp a.toNat v)) s = _
  rw [hosted_through _ hpor hturned, onMem_eq]
  simp only [bar0Write, halign, hpage, pageWrite, hblock', hpg, Dev.blockWrite, ne_eq, not_true_eq_false, if_false]

/-- The logic die in IDLE with FF_STALE set in power-loop slot 0, no W1C bit set in the present CLK_MGMT cycle, and the summaries up to date. -/
def staleSlotDev : Dev := ((State.reset.dev.p F.sys_SYS_STATE_STATE Sys.idle.code).p (pf F.pl_PL_FLAGS_FF_STALE 0) 1).plSums
/-- The machine with that logic die. -/
def staleSlot : State := { State.reset with dev := staleSlotDev }

/-- The row of the page index of PLOOP0 to PLOOP3 (19 R505). -/
def ploopInfo : PgInfo := ⟨.ploop, 0x50000, 4, 0x13, true, true, true⟩

theorem staleSlot_lets_plFlags : staleSlot.lets 0x5008C := by
  unfold State.lets
  decide +kernel

theorem staleSlot_unlocked : staleSlot.dev.g (F.hdr_PAGE_CTRL_LOCK 0x50000) = 0 := by decide +kernel

theorem staleSlot_sumFlag : staleSlot.dev.reg 0x50048 = 1 := by decide +kernel

/-- Ones written to FF_STALE clear the only flag of slot 0, and SUM_FLAG of PLOOP0 drops the slot's bit. -/
theorem staleSlot_sumFlag_cleared : ((staleSlot.dev.plainWrite 0x5008C 0x40).plSums).reg 0x50048 = 0 := by decide +kernel

/-- Refutes O23: on a power-loop page, clearing the flags of a slot in PL_FLAGS (W1C) also clears the slot's bit of the page's SUM_FLAG
(07 R254), where the statement has every register but the written one read as before. -/
theorem not_plainRegistersFollowTheirAccessCodes : ¬ Obligations.PlainRegistersFollowTheirAccessCodes := by
  unfold Obligations.PlainRegistersFollowTheirAccessCodes
  intro h
  have hpage : pageOf (0x5008C : BitVec 26).toNat = some (ploopInfo, 0) := by decide
  obtain ⟨t, hexec, -, -, hothers, -⟩ :=
    (h 0x5008C 0x40 staleSlot ploopInfo 0 hpage rfl (by decide) (.inr rfl) staleSlot_lets_plFlags).1 (.inl staleSlot_unlocked)
  rw [exec_registerWrite_ploop 0x40 hpage rfl (by decide) rfl staleSlot_lets_plFlags] at hexec
  cases hexec
  have hkept : ((staleSlot.dev.plainWrite 0x5008C 0x40).plSums).reg 0x50048 = staleSlot.dev.reg 0x50048 := hothers 0x50048 (by decide)
  rw [staleSlot_sumFlag_cleared, staleSlot_sumFlag] at hkept
  exact absurd hkept (by decide)

end Sys2Proof.Machine
end

section
/-!
The clock on an empty queue (15 R430; log 1).
-/
namespace Sys2Proof.Machine

/-- The counters of the time base alone go on (15 R429). -/
theorem TimeSt.run_eq (t : TimeSt) (n : Nat) : ∃ sec ns frac, t.run n = { t with sec := sec, ns := ns, frac := frac } := ⟨_, _, _, rfl⟩

/-- Cycles pass within the frame: the time base goes on, and nothing else changes. -/
theorem Dev.tick_eq (d : Dev) (n : Nat) :
    ∃ sec ns frac, d.tick n = { d with time := { d.time with sec := sec, ns := ns, frac := frac, cycle := d.time.cycle + n } } := by
  obtain ⟨sec, ns, frac, hrun⟩ := TimeSt.run_eq d.time n
  exact ⟨sec, ns, frac, by unfold Dev.tick; rw [hrun]⟩

/-- Settles O2, by the two cases of `State.idle`: the clock runs within the frame, or it stands. -/
theorem emptyQueueIsOneClockCycle : Obligations.EmptyQueueIsOneClockCycle := by
  unfold Obligations.EmptyQueueIsOneClockCycle
  intro s hs
  have hstep : step s = .next s.idle := by unfold step; rw [hs]
  refine ⟨s.idle, hstep, ?_⟩
  unfold State.idle
  by_cases hrun : s.dev.ctl.pllLocked = true ∧ s.dev.time.cycle < 1249
  · obtain ⟨sec, ns, frac, htick⟩ := Dev.tick_eq s.dev 1
    rw [if_pos (by simp [hrun]), if_pos hrun, htick]
    exact ⟨⟨rfl, rfl, rfl, rfl, rfl⟩, rfl, rfl, rfl⟩
  · rw [if_neg (by simpa using hrun), if_neg hrun]
    exact ⟨⟨rfl, rfl, rfl, rfl, rfl⟩, rfl, rfl, rfl⟩

end Sys2Proof.Machine
end

section
/-!
The streams: retry, fetch and resume (01 R23, R24; 03 R92, R93).
-/
namespace Sys2Proof.Machine

/-! ### The head's hidden state under the operations of the stream rows -/

@[simp] theorem Dev.hd_p (d : Dev) (f : Fld) (v k : Nat) : (d.p f v).hd k = d.hd k := rfl

/-- A read of DRAM changes no head. -/
@[simp] theorem Dev.hd_dramRead (d : Dev) (cls a n k : Nat) : (d.dramRead cls a n).2.hd k = d.hd k := by
  obtain ⟨honly, -⟩ := Dev.dramRead_onlyDdr d cls a n
  rw [honly]
  rfl

/-- What an active head asks for next (03 R92): records are left, and 32 or fewer unplanned ones are held. -/
abbrev Head.runsLow (hd : Head) : Prop := hd.active = true ∧ hd.fetched < hd.count ∧ hd.fetched - hd.p.next ≤ 32

theorem Dev.fetchRequest_of_runsLow {d : Dev} {h : Nat} (hlow : (d.hd h).runsLow) :
    d.fetchRequest h = d.hdUpd h (fun hd => { hd with req := true }) := if_pos hlow

theorem Dev.fetchRequest_of_not_runsLow {d : Dev} {h : Nat} (hlow : ¬ (d.hd h).runsLow) : d.fetchRequest h = d := if_neg hlow

/-- A fetch request changes no other head. -/
theorem Dev.hd_fetchRequest_ne (d : Dev) {h k : Nat} (hk : k ≠ h) : (d.fetchRequest h).hd k = d.hd k := by
  by_cases hlow : (d.hd h).runsLow
  · rw [Dev.fetchRequest_of_runsLow hlow, Dev.hd_hdUpd_ne _ _ hk.symm]
  · rw [Dev.fetchRequest_of_not_runsLow hlow]

/-- Of the head itself a fetch request changes REQ alone. -/
theorem Dev.hd_fetchRequest (d : Dev) (h : Nat) :
    (d.fetchRequest h).hd h = { d.hd h with req := (d.hd h).req || decide (d.hd h).runsLow } := by
  by_cases hlow : (d.hd h).runsLow
  · rw [Dev.fetchRequest_of_runsLow hlow, Dev.hd_hdUpd, decide_eq_true hlow, Bool.or_true]
  · rw [Dev.fetchRequest_of_not_runsLow hlow, decide_eq_false hlow, Bool.or_false]

/-! ### STREAM_RETRY -/

/-- A head whose stream failed or ran short keeps the records before the failed one, and asks for that one again (03 R93). -/
def Head.retried (hd : Head) (t : Nat) : Head :=
  { hd.restUntil t with bad := false, under := true, req := true, absent := false, fetched := hd.p.next, buf := hd.buf.take (hd.p.next - hd.base) }

theorem Dev.streamRetry_of_failed {d : Dev} {h : Nat} (hact : (d.hd h).active = true) (hfail : (d.hd h).bad = true ∨ (d.hd h).under = true) :
    d.streamRetry h = d.hdUpd h (fun hd => hd.retried ((d.time.frame + 3) * frameT)) := by
  have hgo : (!((d.hd h).active && ((d.hd h).bad || (d.hd h).under))) = false := by
    rcases hfail with hbad | hunder
    · simp [hact, hbad]
    · simp [hact, hunder]
  simp only [Dev.streamRetry, hgo]
  rfl

theorem Dev.streamRetry_of_sound {d : Dev} {h : Nat} (hsound : (d.hd h).active = false ∨ ((d.hd h).bad = false ∧ (d.hd h).under = false)) :
    d.streamRetry h = d := by
  have hstay : (!((d.hd h).active && ((d.hd h).bad || (d.hd h).under))) = true := by
    rcases hsound with hact | ⟨hbad, hunder⟩
    · simp [hact]
    · simp [hbad, hunder]
  simp only [Dev.streamRetry, hstay, if_true]

theorem exec_streamRetry {h : Fin 48} (v : Word) {s : State} (hlets : s.lets (F.hd_STREAM_RETRY h.val).addr) :
    exec (.streamRetry h v) s = .next { s with dev := s.dev.streamRetry h.val } :=
  hosted_through _ hlets.1 hlets.2

/-! ### RECORD_FETCH_DONE -/

/-- The head after a burst of `n` records from `a` on has come, before it asks for the next. -/
def Head.gotBurst (hd : Head) (m : List Host.Cell) (a n now : Nat) : Head :=
  { hd with buf := hd.buf ++ (List.range n).map (fun i => recAt m (a + 32 * i)), fetched := hd.fetched + n, req := false, absent := false, arrived := now }

/-- The logic die after a fetch's burst of `n` records from `a` on: absent, or brought (01 R24). -/
def Dev.burstDone (d : Dev) (m : List Host.Cell) (h a n : Nat) : Dev :=
  let r := d.dramRead 0 a (32 * n)
  let e := r.2.hdUpd h (fun hd => hd.gotBurst m a n r.2.time.frame)
  if r.1 = true then r.2.hdUpd h (fun hd => { hd with req := false, absent := true })
  else (e.fetchRequest h).p (F.hd_REC_AVAIL h) (min 64 ((e.hd h).fetched - (d.hd h).p.next))

theorem exec_recordFetchDone {h : Fin 48} {s : State} (hreq : (s.dev.hd h.val).req = true)
    (hcount : (s.dev.hd h.val).fetched < (s.dev.hd h.val).count) (hquiet : s.dev.quiet = true) :
    exec (.recordFetchDone h) s = .next { s with dev := s.dev.burstDone s.mem h.val (s.dev.hd h.val).burst.1 ((s.dev.hd h.val).burst.2 / 32) } := by
  have hwants : (s.dev.hd h.val).wants = true := by simp [Head.wants, hreq, hcount]
  change execRecordFetchDone h s = _
  unfold execRecordFetchDone onRead
  simp only [onMem_eq, hwants, if_true, dramTurns, List.foldl_cons, List.foldl_nil, dramTurn_quiet (r := (s.dev, s.mem)) hquiet, when]
  rfl

/-- The other heads after a fetch's end. -/
theorem Dev.hd_burstDone_ne (d : Dev) (m : List Host.Cell) {h k : Nat} (a n : Nat) (hk : k ≠ h) : (d.burstDone m h a n).hd k = d.hd k := by
  unfold Dev.burstDone
  dsimp only
  split
  · rw [Dev.hd_hdUpd_ne _ _ hk.symm, Dev.hd_dramRead]
  · rw [Dev.hd_p, Dev.hd_fetchRequest_ne _ hk, Dev.hd_hdUpd_ne _ _ hk.symm, Dev.hd_dramRead]

theorem Dev.hd_burstDone_absent {d : Dev} {h a n : Nat} (m : List Host.Cell) (hbad : (d.dramRead 0 a (32 * n)).1 = true) :
    (d.burstDone m h a n).hd h = { d.hd h with req := false, absent := true } := by
  unfold Dev.burstDone
  simp only [hbad, if_true, Dev.hd_hdUpd, Dev.hd_dramRead]

theorem Dev.hd_burstDone_brought {d : Dev} {h a n : Nat} (m : List Host.Cell) (hbad : (d.dramRead 0 a (32 * n)).1 = false) :
    ∃ now, (d.burstDone m h a n).hd h =
      { (d.hd h).gotBurst m a n now with req := decide ((d.hd h).gotBurst m a n now).runsLow } := by
  unfold Dev.burstDone
  simp only [hbad, Bool.false_eq_true, if_false, Dev.hd_p, Dev.hd_fetchRequest, Dev.hd_hdUpd, Dev.hd_dramRead]
  exact ⟨_, rfl⟩

theorem Dev.recAvail_burstDone {d : Dev} {h a n : Nat} (m : List Host.Cell) (hbad : (d.dramRead 0 a (32 * n)).1 = false) :
    (d.burstDone m h a n).g (F.hd_REC_AVAIL h) = min 64 ((d.hd h).fetched + n - (d.hd h).p.next) := by
  unfold Dev.burstDone
  simp only [hbad, Bool.false_eq_true, if_false, Dev.hd_hdUpd, Dev.hd_dramRead]
  rw [Dev.g_p_same _ _ _ (by simp)]
  change min 64 ((d.hd h).fetched + n - (d.hd h).p.next) % 128 = _
  omega

/-! ### STREAM_RESUME -/

/-- A head that goes on rests until `t` (03 R93). -/
def Head.resumed (hd : Head) (t : Nat) : Head := { hd.restUntil t with under := false }

theorem exec_streamResume {h : Fin 48} {s : State} (hunder : (s.dev.hd h.val).under = true) (hrec : ((s.dev.hd h.val).rec? 0).isSome = true)
    (hcycle : s.dev.time.cycle = 0) (harr : (s.dev.hd h.val).arrived < s.dev.time.frame) :
    exec (.streamResume h) s = .next { s with
      dev := (s.dev.hdUpd h.val (fun hd => hd.resumed ((s.dev.time.frame + 3) * frameT))).p (F.hd_PLAN_STAT_STATE h.val) 1 } := by
  change execStreamResume h s = _
  unfold execStreamResume
  simp only [onDev_eq, hunder, hrec, hcycle, harr, when, and_self, decide_true, Bool.and_self, if_true]
  rfl

/-- Settles O29: each row's equation (`streamRetry_of_failed`, `exec_recordFetchDone`, `exec_streamResume`) and what it leaves of the heads. -/
theorem streamsFetchAndResume : Obligations.StreamsFetchAndResume := by
  unfold Obligations.StreamsFetchAndResume
  intro h s
  refine ⟨fun v hlets => ⟨fun hact hfail => ?_, fun hsound => ?_⟩, fun hreq hcount hquiet => ?_, fun hunder hrec hcycle harr => ?_⟩
  · refine ⟨_, exec_streamRetry v hlets, ⟨rfl, rfl, rfl, rfl, rfl⟩, ?_⟩
    dsimp only
    rw [Dev.streamRetry_of_failed hact hfail, Dev.hd_hdUpd]
    exact ⟨rfl, fun k hk => Dev.hd_hdUpd_ne _ _ hk.symm, rfl, rfl, rfl, rfl, rfl⟩
  · rw [exec_streamRetry v hlets, Dev.streamRetry_of_sound hsound]
  · have hn : (s.dev.hd h.val).burst.2 / 32 = min ((s.dev.hd h.val).count - (s.dev.hd h.val).fetched)
        (if (s.dev.hd h.val).burst.1 % 64 = 0 then 2 else 1) := Nat.mul_div_cancel_left _ (by decide)
    refine ⟨_, exec_recordFetchDone hreq hcount hquiet, ⟨rfl, rfl, rfl, rfl, rfl⟩, ?_⟩
    rw [hn]
    refine ⟨fun k hk => Dev.hd_burstDone_ne _ _ _ _ hk, fun hbad => ?_, fun hbad => ?_⟩
    · have hhd := Dev.hd_burstDone_absent (h := h.val) s.mem hbad
      exact ⟨(congrArg Head.req hhd :), (congrArg Head.absent hhd :), (congrArg Head.buf hhd :)⟩
    · obtain ⟨now, hhd⟩ := Dev.hd_burstDone_brought (h := h.val) s.mem hbad
      exact ⟨(congrArg Head.absent hhd :), (congrArg Head.fetched hhd :), (congrArg Head.buf hhd :), Dev.recAvail_burstDone s.mem hbad,
        (Bool.eq_iff_iff.mp (congrArg Head.req hhd)).trans decide_eq_true_iff⟩
  · refine ⟨_, exec_streamResume hunder hrec hcycle harr, ⟨rfl, rfl, rfl, rfl, rfl⟩, fun k hk => ?_, ?_, ?_, fun a ha => ?_⟩
    · exact (Dev.hd_p _ _ _ _).trans (Dev.hd_hdUpd_ne _ _ hk.symm)
    · rw [Dev.hd_p, Dev.hd_hdUpd, Head.resumed]
    · exact Dev.g_p_same _ _ _ (by simp)
    · exact Dev.reg_p_ne _ _ (fun hd => ha (List.mem_singleton.mpr hd.symm))

end Sys2Proof.Machine
end

section
/-!
The registers of the layer under the work of a boundary: LAYER_NUM and LAYER_STAT are the sequencer's own (03 R111). What heads, lanes, DMA channels and the SC-12
window do when a layer opens or closes leaves both as they are.
-/
namespace Sys2Proof.Machine

/-- LAYER_NUM and LAYER_STAT read as before. -/
structure Dev.layerKept (d e : Dev) : Prop where
  kept : ∀ a, 0x8064 ≤ a → a < 0x806C → e.reg a = d.reg a

namespace Dev.layerKept
variable {d e : Dev}

theorem rfl : d.layerKept d := ⟨fun _ _ _ => Eq.refl _⟩

theorem trans {f : Dev} (h : d.layerKept e) (k : e.layerKept f) : d.layerKept f :=
  ⟨fun a ha hb => (k.kept a ha hb).trans (h.kept a ha hb)⟩

theorem num (h : d.layerKept e) : e.g F.seq_LAYER_NUM = d.g F.seq_LAYER_NUM := by unfold Dev.g; rw [h.kept _ (by decide) (by decide)]

theorem opened (h : d.layerKept e) : e.g F.seq_LAYER_STAT_OPEN = d.g F.seq_LAYER_STAT_OPEN := by unfold Dev.g; rw [h.kept _ (by decide) (by decide)]

/-- Hidden state changes. -/
theorem hidden {f : Dev} (h : d.layerKept e) (hf : f.regs = e.regs := by rfl) : d.layerKept f :=
  ⟨fun a ha hb => by rw [← h.kept a ha hb]; unfold Dev.reg; rw [hf]⟩

theorem hdUpd (h : d.layerKept e) {n : Nat} {u : Head → Head} : d.layerKept (e.hdUpd n u) := .hidden h

theorem withHand (h : d.layerKept e) {x : Hand} : d.layerKept { e with hand := x } := .hidden h

theorem withSeq (h : d.layerKept e) {x : SeqSt} : d.layerKept { e with seq := x } := .hidden h

theorem withScClk (h : d.layerKept e) {x : Tab (Nat × Nat)} : d.layerKept { e with scClk := x } := .hidden h

/-- What a layer's end leaves to the sequencer, the handoff and the units. -/
theorem withClose (h : d.layerKept e) {x : SeqSt} {y : Hand} {z : Units} : d.layerKept { e with seq := x, hand := y, units := z } := .hidden h

theorem withSeqHand (h : d.layerKept e) {x : SeqSt} {y : Hand} : d.layerKept { e with seq := x, hand := y } := .hidden h

theorem withSc (h : d.layerKept e) {x : ScSt} : d.layerKept { e with sc := x } := .hidden h

/-- A field of another register is written. -/
theorem p (h : d.layerKept e) {f : Fld} {v : Nat} (hf : f.addr < 0x8064 ∨ 0x806C ≤ f.addr := by dsimp only [Fld.bitAt]; omega) : d.layerKept (e.p f v) :=
  h.trans ⟨fun _ _ _ => Dev.reg_p_ne _ _ (by omega)⟩

theorem bump (h : d.layerKept e) {f : Fld} {k : Nat} (hf : f.addr < 0x8064 ∨ 0x806C ≤ f.addr := by dsimp only [Fld.bitAt]; omega) : d.layerKept (e.bump f k) := h.p hf

/-- An event of any page, the sequencer's own too. -/
theorem raise (h : d.layerKept e) {page b : Nat} {pl : List Nat} {fo : Bool} (hp : page % 0x1000 = 0 := by decide) : d.layerKept (e.raise page b pl fo) :=
  h.trans ⟨fun a ha hb => Dev.reg_raise _ _ _ _ _ (by simp only [evtAddrs, List.mem_cons, List.not_mem_nil, or_false]; omega)⟩

theorem vecSync (h : d.layerKept e) {v : Nat} {again : Bool} : d.layerKept (e.vecSync v again) :=
  h.trans ⟨fun _ _ _ => Dev.reg_vecSync _ _ _ (by omega) (by omega)⟩

theorem when (h : d.layerKept e) {c : Bool} {f : Dev → Dev} (hf : ∀ x, d.layerKept x → d.layerKept (f x)) : d.layerKept (Sys2Proof.when c f e) := by
  unfold Sys2Proof.when
  split
  · exact hf e h
  · exact h

theorem foldl (h : d.layerKept e) {α : Type} {l : List α} {f : Dev → α → Dev} (hf : ∀ x a, d.layerKept x → d.layerKept (f x a)) :
    d.layerKept (l.foldl f e) := List.foldlRecOn l f h fun x hx a _ => hf x a hx

theorem forL (h : d.layerKept e) {α : Type} {l : List α} {f : α → Dev → Dev} (hf : ∀ a x, d.layerKept x → d.layerKept (f a x)) :
    d.layerKept (Sys2Proof.forL l f e) := h.foldl fun x a => hf a x

theorem forN (h : d.layerKept e) {n : Nat} {f : Nat → Dev → Dev} (hf : ∀ i x, d.layerKept x → d.layerKept (f i x)) :
    d.layerKept (Sys2Proof.forN n f e) := h.foldl fun x a => hf a x

/-! ### Head slots, spans and the cassette -/

/-- A field of a loop slot's block, whatever the slot's number. -/
theorem sf_apart {f : Nat → Nat → Fld} {s : Nat} (hf : 0x806C ≤ (f (s / 16) (s % 16)).addr) : (sf f s).addr < 0x8064 ∨ 0x806C ≤ (sf f s).addr := .inr hf

theorem loopSum (h : d.layerKept e) {n : Nat} : d.layerKept (e.loopSum n) := .p (.p (.p h))

theorem setMode (h : d.layerKept e) {s m : Nat} : d.layerKept (e.setMode s m) := .p h (sf_apart (by dsimp only; omega))

theorem parkSlot (h : d.layerKept e) {s : Nat} : d.layerKept (e.parkSlot s) := by
  unfold Dev.parkSlot
  split
  · refine .loopSum (.hidden (.p (.setMode h) (sf_apart ?_)))
    dsimp only
    omega
  · split
    · exact .hidden h
    · exact h

theorem enterParking (h : d.layerKept e) {n : Nat} : d.layerKept (e.enterParking n) := h.forL fun _ _ hx => hx.parkSlot

theorem queueMsg (h : d.layerKept e) {n : Nat} {m : Msg} : d.layerKept (e.queueMsg n m) := .hidden h

theorem casRead (h : d.layerKept e) {n : Nat} : d.layerKept (e.casRead n) := by
  unfold Dev.casRead
  split
  · exact .queueMsg (.p h)
  · exact h

theorem casWrite (h : d.layerKept e) {n : Nat} : d.layerKept (e.casWrite n) := by
  unfold Dev.casWrite
  dsimp only
  split
  · exact h
  · split
    · exact .hidden h
    · exact .queueMsg (.hidden h)

theorem failedFld_apart (n : Nat) : (failedFld n).addr < 0x8064 ∨ 0x806C ≤ (failedFld n).addr := by
  unfold failedFld
  split <;> simp

theorem heldFld_apart (n : Nat) : (heldFld n).addr < 0x8064 ∨ 0x806C ≤ (heldFld n).addr := by
  unfold heldFld
  split <;> simp

theorem closeReversal (h : d.layerKept e) {n f : Nat} : d.layerKept (e.closeReversal n f) := by
  unfold Dev.closeReversal
  dsimp only
  split
  · exact h
  · exact .raise (.bump (.hidden h))

theorem endClip (h : d.layerKept e) {n t : Nat} : d.layerKept (e.endClip n t) := by
  unfold Dev.endClip
  dsimp only
  split
  · exact h
  · refine .when (.raise (.bump (.hidden h))) fun x hx => .hidden hx

theorem flushDense (h : d.layerKept e) {n : Nat} : d.layerKept (e.flushDense n) := by
  unfold Dev.flushDense
  split
  · exact .raise (.hidden h)
  · exact h

/-! ### Head failure (06 R210 to R212) -/

theorem repairItem (h : d.layerKept e) {n k : Nat} {sp : Span} {g : Seg} : d.layerKept (e.repairItem n sp g k) :=
  .raise (.bump (.hidden h))

theorem spanStep (h : d.layerKept e) : d.layerKept e.spanStep := by
  unfold Dev.spanStep
  split
  next keep f hfold =>
    have hf : d.layerKept (keep, f).2 := by
      rw [← hfold]
      refine List.foldlRecOn (motive := fun (r : List (Nat × Span) × Dev) => d.layerKept r.2) _ _ h fun r hr x _ => ?_
      dsimp only
      split
      · exact hr
      · refine .foldl hr fun y g hy => ?_
        split
        · exact hy.repairItem
        · exact hy
    exact .withHand hf

theorem dropItems (h : d.layerKept e) {n t : Nat} : d.layerKept (e.dropItems n t) := by
  unfold Dev.dropItems
  refine .foldl (.hidden h) fun x it hx => ?_
  dsimp only
  split
  · exact hx
  · split
    · exact .hidden hx
    · split
      · exact hx
      · exact .hidden hx

theorem unhold (h : d.layerKept e) {n : Nat} : d.layerKept (e.unhold n) := .p (.p (.p (.p h))) (heldFld_apart n)

theorem failRecord (h : d.layerKept e) {n cause idx : Nat} {a b : PPoint} : d.layerKept (e.failRecord n cause idx a b) := .raise h

theorem headFail (h : d.layerKept e) {n cause t : Nat} : d.layerKept (e.headFail n cause t) := by
  unfold Dev.headFail
  dsimp only
  split
  · exact .when (.hdUpd h) fun x hx => hx.enterParking
  · refine .failRecord (.when ?_ fun x hx => hx.enterParking)
    refine .withHand (.hdUpd (.unhold (.dropItems (.spanStep (.flushDense (.endClip (.closeReversal ?_)))))))
    exact .p (.p (.p h)) (failedFld_apart n)

/-! ### A layer opens (01 R42, 03 R82) -/

theorem streamOpen (h : d.layerKept e) {w : List Nat} {n : Nat} : d.layerKept (e.streamOpen w n) := .hidden h

theorem headOpen (h : d.layerKept e) {n : Nat} : d.layerKept (e.headOpen n) := by
  unfold Dev.headOpen
  refine .p (List.foldlRecOn _ _ (.hidden h) fun x hx f hf => .p hx (.inr ?_))
  simp only [List.mem_cons, List.not_mem_nil, or_false] at hf
  rcases hf with rfl | rfl | rfl | rfl | rfl | rfl | rfl | rfl | rfl | rfl <;> (dsimp only; omega)

theorem unpark (h : d.layerKept e) {n : Nat} : d.layerKept (e.unpark n) := by
  refine h.forL fun s x hx => hx.when fun x hx => ?_
  dsimp only
  split
  · refine .loopSum (.raise (.setMode hx) ?_)
    unfold loopPage
    omega
  · exact .loopSum (.setMode hx)

theorem notInSet (h : d.layerKept e) {n : Nat} : d.layerKept (e.notInSet n) := by
  unfold Dev.notInSet
  dsimp only
  generalize (if (e.hd n).placed = true then ((e.hd n).p.px, (e.hd n).p.py, (e.hd n).p.pf) else e.startPos n) = pos
  obtain ⟨x, y, f⟩ := pos
  dsimp only
  split
  · exact .headFail (.hdUpd h)
  · exact .failRecord (.withHand (.hdUpd (.hdUpd h)))

theorem dmaFire (h : d.layerKept e) {q : Nat → Bool} : d.layerKept (e.dmaFire q) := h.forN fun _ _ hx => hx.when fun _ hx => .hidden hx

theorem scState (h : d.layerKept e) {c st : Nat} : d.layerKept (e.scState c st) := by
  unfold Dev.scState
  exact .p (.p (.p h))

theorem scOpen (h : d.layerKept e) : d.layerKept e.scOpen := by
  unfold Dev.scOpen
  split
  · exact h
  · exact .withSc (.p (.p (.p (.foldl h fun x c hx => hx.scState))))

theorem hoStat (h : d.layerKept e) : d.layerKept e.hoStat := by
  unfold Dev.hoStat
  exact .forN (.p (.p h)) fun _ _ hx => .p (.p hx)

theorem pass (h : d.layerKept e) {n : Nat} : d.layerKept (e.pass n) := by
  unfold Dev.pass Dev.take Dev.complete
  exact .p (.p (.withSeq (.p (.withSeq h))))

/-! ### A layer closes (01 R39, 03 R81, 06 R213) -/

theorem rejoinStep (h : d.layerKept e) : d.layerKept e.rejoinStep :=
  h.forN fun n _ hx => hx.when fun _ hx => .hdUpd (.p (.p (.p hx)) (failedFld_apart n))

theorem scInstall (h : d.layerKept e) : d.layerKept e.scInstall := by
  unfold Dev.scInstall
  split
  · exact h
  · refine .withScClk (.foldl h fun x c hx => ?_)
    exact .foldl hx fun y w hy => .hidden hy

theorem goSt (h : d.layerKept e) {x : Sys} : d.layerKept (e.goSt x) := by
  unfold Dev.goSt
  exact .raise (.p h)

theorem cmdFinish (h : d.layerKept e) {r : Nat} : d.layerKept (e.cmdFinish r) := by
  refine .hidden (e := e.cmdResult e.ctl.cmd r) ?_
  unfold Dev.cmdResult
  split
  · exact h
  · exact .raise (.p (.p h))

theorem scErr (h : d.layerKept e) {code c : Nat} : d.layerKept (e.scErr code c) := by
  unfold Dev.scErr
  dsimp only
  split
  · exact h
  · exact .vecSync (.withSc (.p (.p h)))

theorem scRefused (h : d.layerKept e) : d.layerKept e.scRefused := by
  unfold Dev.scRefused
  exact .scErr (.withSc (.p (.foldl h fun x c hx => hx.scState)))

theorem scFollow (h : d.layerKept e) {ok : Bool} : d.layerKept (e.scFollow ok) := by
  unfold Dev.scFollow
  split
  · split
    · exact .hidden h
    · exact h.scRefused
  · split
    · exact .hidden h
    · exact h.scRefused
  · split
    · exact .hidden h
    · split
      · exact .hidden h
      · exact h
  · exact .hidden h
  · exact h

theorem runEnds (h : d.layerKept e) {stopped : Bool} : d.layerKept (e.runEnds stopped) := by
  unfold Dev.runEnds
  dsimp only
  have hstop : d.layerKept e.seqStop := .p (.withSeq h)
  split
  · exact .scFollow (.cmdFinish (.goSt (.hidden hstop)))
  · exact .goSt (.hidden hstop)

end Dev.layerKept

/-! ### The registers of the layer after it opened, and after it closed -/

/-- LAYER_NUM and LAYER_STAT as the descriptor gives them (03 R82). -/
def Dev.layerRegs (d : Dev) : Dev :=
  ((d.p F.seq_LAYER_NUM (nth d.seq.desc 1)).p F.seq_LAYER_STAT_OPEN 1).p F.seq_LAYER_STAT_LAST (nth d.seq.desc 2 % 2)

theorem Dev.num_layerRegs (d : Dev) : d.layerRegs.g F.seq_LAYER_NUM = nth d.seq.desc 1 % 2 ^ 32 := by
  unfold Dev.layerRegs
  rw [Dev.g_p_apart _ _ (.inl (by decide)) (by decide), Dev.g_p_apart _ _ (.inl (by decide)) (by decide)]
  exact Dev.g_p_same _ _ _ (by decide)

theorem Dev.opened_layerRegs (d : Dev) : d.layerRegs.g F.seq_LAYER_STAT_OPEN = 1 := by
  unfold Dev.layerRegs
  rw [Dev.g_p_apart _ _ (.inr (.inr (by decide))) (by decide)]
  exact Dev.g_p_same _ _ _ (by decide)

/-- Behind the registers of the layer, opening it ends with the sequencer's next entry (03 R84). -/
theorem Dev.layerOpen_eq (d : Dev) : ∃ e n, d.layerOpen = e.pass n ∧ d.layerRegs.layerKept e := by
  unfold Dev.layerOpen
  dsimp only
  refine ⟨_, _, rfl, .hoStat (.scOpen (.forN (.dmaFire (.raise (.forN (.forL (.forL (.forL (.forN (.p (.p (.withSeqHand (.p .rfl)))) ?_) ?_) ?_) ?_) ?_))) ?_))⟩
  · exact fun _ _ hx => hx.headOpen
  · exact fun _ _ hx => hx.streamOpen
  · exact fun _ _ hx => hx.unpark
  · exact fun _ _ hx => hx.notInSet
  · exact fun _ _ hx => .hidden hx
  · exact fun _ _ hx => hx.casRead

/-- The sequencer has just taken the entry after the one that passes. -/
theorem Dev.step_pass (d : Dev) (n : Nat) : (d.pass n).g F.seq_SEQ_STAT_STEP = 1 := Dev.g_p_same _ _ _ (by decide)

theorem Dev.fresh_pass (d : Dev) (n : Nat) : (d.pass n).seq.fresh = true := rfl

/-- OPEN reads 0 once the layer has closed. -/
theorem Dev.opened_layerClose (d : Dev) : d.layerClose.g F.seq_LAYER_STAT_OPEN = 0 := by
  have hclosed : (d.p F.seq_LAYER_STAT_OPEN 0).g F.seq_LAYER_STAT_OPEN = 0 := Dev.g_p_same _ _ _ (by decide)
  rw [← hclosed]
  refine Dev.layerKept.opened ?_
  unfold Dev.layerClose
  dsimp only
  split
  · refine .runEnds (.when ?_ fun _ hx => .p hx)
    refine .scInstall (.dmaFire (.forN (.rejoinStep (.forN (.withClose (.raise .rfl)) ?_)) ?_))
    · exact fun _ _ hx => hx.hdUpd
    · exact fun _ _ hx => hx.casWrite
  · refine .pass (.scInstall (.dmaFire (.forN (.rejoinStep (.forN (.withClose (.raise .rfl)) ?_)) ?_)))
    · exact fun _ _ hx => hx.hdUpd
    · exact fun _ _ hx => hx.casWrite

end Sys2Proof.Machine
end

section
/-!
Writes through a quiet memory controller: where nothing waits in it, nothing waits after a write either, so that writes in a row all reach DRAM at once (12 R365).
-/
namespace Sys2Proof.Machine

/-! ### What leaves the controller's queues as they are -/

@[simp] theorem Dev.quiet_p (d : Dev) (f : Fld) (v : Nat) : (d.p f v).quiet = d.quiet := rfl
@[simp] theorem Dev.quiet_bump (d : Dev) (f : Fld) (k : Nat) : (d.bump f k).quiet = d.quiet := rfl
@[simp] theorem Dev.quiet_draw (d : Dev) : d.draw.2.quiet = d.quiet := rfl
@[simp] theorem Dev.quiet_pprStat (d : Dev) : d.pprStat.quiet = d.quiet := rfl
@[simp] theorem Dev.quiet_lastUe (d : Dev) (k cls : Nat) : (d.lastUe k cls).quiet = d.quiet := rfl
@[simp] theorem Dev.quiet_raise (d : Dev) (page b : Nat) (pl : List Nat) (fo : Bool) : (d.raise page b pl fo).quiet = d.quiet := by
  unfold Dev.quiet; rw [Dev.ddr_raise]

theorem Dev.quiet_when {c : Bool} {f : Dev → Dev} (hf : ∀ d, (f d).quiet = d.quiet) (d : Dev) : (Sys2Proof.when c f d).quiet = d.quiet := by
  unfold Sys2Proof.when
  split
  · exact hf d
  · rfl

theorem Dev.quiet_foldl {α : Type} {f : Dev → α → Dev} (hf : ∀ d a, (f d a).quiet = d.quiet) (l : List α) (d : Dev) : (l.foldl f d).quiet = d.quiet :=
  List.foldlRecOn (motive := fun e => e.quiet = d.quiet) l f rfl fun e he a _ => (hf e a).trans he

/-! ### Bursts read and written -/

@[simp] theorem Dev.quiet_candidate (d : Dev) (k dv : Nat) : (d.candidate k dv).quiet = d.quiet := by
  unfold Dev.candidate
  dsimp only
  split
  · rfl
  · split
    · exact Dev.quiet_raise _ _ _ _ _
    · unfold Dev.pipe
      rw [Dev.quiet_when fun d => Dev.quiet_raise d _ _ _ _, Dev.quiet_raise]
      rfl

@[simp] theorem Dev.quiet_corrected (d : Dev) (k : Nat) : (d.corrected k).quiet = d.quiet := by
  unfold Dev.corrected
  dsimp only
  rw [Dev.quiet_foldl fun d v => Dev.quiet_when (fun d => Dev.quiet_candidate d k v) d]
  refine (Dev.quiet_raise _ _ _ _ _).trans ?_
  exact (Dev.quiet_foldl (fun d v => Dev.quiet_bump d _ 1) _ _).trans rfl

@[simp] theorem Dev.quiet_readBurst (d : Dev) (cls k : Nat) : (d.readBurst cls k).2.quiet = d.quiet := by
  unfold Dev.readBurst
  split
  · rfl
  · exact Dev.quiet_corrected d k
  · simp
  · simp

@[simp] theorem Dev.quiet_writeBurst (d : Dev) (cls k : Nat) (whole : Bool) : (d.writeBurst cls k whole).quiet = d.quiet := by
  unfold Dev.writeBurst
  split
  · rfl
  · dsimp only
    split
    · exact Dev.quiet_readBurst d cls k
    · exact Dev.quiet_readBurst d cls k

/-! ### Fragments that start -/

@[simp] theorem Dev.quiet_rfmBank (d : Dev) (b : Nat) : (d.rfmBank b).quiet = d.quiet := Dev.quiet_raise _ _ _ _ _

@[simp] theorem Dev.quiet_countActs (d : Dev) (b n : Nat) : (d.countActs b n).quiet = d.quiet :=
  Dev.quiet_when (fun d => Dev.quiet_rfmBank d b) d

@[simp] theorem Dev.quiet_activate (d : Dev) (k : Nat) : (d.activate k).quiet = d.quiet := by
  unfold Dev.activate
  dsimp only
  split
  · exact Dev.quiet_countActs _ _ _
  · rw [Dev.quiet_when fun d => (Dev.quiet_bump _ _ _).trans (Dev.quiet_countActs d _ _)]
    exact Dev.quiet_countActs _ _ _

@[simp] theorem Dev.quiet_touch (d : Dev) (k : Nat) : (d.touch k).quiet = d.quiet := by
  unfold Dev.touch
  split
  · rfl
  · dsimp only
    rw [apply_ite Dev.quiet, Dev.quiet_activate, ite_self,
      Dev.quiet_when fun d => Dev.quiet_foldl (fun d b => Dev.quiet_when (fun d => Dev.quiet_rfmBank d b) d) _ d]
    rfl

/-- A quiet controller is quiet after a write. -/
theorem dramWrite_keeps_quiet (cls a : Nat) (bs : List Byte) {r : Dev × List Host.Cell} (hq : r.1.quiet = true) : (dramWrite cls a bs r).1.quiet = true := by
  unfold dramWrite dramPut
  simp only [hq, if_true]
  rw [Dev.quiet_foldl fun d k => Dev.quiet_writeBurst d cls k _, Dev.quiet_foldl fun d k => Dev.quiet_touch d k, hq]

/-- The capacity stays in reads and writes of the controller. -/
theorem Dev.onlyDdr.capacity {d e : Dev} (h : d.onlyDdr e) : e.capacity = d.capacity := by
  unfold Dev.capacity Dev.g
  rw [h.2 _ (by decide) (by decide)]

/-- A word of four bytes 0 reads 0. -/
theorem mem32_eq_zero {m : List Host.Cell} {a : Nat} (h : ∀ i, i < 4 → memByte m (a + i) = 0) : mem32 m a = 0 := by
  have h0 : memByte m a = 0 := h 0 (by decide)
  simp [mem32, memLE, List.range_succ, h, h0]

/-! ### The descriptor of the layer that closes (03 R81) -/

theorem closeDesc_mem (d : Dev) (m : List Host.Cell) : ∃ result : List Byte, result.length = 16 ∧
    (closeDesc (d, m)).2 = (dramWrite 0 (d.lqAddr (d.g F.seq_LQ_RD)) (leBytes 4 0) (dramWrite 0 (d.lqAddr (d.g F.seq_LQ_RD) + 0x20) result (d, m))).2 :=
  ⟨_, rfl, rfl⟩

/-- Where nothing waits in the controller, READY is 0 once the descriptor has been written back. -/
theorem closeDesc_ready {d : Dev} {m : List Host.Cell} (hq : d.quiet = true) (hc : d.lqAddr (d.g F.seq_LQ_RD) + 4 ≤ d.capacity) :
    mem32 (closeDesc (d, m)).2 (d.lqAddr (d.g F.seq_LQ_RD)) = 0 := by
  obtain ⟨result, -, hmem⟩ := closeDesc_mem d m
  rw [hmem]
  refine mem32_eq_zero fun i hi => ?_
  have hcap := (dramWrite_onlyDdr 0 (d.lqAddr (d.g F.seq_LQ_RD) + 0x20) result (d, m)).capacity
  rw [memByte_dramWrite_in 0 _ (leBytes 4 0) _ (dramWrite_keeps_quiet 0 _ result (r := (d, m)) hq) (i := i) hi (by rw [hcap]; dsimp only; omega)]
  exact List.getElem_replicate (n := 4) (by simpa using hi)

/-- Where nothing waits in the controller, READY and the result words are all that the descriptor's writing back changes. -/
theorem closeDesc_others {d : Dev} {m : List Host.Cell} (hq : d.quiet = true) {x : Nat}
    (hready : ¬ (d.lqAddr (d.g F.seq_LQ_RD) ≤ x ∧ x < d.lqAddr (d.g F.seq_LQ_RD) + 4))
    (hresult : ¬ (d.lqAddr (d.g F.seq_LQ_RD) + 0x20 ≤ x ∧ x < d.lqAddr (d.g F.seq_LQ_RD) + 0x30)) :
    memByte (closeDesc (d, m)).2 x = memByte m x := by
  obtain ⟨result, hlen, hmem⟩ := closeDesc_mem d m
  have hzero : (leBytes 4 0).length = 4 := rfl
  rw [hmem, memByte_dramWrite_out 0 _ (leBytes 4 0) _ (dramWrite_keeps_quiet 0 _ result (r := (d, m)) hq) (by omega),
    memByte_dramWrite_out 0 _ result _ hq (by omega)]

end Sys2Proof.Machine
end

section
/-!
Frames, layers and EXPOSE (01 R35, R38 to R42; 03 R80 to R84).
-/
namespace Sys2Proof.Machine

/-! ### The frame boundary: a calibration record that is loaded leaves the time base as it is (16 R468) -/

@[simp] theorem Dev.time_setBoth (d : Dev) (a v : Nat) : (d.setBoth a v).time = d.time := rfl

theorem Dev.time_foldl {α : Type} {f : Dev → α → Dev} (hf : ∀ d a, (f d a).time = d.time) (l : List α) (d : Dev) : (l.foldl f d).time = d.time :=
  List.foldlRecOn (motive := fun e => e.time = d.time) l f rfl fun e he a _ => (hf e a).trans he

theorem Dev.time_calPut (d : Dev) (h t : Nat) (b : List Nat) : (d.calPut h t b).time = d.time := by
  unfold Dev.calPut
  dsimp only
  split
  · exact Dev.time_foldl (fun d e => Dev.time_setBoth d _ _) _ _
  · refine (Dev.time_foldl ?_ _ _).trans (Dev.time_foldl (fun d e => Dev.time_setBoth d _ _) _ _)
    exact fun _ _ => rfl

theorem Dev.time_calFill (d : Dev) (h t : Nat) (b : Option (List Nat)) : (d.calFill h t b).time = d.time := by
  unfold Dev.calFill
  dsimp only
  rw [Dev.time_p, apply_ite Dev.time, apply_ite Dev.time]
  simp only [Dev.time_p, ite_self]
  cases b with
  | none => rfl
  | some b => exact Dev.time_calPut d h t b

theorem Dev.time_calLoadType (d : Dev) (nor : Tab Byte) (h t : Nat) : (d.calLoadType nor h t).time = d.time := by
  unfold Dev.calLoadType
  dsimp only
  rw [Dev.time_calFill]
  split <;> split <;> simp only [Dev.time_raise]

theorem Dev.time_mismatchClear (d : Dev) (h : Nat) : (d.mismatchClear h).time = d.time := by
  unfold Dev.mismatchClear
  split
  · rfl
  · split
    · rfl
    · rfl

theorem Dev.time_calEnd (d : Dev) : d.calEnd.time = d.time := by
  unfold Dev.calEnd
  split
  · rfl
  · rfl

@[simp] theorem Dev.time_calIdle (d : Dev) (nor : Tab Byte) : (d.calIdle nor).time = d.time := by
  unfold Dev.calIdle Dev.calLayer Dev.calRunLoad
  split
  · split
    · dsimp only
      rw [Dev.time_raise, Dev.time_calEnd, Dev.time_mismatchClear, Dev.time_calLoadType]
    · rfl
  · rfl

theorem Dev.frame_boundary (d : Dev) (diverged : Bool) (f : Nat) : (d.boundary diverged f).time.frame = f + 1 := rfl

theorem Dev.cycle_boundary (d : Dev) (diverged : Bool) (f : Nat) : (d.boundary diverged f).time.cycle = 0 := rfl

/-- With the PLLs locked the frame ends: its boundary begins the next one. -/
theorem exec_frameBoundary_locked {ok : Bool} {ck : FrameCheck} {s : State} (h : s.dev.ctl.pllLocked = true) :
    ∃ d diverged mem iso, exec (.frameBoundary ok ck) s =
      .next { s with dev := (Dev.boundary d diverged s.dev.time.frame).calIdle s.nor, mem := mem, iso := iso } :=
  ⟨_, _, _, _, if_neg (by simp [h])⟩

theorem exec_frameBoundary_unlocked {ok : Bool} {ck : FrameCheck} {s : State} (h : s.dev.ctl.pllLocked = false) :
    exec (.frameBoundary ok ck) s = .next s := if_pos (by simp [h])

/-! ### OPEN_LAYER and LAYER_BOUNDARY -/

theorem exec_openLayer_may {s : State} (h : s.dev.mayOpen = true) : exec .openLayer s = .next { s with dev := s.dev.layerOpen } := by
  change onDev (fun d => when d.mayOpen Dev.layerOpen d) s = _
  rw [onDev_eq, when, if_pos h]

theorem exec_openLayer_not {s : State} (h : s.dev.mayOpen = false) : exec .openLayer s = .next s := by
  change onDev (fun d => when d.mayOpen Dev.layerOpen d) s = _
  rw [onDev_eq, when, if_neg (by simp [h])]

theorem exec_layerBoundary {s : State} (h : s.dev.atLayerEnd = true) :
    exec .layerBoundary s =
      let r := closeDesc ((s.dev.layerCommits s.nor).spansEnd, s.mem)
      .next { s with dev := r.1.layerClose, mem := r.2, iso := s.iso.leRise s.dev r.1.layerClose } := if_pos h

/-- Of the isolated die a layer boundary changes the LE commands alone (17 R482). -/
theorem Iso.leRise_eq (x : Iso) (old d : Dev) :
    x.leRise old d = { x with st := { x.st with leCmd := (x.leRise old d).st.leCmd }, rep := { x.rep with leCmd := (x.leRise old d).rep.leCmd } } := by
  unfold Iso.leRise
  dsimp only
  split
  · rfl
  · rfl

/-! ### EXPOSE -/

/-- Some heads' hidden state changes, and nothing else. -/
def Dev.onlyHeads (d e : Dev) : Prop := e = { d with heads := e.heads }

theorem Dev.onlyHeads.hdUpd {d e : Dev} (h : d.onlyHeads e) (n : Nat) (u : Head → Head) : d.onlyHeads (e.hdUpd n u) := by
  unfold Dev.onlyHeads at h
  rw [h]
  exact Eq.refl _

theorem Dev.onlyHeads.placeHead {d e : Dev} (h : d.onlyHeads e) (n t : Nat) : d.onlyHeads (e.placeHead n t) := h.hdUpd n _

theorem Dev.onlyHeads.fetchRequest {d e : Dev} (h : d.onlyHeads e) (n : Nat) : d.onlyHeads (e.fetchRequest n) := by
  by_cases hlow : (e.hd n).runsLow
  · rw [Dev.fetchRequest_of_runsLow hlow]
    exact h.hdUpd n _
  · rw [Dev.fetchRequest_of_not_runsLow hlow]
    exact h

/-- The plan of an open layer begins (03 R539): its first plan entry is 16 frames on, and the heads of the mask are placed for it. -/
def Dev.planBegun (d : Dev) : Dev :=
  forN 48 (fun h e => when (e.hd h).active (fun e => (e.placeHead h ((d.time.frame + 16) * frameT)).fetchRequest h) e)
    { d with seq := { d.seq with exposed := true, firstEntry := d.time.frame + 16 } }

theorem Dev.planBegun_only (d : Dev) :
    d.planBegun = { d with seq := { d.seq with exposed := true, firstEntry := d.time.frame + 16 }, heads := d.planBegun.heads } := by
  refine List.foldlRecOn (motive := Dev.onlyHeads { d with seq := { d.seq with exposed := true, firstEntry := d.time.frame + 16 } })
    _ _ (Eq.refl _) fun e he h _ => ?_
  dsimp only [when]
  split
  · exact (he.placeHead h _).fetchRequest h
  · exact he

theorem Dev.pc_planBegun (d : Dev) : d.planBegun.pc = d.pc := by rw [Dev.planBegun_only]; rfl

theorem Dev.seq_planBegun (d : Dev) : d.planBegun.seq = { d.seq with exposed := true, firstEntry := d.time.frame + 16 } := by rw [Dev.planBegun_only]

theorem Dev.exposed_complete (d : Dev) (n : Nat) : (d.complete n).seq.exposed = d.seq.exposed := rfl

theorem Dev.firstEntry_complete (d : Dev) (n : Nat) : (d.complete n).seq.firstEntry = d.seq.firstEntry := rfl

theorem Dev.fresh_of_atEntry {d : Dev} {op : Nat} (h : d.atEntry op) : d.fresh op = true := by
  obtain ⟨hst, hfresh, hop⟩ := h
  simp [Dev.fresh, Dev.isSt, hst, hfresh, hop, Sys.code]

/-- EXPOSE, just taken, completes; in an open layer that has no plan yet the plan begins (03 R84). -/
theorem exec_expose {s : State} (h : s.dev.atEntry 0x02) : exec .expose s = .next { s with
    dev := (if s.dev.on F.seq_LAYER_STAT_OPEN && !s.dev.seq.exposed then s.dev.planBegun else s.dev).complete (s.dev.pc + 1) } := by
  have hexec : exec .expose s = execExpose s := rfl
  rw [hexec]
  unfold execExpose
  rw [onDev_eq, when, if_pos (Dev.fresh_of_atEntry h)]
  dsimp only
  split
  · rw [← Dev.pc_planBegun s.dev]
    rfl
  · rfl

/-- Settles O27, command by command: what each leaves stands in `exec_frameBoundary_locked`, `Dev.layerOpen_eq`, `exec_expose`, `Dev.opened_layerClose` and the
lemmas about `closeDesc`. -/
theorem framesAndLayersGoOn : Obligations.FramesAndLayersGoOn := by
  unfold Obligations.FramesAndLayersGoOn
  intro s
  refine ⟨fun ok ck => ⟨fun hlocked => ?_, exec_frameBoundary_unlocked⟩, fun hmay => ?_, exec_openLayer_not, fun hentry => ?_, fun hend => ?_⟩
  · obtain ⟨d, diverged, mem, iso, hexec⟩ := exec_frameBoundary_locked (ok := ok) (ck := ck) hlocked
    refine ⟨_, hexec, ?_, ?_, rfl, rfl⟩
    · dsimp only
      rw [Dev.time_calIdle, Dev.frame_boundary]
    · dsimp only
      rw [Dev.time_calIdle, Dev.cycle_boundary]
  · obtain ⟨e, n, hopen, hkept⟩ := Dev.layerOpen_eq s.dev
    refine ⟨_, exec_openLayer_may hmay, ⟨rfl, rfl, rfl, rfl, rfl⟩, ?_⟩
    dsimp only
    rw [hopen]
    exact ⟨hkept.pass.opened.trans (Dev.opened_layerRegs _), hkept.pass.num.trans (Dev.num_layerRegs _), Dev.fresh_pass _ _, Dev.step_pass _ _⟩
  · refine ⟨_, exec_expose hentry, ⟨rfl, rfl, rfl, rfl, rfl⟩, rfl, rfl, Dev.g_p_same _ _ _ (by decide), fun hopen hexp => ?_⟩
    dsimp only
    rw [Dev.exposed_complete, Dev.firstEntry_complete, if_pos (by simp [Dev.on, hopen, hexp]), Dev.seq_planBegun]
    exact ⟨rfl, rfl⟩
  · refine ⟨_, exec_layerBoundary hend, Dev.opened_layerClose _, rfl, rfl, Iso.leRise_eq _ _ _, ?_⟩
    dsimp only
    exact fun hquiet => ⟨fun hcap => closeDesc_ready hquiet hcap, fun x hready hresult => closeDesc_others hquiet hready hresult⟩

end Sys2Proof.Machine
end

section
/-!
The tile map: its window, and the edits staged for it (06 R207 to R209; 19 R511, R513).
-/
namespace Sys2Proof.Machine

/-! ### What an error recorded on a page leaves (02 R55) -/

theorem Dev.onlyRegs_err (d : Dev) (page code detail addr : Nat) : d.onlyRegs (d.err page code detail addr) := by
  unfold Dev.onlyRegs Dev.err
  dsimp only
  split
  · rfl
  · rfl

theorem Dev.regsBut_err (d : Dev) (page code detail addr : Nat) : d.regsBut (d.err page code detail addr) [page + 0x20, page + 0x24] := by
  intro a ha
  simp only [List.mem_cons, List.not_mem_nil, or_false, not_or] at ha
  obtain ⟨hinfo, haddr⟩ := ha
  unfold Dev.err Dev.bump
  dsimp only
  rw [Dev.reg_p_ne _ _ (Ne.symm hinfo)]
  split
  · rw [Dev.reg_p_ne _ _ (Ne.symm haddr), Dev.reg_p_ne _ _ (Ne.symm hinfo), Dev.reg_p_ne _ _ (Ne.symm hinfo)]
  · rfl

/-- A counter of eight bits saturates (00 R16). -/
theorem satU_eight (n : Nat) : satU 8 n % 2 ^ 8 = min n 255 := by
  unfold satU
  split <;> omega

/-- COUNT counts every error, one whose code is not kept too. -/
theorem Dev.count_err (d : Dev) (page code detail addr : Nat) :
    (d.err page code detail addr).g (F.hdr_ERR_INFO_COUNT page) = min (d.g (F.hdr_ERR_INFO_COUNT page) + 1) 255 := by
  have hkept : ∀ (e : Dev) (f : Fld) (v : Nat), Fld.apart f (F.hdr_ERR_INFO_COUNT page) →
      (e.p f v).g (F.hdr_ERR_INFO_COUNT page) = e.g (F.hdr_ERR_INFO_COUNT page) := fun e f v hf => Dev.g_p_apart e v hf (by simp)
  unfold Dev.err Dev.bump
  dsimp only
  rw [Dev.g_p_same _ _ _ (by simp)]
  refine (satU_eight _).trans ?_
  split
  · rw [hkept _ _ _ (.inl (by simp)), hkept _ _ _ (.inr (.inl (by simp))), hkept _ _ _ (.inr (.inr (by simp)))]
  · rfl

/-! ### The window -/

/-- No register page reaches into the tile map window (19 R505, R511). -/
theorem pageOf_tileWindow (ofs : BitVec 18) : pageOf (0x1020000 + ofs.toNat) = none := by
  have hends : ∀ q ∈ pageIndex, q.base + 0x1000 * q.count ≤ 0x1020000 := by decide
  have hnone : pageIndex.find? (fun p => decide (p.base ≤ 0x1020000 + ofs.toNat ∧ 0x1020000 + ofs.toNat < p.base + 0x1000 * p.count)) = none := by
    refine List.find?_eq_none.mpr fun p hp => ?_
    have hend := hends p hp
    simp only [decide_eq_true_eq]
    omega
  unfold pageOf
  rw [hnone]
  rfl

/-- A tile map entry at or above NX × NY reads 0 (06 R208). -/
theorem Dev.readWord_tile_beyond {d : Dev} {ofs : BitVec 18} (hbeyond : d.g F.ibex_TILE_DIM_NX * d.g F.ibex_TILE_DIM_NY ≤ ofs.toNat / 8) :
    d.readWord (0x1020000 + ofs.toNat) = 0 := by
  have hlt : ofs.toNat < 2 ^ 18 := ofs.isLt
  have hwin : inScWindow (0x1020000 + ofs.toNat) = false := by
    unfold inScWindow
    exact decide_eq_false (by omega)
  unfold Dev.readWord Dev.readWindow
  rw [pageOf_tileWindow, hwin, if_neg (by simp), if_neg (by simp), if_neg (by omega), if_neg (by omega), if_neg (by omega), if_neg (by omega), if_pos (by omega),
    if_neg (by omega)]

/-- A 64-bit write of an entry of the tile map window makes the whole entry (19 R513). -/
theorem exec_registerWrite_tile {ofs : BitVec 18} {s : State} (lo hi : Word) (hlets : s.lets (0x1020000 + ofs.toNat)) (halign : ofs.toNat % 8 = 0) :
    exec (.registerWrite (BitVec.ofNat 26 (0x1020000 + ofs.toNat)) (.pair lo hi)) s
      = .next { s with dev := s.dev.tileEntry ofs.toNat (lo.toNat + hi.toNat * 2 ^ 32) } := by
  obtain ⟨hpor, hturned⟩ := hlets
  have hlt : ofs.toNat < 2 ^ 18 := ofs.isLt
  have haddr : (BitVec.ofNat 26 (0x1020000 + ofs.toNat)).toNat = 0x1020000 + ofs.toNat := by
    rw [BitVec.toNat_ofNat]
    exact Nat.mod_eq_of_lt (by omega)
  have hpair : widePair (0x1020000 + ofs.toNat) = false := by
    unfold widePair
    rw [pageOf_tileWindow]
  have hwide : wideWindow (0x1020000 + ofs.toNat) = true := decide_eq_true (by omega)
  change hostWrite64 (BitVec.ofNat 26 (0x1020000 + ofs.toNat)).toNat lo hi s = _
  rw [haddr]
  unfold hostWrite64
  rw [hosted_through _ hpor hturned, onMem_eq]
  simp only [hpair, hwide, if_true, Dev.windowWrite64]
  rw [if_pos (by omega), Nat.add_sub_cancel_left]

/-- An entry with the half that a 32-bit write names replaced (06 R209). -/
def Dev.halfWritten (d : Dev) (ofs : BitVec 18) (v : Word) : Nat :=
  let w := (Tab.at 0 d.tiles (ofs.toNat / 8)).toNat
  if ofs.toNat / 4 % 2 = 0 then w / 2 ^ 32 * 2 ^ 32 + v.toNat else v.toNat * 2 ^ 32 + w % 2 ^ 32

theorem exec_tileMapWrite {ofs : BitVec 18} {s : State} (v : Word) (hlets : s.lets (0x1020000 + ofs.toNat)) :
    exec (.tileMapWrite ofs v) s = .next { s with dev := s.dev.tileEntry ofs.toNat (s.dev.halfWritten ofs v) } := by
  obtain ⟨hpor, hturned⟩ := hlets
  exact hosted_through _ hpor hturned

/-- Entry `n` of the tile map becomes `w`, of which the bits that the entry has are held (06 R207). -/
def Dev.setTile (d : Dev) (n w : Nat) : Dev := { d with tiles := Tab.set 0 d.tiles n (BitVec.ofNat 64 (w &&& 0xBFBFBFBFBF)) }

theorem Dev.onlyTiles_setTile (d : Dev) (n w : Nat) : d.setTile n w = { d with tiles := (d.setTile n w).tiles } := rfl

theorem Dev.tile_setTile_same (d : Dev) (n w : Nat) : (Tab.at 0 (d.setTile n w).tiles n).toNat = w &&& 0xBFBFBFBFBF := by
  unfold Dev.setTile
  rw [Tab.at_set_same, BitVec.toNat_ofNat]
  exact Nat.mod_eq_of_lt (Nat.lt_of_le_of_lt Nat.and_le_right (by decide))

theorem Dev.tile_setTile_ne (d : Dev) (w : Nat) {n k : Nat} (h : k ≠ n) : Tab.at 0 (d.setTile n w).tiles k = Tab.at 0 d.tiles k :=
  Tab.at_set_ne _ _ _ (Ne.symm h)

/-- An entry is taken in IDLE, when it names heads below 48 alone. -/
theorem Dev.tileEntry_taken {d : Dev} (ofs w : Nat) (hidle : d.st = 5) (hgood : tileBad w = false) :
    d.tileEntry ofs w = d.setTile (ofs / 8) w := by
  simp [Dev.tileEntry, Dev.setTile, Dev.isSt, Sys.code, hidle, hgood]

/-- In any other state, or with a head of 48 or more, it is an error of the page (02 R55). -/
theorem Dev.tileEntry_refused {d : Dev} (ofs w : Nat) (hbad : d.st ≠ 5 ∨ tileBad w = true) :
    ∃ code detail addr, d.tileEntry ofs w = d.err 0x60000 code detail addr := by
  unfold Dev.tileEntry
  dsimp only
  split
  · exact ⟨_, _, _, rfl⟩
  next hidle =>
    have hst : d.st = 5 := by simpa [Dev.isSt, Sys.code] using hidle
    rw [if_pos (hbad.resolve_left (fun h => h hst))]
    exact ⟨_, _, _, rfl⟩

/-! ### Staged edits (06 R209) -/

theorem exec_tileEditCmd {s : State} (v : Word) (hlets : s.lets F.ibex_TILE_EDIT_CMD_KEY.addr) :
    exec (.tileEditCmd v) s = .next { s with dev := s.dev.tileEdit v } := by
  obtain ⟨hpor, hturned⟩ := hlets
  exact hosted_through _ hpor hturned

/-- The entry that TILE_EDIT_LO and TILE_EDIT_HI hold. -/
def Dev.tileEditWord (d : Dev) : Nat := d.g F.ibex_TILE_EDIT_LO + d.g F.ibex_TILE_EDIT_HI * 2 ^ 32

theorem Dev.tileEdit_noKey {d : Dev} {v : Word} (hkey : Word.f v 31 16 ≠ 0x5445) : d.tileEdit v = d := if_pos hkey

theorem Dev.tileEdit_bad {d : Dev} {v : Word} (hkey : Word.f v 31 16 = 0x5445) (hbad : tileBad d.tileEditWord = true) :
    d.tileEdit v = d.errAt 0x83 F.ibex_TILE_EDIT_CMD_KEY.addr := by
  unfold Dev.tileEdit
  exact (if_neg (not_not_intro hkey)).trans (if_pos hbad)

theorem Dev.tileEdit_staged {d : Dev} {v : Word} (hkey : Word.f v 31 16 = 0x5445) (hgood : tileBad d.tileEditWord = false) :
    d.tileEdit v
      = ({ d with hand := { d.hand with edit := some (d.g F.ibex_TILE_EDIT_IDX, d.tileEditWord, d.isLate) } }).p F.ibex_TILE_STAT_EDIT_PENDING 1 := by
  unfold Dev.tileEdit
  exact (if_neg (not_not_intro hkey)).trans (if_neg (by rw [← Dev.tileEditWord, hgood]; decide))

/-- Settles O35: the window's rows by what `Dev.tileEntry` does with an entry, the command's by the three cases of `Dev.tileEdit`. -/
theorem tileMapAndEdits : Obligations.TileMapAndEdits := by
  unfold Obligations.TileMapAndEdits
  refine ⟨fun ofs v s hlets halign => ⟨fun hidle hgood => ?_, fun hwhole hidle hi hgood => ?_, fun hbad => ?_⟩,
    fun v s hlets => ⟨fun hkey hgood => ?_, fun hkey hbad => ?_, fun hkey => ?_⟩⟩
  · rw [Answers, exec_tileMapWrite v hlets, Dev.tileEntry_taken _ (s.dev.halfWritten ofs v) hidle hgood]
    exact ⟨_, rfl, ⟨rfl, rfl, rfl, rfl, rfl⟩, Dev.onlyTiles_setTile _ _ _, Dev.tile_setTile_same _ _ _,
      Dev.readWord_tile_beyond (d := s.dev.setTile _ _), fun k => Dev.tile_setTile_ne _ _⟩
  · rw [Answers, exec_registerWrite_tile v hi hlets hwhole, Dev.tileEntry_taken _ _ hidle hgood]
    exact ⟨_, rfl, ⟨rfl, rfl, rfl, rfl, rfl⟩, Dev.onlyTiles_setTile _ _ _, Dev.tile_setTile_same _ _ _, fun k => Dev.tile_setTile_ne _ _⟩
  · obtain ⟨code, detail, addr, herr⟩ := Dev.tileEntry_refused ofs.toNat (s.dev.halfWritten ofs v) hbad
    rw [Answers, exec_tileMapWrite v hlets, herr]
    exact ⟨_, rfl, ⟨rfl, rfl, rfl, rfl, rfl⟩, Dev.onlyRegs_err _ _ _ _ _, Dev.regsBut_err _ _ _ _ _, Dev.count_err _ _ _ _ _⟩
  · rw [Answers, exec_tileEditCmd v hlets, Dev.tileEdit_staged hkey hgood]
    exact ⟨_, rfl, ⟨rfl, rfl, rfl, rfl, rfl⟩, Dev.g_p_same _ _ _ (by decide), rfl, fun a ha => Dev.reg_p_ne _ _ (Ne.symm (List.ne_of_not_mem_cons ha))⟩
  · rw [Answers, exec_tileEditCmd v hlets, Dev.tileEdit_bad hkey hbad]
    exact ⟨_, rfl, ⟨rfl, rfl, rfl, rfl, rfl⟩, Dev.refused_errAt _ (by decide) (by decide)⟩
  · rw [exec_tileEditCmd v hlets, Dev.tileEdit_noKey hkey]

end Sys2Proof.Machine
end

section
/-!
What the failure of a head leaves: FAIL shows the cause, the spans in progress have ended, and a slot that was FAULTED parks (04 R137, 06 R210 to R212).
-/
namespace Sys2Proof.Machine

/-! ### Slots that park (04 R137) -/

theorem Dev.loopSum_only (d : Dev) (n : Nat) : ∃ r, d.loopSum n = { d with regs := r } := ⟨_, rfl⟩

/-- A slot that parks changes registers and slots alone. -/
theorem Dev.parkSlot_only (d : Dev) (s : Nat) : ∃ r x, d.parkSlot s = { d with regs := r, slots := x } := by
  unfold Dev.parkSlot
  split
  · obtain ⟨r, heq⟩ := Dev.loopSum_only (((d.setMode s 4).p (sf F.slot_SLOT_STAT_FE_COUNT s) 0).slotUpd s
      (fun sl => { sl with parkRun := 0, parkFrames := 0, parkDue := false })) (s / 16)
    exact ⟨r, _, heq⟩
  · split
    · exact ⟨_, _, rfl⟩
    · exact ⟨_, _, rfl⟩

theorem Dev.enterParking_only (d : Dev) (h : Nat) : ∃ r x, d.enterParking h = { d with regs := r, slots := x } := by
  unfold Dev.enterParking forL
  refine List.foldlRecOn (motive := fun e : Dev => ∃ r x, e = { d with regs := r, slots := x }) _ _ ⟨_, _, rfl⟩ fun e he s _ => ?_
  obtain ⟨r, x, he⟩ := he
  obtain ⟨r', x', hs⟩ := Dev.parkSlot_only e s
  exact ⟨r', x', hs.trans (by rw [he])⟩

theorem Dev.heads_enterParking (d : Dev) (h : Nat) : (d.enterParking h).heads = d.heads := by
  obtain ⟨r, x, heq⟩ := Dev.enterParking_only d h
  rw [heq]

theorem Dev.hand_enterParking (d : Dev) (h : Nat) : (d.enterParking h).hand = d.hand := by
  obtain ⟨r, x, heq⟩ := Dev.enterParking_only d h
  rw [heq]

/-- The mode of a slot stays when another register is written. -/
theorem Dev.mode_p_ne (d : Dev) {f : Fld} (v n : Nat) (h : f.addr ≠ (sf F.slot_SLOT_STAT_MODE n).addr) : (d.p f v).mode n = d.mode n := by
  unfold Dev.mode Dev.g
  rw [Dev.reg_p_ne _ _ h]

theorem Dev.mode_slotUpd (d : Dev) (s : Nat) (u : Slot → Slot) (n : Nat) : (d.slotUpd s u).mode n = d.mode n := Dev.g_slotUpd _ _ _ _

theorem Dev.mode_loopSum (d : Dev) (m n : Nat) : (d.loopSum m).mode n = d.mode n := by
  unfold Dev.loopSum
  dsimp only
  rw [Dev.mode_p_ne, Dev.mode_p_ne, Dev.mode_p_ne]
  all_goals
    dsimp only [sf]
    omega

theorem Dev.mode_setMode_same (d : Dev) (n m : Nat) : (d.setMode n m).mode n = m % 16 := Dev.g_p_same _ _ _ (by simp [sf])

/-- FE_COUNT stands beside MODE in one register. -/
theorem Dev.mode_setFeCount (d : Dev) (s v n : Nat) : (d.p (sf F.slot_SLOT_STAT_FE_COUNT s) v).mode n = d.mode n :=
  Dev.g_p_apart _ _ (.inr (.inr (by simp [sf]))) (by simp [sf])

theorem Dev.mode_setMode_ne (d : Dev) (m : Nat) {s n : Nat} (h : s ≠ n) : (d.setMode s m).mode n = d.mode n :=
  Dev.mode_p_ne _ _ _ (by dsimp only [sf]; omega)

/-- A mode entered: FE_COUNT and the summaries are of other fields. -/
theorem Dev.mode_parkSlot_entered {d : Dev} {s : Nat} (hmode : d.mode s ∈ [1, 2, 7]) (n : Nat) : (d.parkSlot s).mode n = (d.setMode s 4).mode n := by
  unfold Dev.parkSlot
  rw [if_pos hmode, Dev.mode_loopSum, Dev.mode_slotUpd, Dev.mode_setFeCount (d.setMode s 4) s 0 n]

theorem Dev.mode_parkSlot_stays {d : Dev} {s : Nat} (hmode : d.mode s ∉ [1, 2, 7]) (n : Nat) : (d.parkSlot s).mode n = d.mode n := by
  unfold Dev.parkSlot
  rw [if_neg hmode]
  split
  · rfl
  · rfl

/-- A FAULTED slot parks. -/
theorem Dev.mode_parkSlot_faulted {d : Dev} {n : Nat} (h : d.mode n = 7) : (d.parkSlot n).mode n = 4 := by
  rw [Dev.mode_parkSlot_entered (by simp [h]), Dev.mode_setMode_same]

theorem Dev.mode_parkSlot_ne (d : Dev) {s n : Nat} (h : s ≠ n) : (d.parkSlot s).mode n = d.mode n := by
  by_cases hmode : d.mode s ∈ [1, 2, 7]
  · rw [Dev.mode_parkSlot_entered hmode, Dev.mode_setMode_ne _ _ h]
  · exact Dev.mode_parkSlot_stays hmode n

/-- One that is in PARKING stays, when it parks again too. -/
theorem Dev.mode_parkSlot_parking {d : Dev} (s : Nat) {n : Nat} (h : d.mode n = 4) : (d.parkSlot s).mode n = 4 := by
  by_cases hs : s = n
  · subst hs
    rw [Dev.mode_parkSlot_stays (by simp [h]), h]
  · rw [Dev.mode_parkSlot_ne _ hs, h]

theorem Dev.mode_forL_parkSlot_parking (l : List Nat) {d : Dev} {n : Nat} (h : d.mode n = 4) : (forL l (fun s d => d.parkSlot s) d).mode n = 4 :=
  List.foldlRecOn (motive := fun e : Dev => e.mode n = 4) l _ h fun _ he s _ => Dev.mode_parkSlot_parking s he

/-- Of slots that park one after another, each that was FAULTED is left in PARKING. -/
theorem Dev.mode_forL_parkSlot_faulted {l : List Nat} {n : Nat} (hn : n ∈ l) : ∀ {d : Dev}, d.mode n = 7 → (forL l (fun s d => d.parkSlot s) d).mode n = 4 := by
  induction l with
  | nil => exact absurd hn List.not_mem_nil
  | cons s l ih =>
    intro d hd
    rw [forL, List.foldl_cons]
    by_cases hs : s = n
    · subst hs
      exact Dev.mode_forL_parkSlot_parking l (Dev.mode_parkSlot_faulted hd)
    · have hmem : n ∈ l := (List.mem_cons.mp hn).resolve_left (Ne.symm hs)
      exact ih hmem ((Dev.mode_parkSlot_ne d hs).trans hd)

/-! ### What goes on beside a failure that is shown (06 R210) -/

/-- The FAIL register of head `h` reads as before, and a span of the head that has ended does not begin again. -/
structure Dev.failKept (h : Nat) (d e : Dev) : Prop where
  fail : e.reg (F.hd_FAIL_FAILED h).addr = d.reg (F.hd_FAIL_FAILED h).addr
  clip : (d.hd h).clip = none → (e.hd h).clip = none
  dense : (d.hd h).dense = none → (e.hd h).dense = none

namespace Dev.failKept
variable {h : Nat} {d e : Dev}

theorem rfl : d.failKept h d := ⟨Eq.refl _, id, id⟩

theorem trans {f : Dev} (hd : d.failKept h e) (he : e.failKept h f) : d.failKept h f :=
  ⟨he.fail.trans hd.fail, fun hc => he.clip (hd.clip hc), fun hc => he.dense (hd.dense hc)⟩

/-- The heads' hidden state stays. -/
theorem ofHeads {f : Dev} (hd : d.failKept h e) (hr : f.reg (F.hd_FAIL_FAILED h).addr = e.reg (F.hd_FAIL_FAILED h).addr) (hh : f.heads = e.heads) :
    d.failKept h f := by
  refine hd.trans ⟨hr, ?_, ?_⟩ <;> (unfold Dev.hd; rw [hh]; exact id)

/-- Hidden state other than the heads' changes. -/
theorem hidden {f : Dev} (hd : d.failKept h e) (hr : f.regs = e.regs := by rfl) (hh : f.heads = e.heads := by rfl) : d.failKept h f :=
  hd.ofHeads (by unfold Dev.reg; rw [hr]) hh

theorem withSeq (hd : d.failKept h e) {x : SeqSt} : d.failKept h { e with seq := x } := .hidden hd

theorem withHand (hd : d.failKept h e) {x : Hand} : d.failKept h { e with hand := x } := .hidden hd

/-- The head's hidden state changes, and begins no span. -/
theorem hdUpd (hd : d.failKept h e) {u : Head → Head} (hclip : ∀ x, x.clip = none → (u x).clip = none := by exact fun _ hx => hx)
    (hdense : ∀ x, x.dense = none → (u x).dense = none := by exact fun _ hx => hx) : d.failKept h (e.hdUpd h u) := by
  refine hd.trans ⟨Dev.reg_hdUpd _ _ _ _, ?_, ?_⟩ <;> rw [Dev.hd_hdUpd]
  · exact hclip _
  · exact hdense _

/-- A field of another register is written: FAIL stands at 0x30C of its page (06 R231). -/
theorem p (hd : d.failKept h e) {f : Fld} {v : Nat} (hf : f.addr % 0x1000 ≠ 0x30C := by dsimp only; omega) : d.failKept h (e.p f v) :=
  hd.ofHeads (Dev.reg_p_ne _ _ (by dsimp only; omega)) (Dev.heads_p _ _ _)

theorem bump (hd : d.failKept h e) {f : Fld} {k : Nat} (hf : f.addr % 0x1000 ≠ 0x30C := by dsimp only; omega) : d.failKept h (e.bump f k) := hd.p hf

theorem raise (hd : d.failKept h e) {page b : Nat} {pl : List Nat} {fo : Bool} (hp : page % 0x1000 = 0 := by decide) :
    d.failKept h (e.raise page b pl fo) :=
  hd.ofHeads (Dev.reg_raise _ _ _ _ _ (by simp only [evtAddrs, List.mem_cons, List.not_mem_nil, or_false]; omega)) (Dev.heads_raise _ _ _ _ _)

theorem when (hd : d.failKept h e) {c : Bool} {f : Dev → Dev} (hf : ∀ x, d.failKept h x → d.failKept h (f x)) : d.failKept h (Sys2Proof.when c f e) := by
  unfold Sys2Proof.when
  split
  · exact hf e hd
  · exact hd

theorem foldl (hd : d.failKept h e) {α : Type} {l : List α} {f : Dev → α → Dev} (hf : ∀ x a, d.failKept h x → d.failKept h (f x a)) :
    d.failKept h (l.foldl f e) := List.foldlRecOn l f hd fun x hx a _ => hf x a hx

theorem loopSum (hd : d.failKept h e) {n : Nat} : d.failKept h (e.loopSum n) := .p (.p (.p hd))

theorem setMode (hd : d.failKept h e) {s m : Nat} : d.failKept h (e.setMode s m) := .p hd (by dsimp only [sf]; omega)

theorem setFeCount (hd : d.failKept h e) {s v : Nat} : d.failKept h (e.p (sf F.slot_SLOT_STAT_FE_COUNT s) v) := .p hd (by dsimp only [sf]; omega)

theorem slotUpd (hd : d.failKept h e) {s : Nat} {u : Slot → Slot} : d.failKept h (e.slotUpd s u) := .hidden hd

theorem parkSlot (hd : d.failKept h e) {s : Nat} : d.failKept h (e.parkSlot s) := by
  unfold Dev.parkSlot
  split
  · exact .loopSum (.slotUpd (.setFeCount (.setMode hd)))
  · split
    · exact .slotUpd hd
    · exact hd

theorem enterParking (hd : d.failKept h e) {n : Nat} : d.failKept h (e.enterParking n) := hd.foldl fun _ _ hx => hx.parkSlot

theorem failRecord (hd : d.failKept h e) {n cause idx : Nat} {a b : PPoint} : d.failKept h (e.failRecord n cause idx a b) := .raise hd

/-! ### The spans of the head end, and their repairs are queued (05 R169, R175; 06 R223) -/

theorem closeReversal (hd : d.failKept h e) {t : Nat} : d.failKept h (e.closeReversal h t) := by
  unfold Dev.closeReversal
  dsimp only
  split
  · exact hd
  · exact .raise (.bump (.hdUpd hd))

theorem endClip (hd : d.failKept h e) {t : Nat} : d.failKept h (e.endClip h t) := by
  unfold Dev.endClip
  dsimp only
  split
  · exact hd
  · exact .when (.raise (.bump (.withSeq (.hdUpd hd (hclip := fun _ _ => Eq.refl none))))) fun _ hx => .withHand hx

theorem flushDense (hd : d.failKept h e) : d.failKept h (e.flushDense h) := by
  unfold Dev.flushDense
  split
  · exact .raise (.hdUpd hd (hdense := fun _ _ => Eq.refl none))
  · exact hd

theorem repairItem (hd : d.failKept h e) {n k : Nat} {sp : Span} {g : Seg} : d.failKept h (e.repairItem n sp g k) := .raise (.bump (.hidden hd))

theorem spanStep (hd : d.failKept h e) : d.failKept h e.spanStep := by
  unfold Dev.spanStep
  split
  next keep f hfold =>
    have hf : d.failKept h (keep, f).2 := by
      rw [← hfold]
      refine List.foldlRecOn (motive := fun (r : List (Nat × Span) × Dev) => d.failKept h r.2) _ _ hd fun r hr x _ => ?_
      dsimp only
      split
      · exact hr
      · refine .foldl hr fun y g hy => ?_
        split
        · exact hy.repairItem
        · exact hy
    exact .withHand hf

/-! ### The head's items and its hold are given up (06 R205, R216, R220) -/

theorem dropItems (hd : d.failKept h e) {n t : Nat} : d.failKept h (e.dropItems n t) := by
  unfold Dev.dropItems
  refine .foldl (.withHand hd) fun x it hx => ?_
  dsimp only
  split
  · exact hx
  · split
    · exact .withHand hx
    · split
      · exact hx
      · exact .withHand hx

theorem unhold (hd : d.failKept h e) {n : Nat} : d.failKept h (e.unhold n) := by
  refine .p (.p (.p (.p hd))) ?_
  unfold heldFld
  split <;> simp

/-- The fields of FAIL. -/
theorem g_eq (hd : d.failKept h e) {hi lo : Nat} : e.g ⟨0x10000 + 0x1000 * h + 0x30C, hi, lo⟩ = d.g ⟨0x10000 + 0x1000 * h + 0x30C, hi, lo⟩ := by
  unfold Dev.g
  rw [hd.fail]

end Dev.failKept

/-! ### The head that failed -/

theorem Dev.hd_withHand (d : Dev) (x : Hand) (k : Nat) : ({ d with hand := x } : Dev).hd k = d.hd k := rfl

theorem Dev.clip_endClip (d : Dev) (h t : Nat) : ((d.endClip h t).hd h).clip = none := by
  unfold Dev.endClip
  dsimp only
  split
  · assumption
  · refine Dev.failKept.clip (.when (.raise (.bump (.withSeq .rfl))) fun _ hx => .withHand hx) ?_
    rw [Dev.hd_hdUpd]

theorem Dev.dense_flushDense (d : Dev) (h : Nat) : ((d.flushDense h).hd h).dense = none := by
  unfold Dev.flushDense
  split
  · refine Dev.failKept.dense (.raise .rfl) ?_
    rw [Dev.hd_hdUpd]
  · assumption

/-- A head that is shown failed: FAIL has its cause, its stream and its spans have ended, and it is out of the exposure set (06 R210, R211). -/
structure Dev.shownFailed (e : Dev) (h cause : Nat) : Prop where
  failed : e.g (F.hd_FAIL_FAILED h) = 1
  cause : e.g (F.hd_FAIL_CAUSE h) = cause % 256
  pend : (e.hd h).failPend = none
  active : (e.hd h).active = false
  susp : (e.hd h).susp = none
  clip : (e.hd h).clip = none
  dense : (e.hd h).dense = none
  expo : h ∉ e.hand.expo

/-- What leaves the head, the exposure set and FAIL leaves the head as it is shown. -/
theorem Dev.shownFailed.kept {d e : Dev} {h cause : Nat} (hd : d.shownFailed h cause) (hr : e.reg (F.hd_FAIL_FAILED h).addr = d.reg (F.hd_FAIL_FAILED h).addr)
    (hheads : e.heads = d.heads) (hhand : e.hand = d.hand) : e.shownFailed h cause := by
  have hhd : e.hd h = d.hd h := by unfold Dev.hd; rw [hheads]
  constructor
  · rw [← hd.failed]
    unfold Dev.g
    rw [hr]
  · rw [← hd.cause]
    unfold Dev.g
    rw [hr]
  · rw [hhd, hd.pend]
  · rw [hhd, hd.active]
  · rw [hhd, hd.susp]
  · rw [hhd, hd.clip]
  · rw [hhd, hd.dense]
  · rw [hhand]
    exact hd.expo

/-- FAIL and FAILED_LO or FAILED_HI as a failure sets them (06 R210, R230, R231). -/
def Dev.failSet (d : Dev) (h cause : Nat) : Dev := ((d.p (F.hd_FAIL_FAILED h) 1).p (F.hd_FAIL_CAUSE h) cause).p (failedFld h) 1

/-- FAILED_LO and FAILED_HI stand apart from FAIL. -/
theorem Dev.g_failSet (d : Dev) (h cause hi lo : Nat) :
    (d.failSet h cause).g ⟨0x10000 + 0x1000 * h + 0x30C, hi, lo⟩
      = ((d.p (F.hd_FAIL_FAILED h) 1).p (F.hd_FAIL_CAUSE h) cause).g ⟨0x10000 + 0x1000 * h + 0x30C, hi, lo⟩ := by
  have haddr : (failedFld h).addr ≠ 0x10000 + 0x1000 * h + 0x30C := by
    unfold failedFld
    split <;> (dsimp only; omega)
  unfold Dev.failSet Dev.g
  rw [Dev.reg_p_ne _ _ haddr]

theorem Dev.failed_failSet (d : Dev) (h cause : Nat) : (d.failSet h cause).g (F.hd_FAIL_FAILED h) = 1 := by
  rw [Dev.g_failSet, Dev.g_p_apart _ _ (.inr (.inl (by simp))) (by simp), Dev.g_p_same _ _ _ (by simp)]
  rfl

theorem Dev.cause_failSet (d : Dev) (h cause : Nat) : (d.failSet h cause).g (F.hd_FAIL_CAUSE h) = cause % 256 := by
  rw [Dev.g_failSet, Dev.g_p_same _ _ _ (by simp)]
  rfl

/-- Of a head that is sound until now: all of the failure but the parking and the record. -/
theorem Dev.headFail_of_sound {d : Dev} {h : Nat} (cause t : Nat) (hsound : d.g (F.hd_FAIL_FAILED h) = 0) :
    ∃ f : Dev, ∃ idx a b, f.shownFailed h cause
      ∧ d.headFail h cause t = (Sys2Proof.when (decide (cause = 1) || f.posValid h) (fun d => d.enterParking h) f).failRecord h cause idx a b := by
  have hoff : ¬ d.on (F.hd_FAIL_FAILED h) = true := by simp [Dev.on, hsound]
  unfold Dev.headFail
  dsimp only
  rw [if_neg hoff]
  refine ⟨_, _, _, _, ?_, rfl⟩
  constructor
  case failed =>
    refine (Dev.failKept.g_eq (d := d.failSet h cause) ?_).trans (Dev.failed_failSet d h cause)
    exact .withHand (.hdUpd (.unhold (.dropItems (.spanStep (.flushDense (.endClip (.closeReversal .rfl)))))))
  case cause =>
    refine (Dev.failKept.g_eq (d := d.failSet h cause) ?_).trans (Dev.cause_failSet d h cause)
    exact .withHand (.hdUpd (.unhold (.dropItems (.spanStep (.flushDense (.endClip (.closeReversal .rfl)))))))
  case clip => exact Dev.failKept.clip (.withHand (.hdUpd (.unhold (.dropItems (.spanStep (.flushDense .rfl)))))) (Dev.clip_endClip _ _ _)
  case dense => exact Dev.failKept.dense (.withHand (.hdUpd (.unhold (.dropItems (.spanStep .rfl))))) (Dev.dense_flushDense _ _)
  case expo => simp
  case pend => rw [Dev.hd_withHand, Dev.hd_hdUpd]
  case active => rw [Dev.hd_withHand, Dev.hd_hdUpd]
  case susp => rw [Dev.hd_withHand, Dev.hd_hdUpd]

/-- Parking and the record leave what the failure has set. -/
theorem Dev.shownFailed_headFail {d : Dev} {h : Nat} (cause t : Nat) (hsound : d.g (F.hd_FAIL_FAILED h) = 0) : (d.headFail h cause t).shownFailed h cause := by
  obtain ⟨f, idx, a, b, hf, heq⟩ := Dev.headFail_of_sound cause t hsound
  rw [heq]
  have hpark : (Sys2Proof.when (decide (cause = 1) || f.posValid h) (fun d => d.enterParking h) f).shownFailed h cause := by
    unfold Sys2Proof.when
    split
    · exact hf.kept (Dev.failKept.enterParking .rfl).fail (Dev.heads_enterParking _ _) (Dev.hand_enterParking _ _)
    · exact hf
  exact hpark.kept (Dev.failKept.failRecord .rfl).fail (Dev.heads_raise _ _ _ _ _) (Dev.hand_raise _ _ _ _ _)

/-- HEAD_FAILED is recorded (06 R210). -/
theorem Dev.raw_headFail {d : Dev} {h : Nat} (cause t : Nat) (hsound : d.g (F.hd_FAIL_FAILED h) = 0) : (d.headFail h cause t).g ⟨0x60010, 4, 4⟩ = 1 := by
  obtain ⟨f, idx, a, b, -, heq⟩ := Dev.headFail_of_sound cause t hsound
  rw [heq]
  exact Dev.g_raise_raw (page := 0x60000) _ _ _ (by decide) (by decide)

/-- What asked for the failure of a head is answered. -/
def Dev.failAnswered (d : Dev) (h : Nat) : Dev := d.hdUpd h (fun hd => { hd with failPend := none })

/-- A head that has failed already fails no more; with cause 1 its slots park (06 R210). -/
theorem Dev.headFail_of_failed {d : Dev} {h : Nat} (cause t : Nat) (hfailed : d.g (F.hd_FAIL_FAILED h) = 1) :
    d.headFail h cause t = Sys2Proof.when (decide (cause = 1)) (fun d => d.enterParking h) (d.failAnswered h) := by
  have hon : d.on (F.hd_FAIL_FAILED h) = true := by simp [Dev.on, hfailed]
  unfold Dev.headFail
  exact if_pos hon

theorem Dev.hd_headFail_of_failed {d : Dev} {h : Nat} (cause t : Nat) (hfailed : d.g (F.hd_FAIL_FAILED h) = 1) (k : Nat) :
    (d.headFail h cause t).hd k = (d.failAnswered h).hd k := by
  rw [Dev.headFail_of_failed cause t hfailed]
  unfold Dev.hd Sys2Proof.when
  split
  · rw [Dev.heads_enterParking]
  · rfl

theorem Dev.cause_headFail_of_failed {d : Dev} {h : Nat} (cause t : Nat) (hfailed : d.g (F.hd_FAIL_FAILED h) = 1) :
    (d.headFail h cause t).g (F.hd_FAIL_CAUSE h) = d.g (F.hd_FAIL_CAUSE h) := by
  rw [Dev.headFail_of_failed cause t hfailed]
  exact (Dev.failKept.when .rfl fun _ hx => hx.enterParking).g_eq

theorem Dev.mode_headFail_of_failed {d : Dev} {h : Nat} (t : Nat) (hfailed : d.g (F.hd_FAIL_FAILED h) = 1) {n : Nat} (hn : n ∈ d.headSlots h)
    (hmode : d.mode n = 7) : (d.headFail h 1 t).mode n = 4 := by
  rw [Dev.headFail_of_failed 1 t hfailed]
  exact Dev.mode_forL_parkSlot_faulted (d := d.failAnswered h) hn hmode

end Sys2Proof.Machine
end

section
/-!
The rows of the Ibex page that act on heads and on the handoff store (06 R205, R210, R213, R217).
-/
namespace Sys2Proof.Machine

/-! ### FAIL_REQ and REJOIN -/

theorem exec_failReq {s : State} (v : Word) (hlets : s.lets F.ibex_FAIL_REQ_KEY.addr) : exec (.failReq v) s = .next { s with dev := s.dev.failReq v } := by
  obtain ⟨hpor, hturned⟩ := hlets
  exact hosted_through _ hpor hturned

theorem Dev.failReq_keyed {d : Dev} {v : Word} (hkey : Word.f v 31 16 = 0x4644) (hhead : Word.f v 5 0 < 48) :
    d.failReq v = d.failAsk (Word.f v 5 0) 7 d.time.frame 0 := if_pos ⟨hkey, hhead⟩

theorem Dev.failReq_noKey {d : Dev} {v : Word} (hkey : Word.f v 31 16 ≠ 0x4644) : d.failReq v = d := if_neg fun ⟨h, _⟩ => hkey h

/-- What asks for a failure, by the cause that comes first (06 R210). -/
theorem Dev.failsWith_failAsk (d : Dev) (h cause f t : Nat) : d.failsWith h cause f (d.failAsk h cause f t) := by
  unfold Dev.failsWith Dev.failAsk
  rw [Dev.hd_hdUpd]
  split
  · rfl
  · rfl

theorem exec_rejoin {h : Fin 48} {s : State} (v : Word) (hlets : s.lets (F.hd_REJOIN h.val).addr) :
    exec (.rejoin h v) s = .next { s with dev := s.dev.rejoin h.val v } := by
  obtain ⟨hpor, hturned⟩ := hlets
  exact hosted_through _ hpor hturned

/-! ### HEAD_FAIL -/

theorem exec_headFail_due {h : Fin 48} {s : State} {c : Nat} (hpend : (s.dev.hd h.val).failPend = some c)
    (hframe : (s.dev.hd h.val).failFrame < s.dev.time.frame) (hcycle : s.dev.time.cycle = 0) :
    ∃ t, exec (.headFail h) s = .next { s with dev := s.dev.headFail h.val c t } := by
  have hnow : s.dev.failsNow h.val = true := by simp [Dev.failsNow, hpend, hframe, hcycle]
  refine ⟨if c = 7 ∨ c = 8 then s.dev.time.frame * frameT else (s.dev.hd h.val).failT, ?_⟩
  change execHeadFail h s = _
  unfold execHeadFail
  rw [onDev_eq]
  simp only [hpend, hnow, when, if_true]

theorem exec_headFail_waits {h : Fin 48} {s : State} (hnot : s.dev.time.frame ≤ (s.dev.hd h.val).failFrame ∨ s.dev.time.cycle ≠ 0) :
    exec (.headFail h) s = .next s := by
  have hnow : s.dev.failsNow h.val = false := by
    simp only [Dev.failsNow, Bool.and_eq_false_iff, decide_eq_false_iff_not]
    omega
  change execHeadFail h s = _
  unfold execHeadFail
  rw [onDev_eq]
  dsimp only
  split
  · rfl
  · rw [hnow]
    rfl

/-! ### HOLD_LONG and STORE_RESUME -/

theorem exec_holdLong {h : Fin 48} {s : State} (hheld : s.dev.g (F.hd_IBEX_STAT_HELD h.val) = 1) (hnew : (s.dev.hd h.val).holdLong = false)
    (hlong : s.dev.v F.ibex_HOLD_MAX ≤ s.dev.g (F.hd_IBEX_STAT_HOLD_FRAMES h.val)) :
    exec (.holdLong h) s = .next { s with
      dev := (s.dev.hdUpd h.val (fun hd => { hd with holdLong := true })).raise 0x60000 8 [h.val, s.dev.g (F.hd_IBEX_STAT_HOLD_BY h.val)] } := by
  change execHoldLong h s = _
  unfold execHoldLong
  rw [onDev_eq]
  simp only [when, Dev.on, hheld, hnew, hlong]
  rfl

theorem exec_storeResume {s : State} (hfull : s.dev.hand.storeFull = true) (hroom : s.dev.hoCount < 7168) :
    exec .storeResume s = .next { s with dev := { s.dev with hand := { s.dev.hand with storeFull := false } } } := by
  change execStoreResume s = _
  unfold execStoreResume
  rw [onDev_eq]
  simp only [when, hfull, hroom]
  rfl

/-- Settles O34, row by row: a failure by `Dev.shownFailed_headFail` and `Dev.headFail_of_failed`, the others by their equations. -/
theorem headsFailAndRejoin : Obligations.HeadsFailAndRejoin := by
  unfold Obligations.HeadsFailAndRejoin
  refine ⟨fun v s hlets => ⟨?_, fun hkey => ?_⟩, fun h s => ⟨fun c hpend => ⟨fun hframe hcycle hsound => ?_, fun hframe hcycle hfailed => ?_, ?_⟩,
    fun v hlets => ⟨fun hkey => ?_, fun hkey => ?_⟩, fun hheld hnew hlong => ?_, fun hfull hroom => ?_⟩⟩
  · rintro h hlt hkey rfl
    rw [Answers, exec_failReq v hlets, Dev.failReq_keyed hkey hlt]
    exact ⟨_, rfl, ⟨rfl, rfl, rfl, rfl, rfl⟩, Dev.failsWith_failAsk _ _ _ _ _, fun k hk => Dev.hd_hdUpd_ne _ _ (Ne.symm hk), rfl⟩
  · rw [exec_failReq v hlets, Dev.failReq_noKey hkey]
  · obtain ⟨t, hexec⟩ := exec_headFail_due hpend hframe hcycle
    obtain ⟨hfailed, hcause, hpend', hactive, hsusp, hclip, hdense, hexpo⟩ := Dev.shownFailed_headFail c t hsound
    exact ⟨_, hexec, ⟨rfl, rfl, rfl, rfl, rfl⟩, hfailed, hcause, hpend', hactive, hsusp, hclip, hdense, hexpo, Dev.raw_headFail c t hsound⟩
  · obtain ⟨t, hexec⟩ := exec_headFail_due hpend hframe hcycle
    have hhd := Dev.hd_headFail_of_failed c t hfailed
    refine ⟨_, hexec, ⟨rfl, rfl, rfl, rfl, rfl⟩, ?_, fun k hk => ?_, Dev.cause_headFail_of_failed c t hfailed, fun hother => ?_, ?_⟩
    · dsimp only
      rw [hhd, Dev.failAnswered, Dev.hd_hdUpd]
    · exact (hhd k).trans (Dev.hd_hdUpd_ne _ _ (Ne.symm hk))
    · dsimp only
      rw [Dev.headFail_of_failed c t hfailed, decide_eq_false hother]
      exact ⟨Dev.hd_hdUpd _ _ _, rfl⟩
    · rintro rfl n hn hmode
      exact Dev.mode_headFail_of_failed t hfailed hn hmode
  · exact exec_headFail_waits
  · rw [Answers, exec_rejoin v hlets, Dev.rejoin, if_pos hkey]
    exact ⟨_, rfl, ⟨rfl, rfl, rfl, rfl, rfl⟩, Dev.hd_hdUpd _ _ _, fun k hk => Dev.hd_hdUpd_ne _ _ (Ne.symm hk), rfl⟩
  · rw [exec_rejoin v hlets, Dev.rejoin, if_neg hkey]
  · refine ⟨_, exec_holdLong hheld hnew hlong, ⟨rfl, rfl, rfl, rfl, rfl⟩, ?_, Dev.g_raise_raw (page := 0x60000) _ _ _ (by decide) (by decide), fun a ha => ?_⟩
    · dsimp only
      rw [Dev.hd, Dev.heads_raise]
      exact Dev.hd_hdUpd _ _ _
    · dsimp only
      rw [Dev.reg_raise _ _ _ _ _ ha, Dev.reg_hdUpd]
  · exact ⟨_, exec_storeResume hfull hroom, ⟨rfl, rfl, rfl, rfl, rfl⟩, rfl⟩

end Sys2Proof.Machine
end

section
/-!
The records of the power loops: a pin, a feed-forward term that went stale, and the pages' summaries (07 R244, R249, R254).
-/
namespace Sys2Proof.Machine

/-! ### The pages' summaries (07 R254) -/

theorem forN_succ {σ : Type} (n : Nat) (f : Nat → σ → σ) (s : σ) : forN (n + 1) f s = f n (forN n f s) := by
  rw [forN, List.range_succ, List.foldl_append]
  rfl

/-- The word whose bits below `m` are those of `q`. -/
def maskTo (m : Nat) (q : Nat → Bool) : Nat := (List.range m).foldl (fun w b => if q b then w ||| 2 ^ b else w) 0

theorem testBit_maskTo (q : Nat → Bool) (m i : Nat) : (maskTo m q).testBit i = (decide (i < m) && q i) := by
  induction m with
  | zero => rw [decide_eq_false (Nat.not_lt_zero i), Bool.false_and, maskTo, List.range_zero, List.foldl_nil, Nat.zero_testBit]
  | succ m ih =>
    have hstep : maskTo (m + 1) q = if q m then maskTo m q ||| 2 ^ m else maskTo m q := by
      rw [maskTo, List.range_succ, List.foldl_append]
      rfl
    have hor : (maskTo (m + 1) q).testBit i = ((maskTo m q).testBit i || (q m && decide (m = i))) := by
      rw [hstep]
      cases q m with
      | true => rw [if_pos rfl, Nat.testBit_or, Nat.testBit_two_pow, Bool.true_and]
      | false => rw [if_neg Bool.false_ne_true, Bool.false_and, Bool.or_false]
    rw [hor, ih]
    by_cases hm : m = i
    · subst hm
      rw [decide_eq_false (Nat.lt_irrefl m), decide_eq_true (Nat.lt_succ_self m), decide_eq_true rfl, Bool.false_and, Bool.false_or, Bool.and_true, Bool.true_and]
    · have hlt : decide (i < m + 1) = decide (i < m) := decide_eq_decide.mpr (by omega)
      rw [hlt, decide_eq_false hm, Bool.and_false, Bool.or_false]

/-- The summaries of one PLOOP page. -/
def Dev.plPageSums (d : Dev) (n : Nat) : Dev :=
  let d := d.p (F.ploop_SUM_ACTIVE n) (maskTo 14 (fun b => d.g (pf F.pl_PL_STAT_MODE (14 * n + b)) == 5))
  let d := d.p (F.ploop_SUM_PIN n) (maskTo 14 (fun b => d.on (pf F.pl_PL_STAT_PIN_COUNT (14 * n + b))))
  d.p (F.ploop_SUM_FLAG n) (maskTo 14 (fun b => d.reg (pf F.pl_PL_FLAGS_PIN_HI (14 * n + b)).addr != 0))

theorem Dev.plSums_eq (d : Dev) : d.plSums = forN 4 (fun n d => d.plPageSums n) d := rfl

/-- Address `a` is none of the three summaries of page `n`. -/
abbrev notSumOf (n a : Nat) : Prop := (F.ploop_SUM_ACTIVE n).addr ≠ a ∧ (F.ploop_SUM_PIN n).addr ≠ a ∧ (F.ploop_SUM_FLAG n).addr ≠ a

theorem Dev.reg_plPageSums (d : Dev) {n a : Nat} (h : notSumOf n a) : (d.plPageSums n).reg a = d.reg a := by
  obtain ⟨hactive, hpin, hflag⟩ := h
  unfold Dev.plPageSums
  dsimp only
  rw [Dev.reg_p_ne _ _ hflag, Dev.reg_p_ne _ _ hpin, Dev.reg_p_ne _ _ hactive]

theorem Dev.reg_forN_plPageSums (d : Dev) {m a : Nat} (h : ∀ n < m, notSumOf n a) : (forN m (fun n d => d.plPageSums n) d).reg a = d.reg a := by
  induction m with
  | zero => rfl
  | succ m ih => rw [forN_succ, Dev.reg_plPageSums _ (h m m.lt_succ_self), ih fun n hn => h n (Nat.lt_succ_of_lt hn)]

/-- Address `a` stands, in a page of the power loops or after it, where the slots' blocks of such a page stand. -/
structure inSlotBlocks (a : Nat) : Prop where
  page : 0x50000 ≤ a
  block : 0x80 ≤ a % 0x1000

/-- The registers of slot `b`'s block of page `n` (07 R254). -/
theorem inSlotBlocks_of_slot (n : Nat) {b o : Nat} (hb : b < 14) (hlo : 0x80 ≤ o) (hhi : o < 0x198) : inSlotBlocks (0x50000 + 0x1000 * n + 0x118 * b + o) := by
  have hsplit : 0x50000 + 0x1000 * n + 0x118 * b + o = 0x118 * b + o + 0x1000 * (0x50 + n) := by omega
  refine ⟨by omega, ?_⟩
  rw [hsplit, Nat.add_mul_mod_self_left, Nat.mod_eq_of_lt (by omega)]
  omega

theorem inSlotBlocks_plFlags (s : Nat) : inSlotBlocks (pf F.pl_PL_FLAGS_PIN_HI s).addr :=
  inSlotBlocks_of_slot _ (Nat.mod_lt _ (by decide)) (by decide) (by decide)

theorem inSlotBlocks_pinDemand (s : Nat) : inSlotBlocks (pf F.pl_PIN_DEMAND s).addr :=
  inSlotBlocks_of_slot _ (Nat.mod_lt _ (by decide)) (by decide) (by decide)

/-- The summaries of every page stand before its slots' blocks. -/
theorem notSumOf_of_inSlotBlocks {a : Nat} (n : Nat) (h : inSlotBlocks a) : notSumOf n a := by
  have hblock := h.block
  simp only [notSumOf]
  omega

theorem notSumOf_plFlags (n s : Nat) : notSumOf n (pf F.pl_PL_FLAGS_PIN_HI s).addr := notSumOf_of_inSlotBlocks n (inSlotBlocks_plFlags s)

/-- A bit of SUM_FLAG says whether the slot's PL_FLAGS has any bit set. -/
theorem Dev.sumFlag_plPageSums (d : Dev) (n : Nat) {b : Nat} (hb : b < 14) :
    bit ((d.plPageSums n).g (F.ploop_SUM_FLAG n)) b = (d.reg (pf F.pl_PL_FLAGS_PIN_HI (14 * n + b)).addr != 0) := by
  obtain ⟨hactive, hpin, -⟩ := notSumOf_plFlags n (14 * n + b)
  unfold Dev.plPageSums bit
  rw [Dev.g_p_same _ _ _ (show 13 < 32 by decide), Nat.testBit_mod_two_pow, testBit_maskTo]
  dsimp only
  rw [Dev.reg_p_ne _ _ hpin, Dev.reg_p_ne _ _ hactive]
  simp only [hb, Nat.sub_zero, Nat.reduceAdd, decide_true, Bool.true_and]

theorem Dev.sumFlag_forN_plPageSums (d : Dev) {m n b : Nat} (hn : n < m) (hb : b < 14) :
    bit ((forN m (fun n d => d.plPageSums n) d).g (F.ploop_SUM_FLAG n)) b = (d.reg (pf F.pl_PL_FLAGS_PIN_HI (14 * n + b)).addr != 0) := by
  induction m with
  | zero => omega
  | succ m ih =>
    rw [forN_succ]
    rcases Nat.lt_succ_iff_lt_or_eq.mp hn with hlt | rfl
    · rw [← ih hlt, Dev.g, Dev.g, Dev.reg_plPageSums _ (by simp only [notSumOf]; omega)]
    · rw [Dev.sumFlag_plPageSums _ _ hb, Dev.reg_forN_plPageSums _ fun k _ => notSumOf_plFlags k _]

/-- The summaries show each slot of the machine. -/
theorem Dev.sumFlag_plSums (d : Dev) {s : Nat} (hs : s < 56) :
    bit (d.plSums.g (F.ploop_SUM_FLAG (s / 14))) (s % 14) = (d.reg (pf F.pl_PL_FLAGS_PIN_HI s).addr != 0) := by
  rw [Dev.plSums_eq, Dev.sumFlag_forN_plPageSums _ (by omega) (Nat.mod_lt _ (by decide)), Nat.div_add_mod]

/-- The summaries change the register file alone. -/
theorem Dev.plSums_only (d : Dev) : ∃ r, d.plSums = { d with regs := r } := by
  have hpages : ∀ m, ∃ r, forN m (fun n d => d.plPageSums n) d = { d with regs := r } := by
    intro m
    induction m with
    | zero => exact ⟨_, rfl⟩
    | succ m ih =>
      obtain ⟨r, hr⟩ := ih
      rw [forN_succ, hr]
      exact ⟨_, rfl⟩
  exact hpages 4

theorem notMem_plSumAddrs {a : Nat} : a ∉ plSumAddrs ↔ ∀ n < 4, notSumOf n a := by
  have hmem : a ∈ plSumAddrs ↔ ∃ n, n < 4 ∧ (a = (F.ploop_SUM_ACTIVE n).addr ∨ a = (F.ploop_SUM_PIN n).addr ∨ a = (F.ploop_SUM_FLAG n).addr) := by
    simp only [plSumAddrs, List.mem_flatMap, List.mem_range, List.mem_cons, List.not_mem_nil, or_false]
  rw [hmem]
  constructor
  · intro h n hn
    exact ⟨fun e => h ⟨n, hn, .inl e.symm⟩, fun e => h ⟨n, hn, .inr (.inl e.symm)⟩, fun e => h ⟨n, hn, .inr (.inr e.symm)⟩⟩
  · rintro h ⟨n, hn, hsum⟩
    obtain ⟨hactive, hpin, hflag⟩ := h n hn
    rcases hsum with e | e | e
    · exact hactive e.symm
    · exact hpin e.symm
    · exact hflag e.symm

theorem Dev.regsBut_plSums (d : Dev) : d.regsBut d.plSums plSumAddrs := by
  intro a ha
  rw [Dev.plSums_eq, Dev.reg_forN_plPageSums _ (notMem_plSumAddrs.mp ha)]

/-! ### A slot's event, with the summaries renewed -/

/-- An event of a slot's page, and the summaries after it. -/
def Dev.plRecorded (d : Dev) (s b : Nat) (pl : List Nat) : Dev := (d.raise (plPage s) b pl).plSums

theorem Dev.plRecorded_only (d : Dev) (s b : Nat) (pl : List Nat) :
    ∃ r q e, d.plRecorded s b pl = { d with regs := r, pcie := q, evr := e } := by
  obtain ⟨r, q, e, h⟩ := Dev.raise_only d (plPage s) b pl false
  obtain ⟨r', h'⟩ := Dev.plSums_only (d.raise (plPage s) b pl)
  exact ⟨r', q, e, by rw [Dev.plRecorded, h', h]⟩

theorem Dev.pls_plRecorded (d : Dev) (s b : Nat) (pl : List Nat) (k : Nat) : (d.plRecorded s b pl).pls k = d.pls k := by
  obtain ⟨r, q, e, h⟩ := Dev.plRecorded_only d s b pl
  rw [h]
  rfl

theorem Dev.regsBut_plRecorded (d : Dev) (s b : Nat) (pl : List Nat) : d.regsBut (d.plRecorded s b pl) (plSumAddrs ++ evtAddrs (plPage s)) := by
  intro a ha
  rw [List.mem_append, not_or] at ha
  obtain ⟨hsum, hevt⟩ := ha
  exact (Dev.regsBut_plSums _ a hsum).trans (Dev.reg_raise _ _ _ _ _ hevt)

/-- An address of a slot's block is neither a summary's nor an event's. -/
theorem notMem_recorded {a : Nat} (s : Nat) (h : inSlotBlocks a) : a ∉ plSumAddrs ++ evtAddrs (plPage s) := by
  intro hin
  rcases List.mem_append.mp hin with hsum | hevt
  · exact notMem_plSumAddrs.mpr (fun n _ => notSumOf_of_inSlotBlocks n h) hsum
  · obtain ⟨hpage, hblock⟩ := h
    simp only [evtAddrs, plPage, List.mem_cons, List.not_mem_nil, or_false] at hevt
    omega

theorem Dev.g_plRecorded (d : Dev) (s b : Nat) (pl : List Nat) {f : Fld} (hf : inSlotBlocks f.addr) :
    (d.plRecorded s b pl).g f = d.g f := by
  unfold Dev.g
  rw [Dev.regsBut_plRecorded d s b pl _ (notMem_recorded s hf)]

theorem Dev.raw_plRecorded (d : Dev) (s : Nat) {b : Nat} (pl : List Nat) (hb : b < 32) : (d.plRecorded s b pl).g ⟨plPage s + 0x10, b, b⟩ = 1 := by
  have hp : plPage s % 0x1000 = 0 := by unfold plPage; omega
  have hraw : plPage s + 0x10 ∉ plSumAddrs := notMem_plSumAddrs.mpr fun n _ => by simp only [notSumOf]; omega
  rw [← Dev.g_raise_raw d pl false hb hp, Dev.g, Dev.g, Dev.plRecorded, Dev.regsBut_plSums _ _ hraw]

theorem Dev.reg_ne_zero_of_g {d : Dev} {f : Fld} (h : d.g f = 1) : d.reg f.addr ≠ 0 := by
  intro h0
  have hzero : d.g f = 0 := by
    rw [Dev.g, h0]
    exact (congrArg (· % 2 ^ (f.hi + 1 - f.lo)) (Nat.zero_div (2 ^ f.lo))).trans (Nat.zero_mod _)
  omega

/-- The summary shows a slot whose PL_FLAGS had a flag set when the event was recorded. -/
theorem Dev.summed_plRecorded (d : Dev) {s b : Nat} (pl : List Nat) {f : Fld} (hs : s < 56) (hf : f.addr = (pf F.pl_PL_FLAGS_PIN_HI s).addr) (h : d.g f = 1) :
    bit ((d.plRecorded s b pl).g (F.ploop_SUM_FLAG (s / 14))) (s % 14) = true := by
  have hevt : (pf F.pl_PL_FLAGS_PIN_HI s).addr ∉ evtAddrs (plPage s) := fun hin =>
    notMem_recorded s (inSlotBlocks_plFlags s) (List.mem_append_right _ hin)
  rw [Dev.plRecorded, Dev.sumFlag_plSums _ hs, Dev.reg_raise _ _ _ _ _ hevt, bne_iff_ne, ← hf]
  exact Dev.reg_ne_zero_of_g h

/-! ### The slot's hidden state and its flags -/

@[simp] theorem Dev.pls_plUpd (d : Dev) (n : Nat) (u : PSlot → PSlot) : (d.plUpd n u).pls n = u (d.pls n) := Tab.at_upd_same _ _ _ _

theorem Dev.pls_plUpd_ne (d : Dev) {n k : Nat} (u : PSlot → PSlot) (h : n ≠ k) : (d.plUpd n u).pls k = d.pls k := Tab.at_upd_ne _ _ _ h

@[simp] theorem Dev.pls_pi (d : Dev) (f : Fld) (i : Int) (k : Nat) : (d.pi f i).pls k = d.pls k := rfl

@[simp] theorem Dev.pls_flag (d : Dev) (f : Fld) (v k : Nat) : (d.flag f v).pls k = d.pls k := rfl

/-- A one-bit field that the hardware sets reads 1. -/
theorem Dev.g_flag_same (d : Dev) {f : Fld} (hbit : f.hi = f.lo) (h : f.hi < 32) : (d.flag f).g f = 1 := by
  have hwidth : f.hi + 1 - f.lo = 1 := by omega
  exact (Dev.g_p_same d f 1 h).trans (congrArg (1 % 2 ^ ·) hwidth)

/-- The flag of a pin at the slot's upper or lower limit (07 R244). -/
def pinFld (p : PSlot) (n : Nat) : Fld := if p.pinHi then pf F.pl_PL_FLAGS_PIN_HI n else pf F.pl_PL_FLAGS_PIN_LO n

theorem pinFld_addr (p : PSlot) (n : Nat) : (pinFld p n).addr = (pf F.pl_PL_FLAGS_PIN_HI n).addr := by
  unfold pinFld
  split <;> rfl

theorem pinFld_bit (p : PSlot) (n : Nat) : (pinFld p n).hi = (pinFld p n).lo ∧ (pinFld p n).hi < 32 := by
  unfold pinFld
  split
  · exact ⟨rfl, show 0 < 32 by decide⟩
  · exact ⟨rfl, show 1 < 32 by decide⟩

theorem ux_lt (w : Nat) (i : Int) : ux w i < 2 ^ w := by
  have hpos : (0 : Int) < ((2 ^ w : Nat) : Int) := Int.natCast_pos.mpr (Nat.two_pow_pos w)
  exact (Int.toNat_lt (Int.emod_nonneg i (Int.ne_of_gt hpos))).mpr (Int.emod_lt_of_pos i hpos)

/-! ### PIN -/

/-- The logic die with a slot's pin noted, before the event: the hidden mark, the flag and the demand. -/
def Dev.pinNoted (d : Dev) (n : Nat) : Dev :=
  ((d.plUpd n (fun p => { p with pinLogged := true })).flag (pinFld (d.pls n) n)).pi (pf F.pl_PIN_DEMAND n) (satS 32 (d.pls n).demand)

theorem exec_pin {n : Fin 56} {s : State} (hlong : s.dev.v (pf F.pl_PIN_TIME n.val) < s.dev.g (pf F.pl_PL_STAT_PIN_COUNT n.val))
    (hnew : (s.dev.pls n.val).pinLogged = false) (hmapped : s.dev.g (pf F.pl_PL_MAP_MAPPED n.val) = 1) (hat : (s.dev.pls n.val).pinAt ≠ none) :
    ∃ pl, exec (.pin n) s = .next { s with dev := (s.dev.pinNoted n.val).plRecorded n.val 0 pl } := by
  obtain ⟨⟨who, c⟩, hat⟩ := Option.ne_none_iff_exists'.mp hat
  change ∃ pl, execPin n s = _
  unfold execPin Dev.plPin
  simp only [onDev_eq, hlong, hnew, hmapped, hat, Dev.on]
  exact ⟨_, rfl⟩

theorem Dev.pls_pinNoted (d : Dev) (n : Nat) : (d.pinNoted n).pls n = { d.pls n with pinLogged := true } := by
  rw [Dev.pinNoted, Dev.pls_pi, Dev.pls_flag, Dev.pls_plUpd]

theorem Dev.pls_pinNoted_ne (d : Dev) {n k : Nat} (h : n ≠ k) : (d.pinNoted n).pls k = d.pls k := by
  rw [Dev.pinNoted, Dev.pls_pi, Dev.pls_flag, Dev.pls_plUpd_ne _ _ h]

/-- Beside the slots' hidden state, noting and recording a pin changes what an event changes alone. -/
theorem Dev.onlyEvent_pinNoted_plRecorded (d : Dev) (n b : Nat) (pl : List Nat) :
    d.onlyEvent { (d.pinNoted n).plRecorded n b pl with pslots := d.pslots } := by
  obtain ⟨r, q, e, h⟩ := Dev.plRecorded_only (d.pinNoted n) n b pl
  rw [h]
  rfl

theorem Dev.regsBut_pinNoted (d : Dev) (n : Nat) : d.regsBut (d.pinNoted n) [(pf F.pl_PL_FLAGS_PIN_HI n).addr, (pf F.pl_PIN_DEMAND n).addr] := by
  intro a ha
  simp only [List.mem_cons, List.not_mem_nil, or_false, not_or] at ha
  obtain ⟨hflag, hdemand⟩ := ha
  rw [Dev.pinNoted, Dev.pi, Dev.reg_p_ne _ _ (Ne.symm hdemand), Dev.reg_flag, Dev.reg_p_ne _ _ (by rw [pinFld_addr]; exact Ne.symm hflag)]
  rfl

theorem Dev.flag_pinNoted (d : Dev) (n : Nat) : (d.pinNoted n).g (pinFld (d.pls n) n) = 1 := by
  obtain ⟨hbit, hlt⟩ := pinFld_bit (d.pls n) n
  have hapart : Fld.apart (pf F.pl_PIN_DEMAND n) (pinFld (d.pls n) n) := .inl (by rw [pinFld_addr]; simp only [pf]; omega)
  rw [Dev.pinNoted, Dev.pi, Dev.g_p_apart _ _ hapart hlt, Dev.g_flag_same _ hbit hlt]

theorem Dev.demand_pinNoted (d : Dev) (n : Nat) : (d.pinNoted n).g (pf F.pl_PIN_DEMAND n) = ux 32 (satS 32 (d.pls n).demand) := by
  rw [Dev.pinNoted, Dev.pi, Dev.g_p_same _ _ _ (by dsimp only [pf]; omega)]
  exact Nat.mod_eq_of_lt (ux_lt 32 _)

/-! ### FF_STALE -/

/-- The logic die with a slot's stale term noted, before the event: the hidden mark and the flag. -/
def Dev.staleNoted (d : Dev) (n : Nat) : Dev := (d.plUpd n (fun p => { p with stale := true })).flag (pf F.pl_PL_FLAGS_FF_STALE n)

theorem exec_ffStale {n : Fin 56} {s : State} (hen : s.dev.v (pf F.pl_FF_SRC_EN n.val) = 1)
    (haged : s.dev.v (pf F.pl_FF_AGE_HOLD n.val) < (s.dev.pls n.val).age) (hnew : (s.dev.pls n.val).stale = false) :
    exec (.ffStale n) s = .next { s with dev := (s.dev.staleNoted n.val).plRecorded n.val 3 [] } := by
  change execFfStale n s = _
  unfold execFfStale
  simp only [onDev_eq, when, hen, haged, hnew]
  rfl

theorem Dev.pls_staleNoted (d : Dev) (n : Nat) : (d.staleNoted n).pls n = { d.pls n with stale := true } := by
  rw [Dev.staleNoted, Dev.pls_flag, Dev.pls_plUpd]

theorem Dev.pls_staleNoted_ne (d : Dev) {n k : Nat} (h : n ≠ k) : (d.staleNoted n).pls k = d.pls k := by
  rw [Dev.staleNoted, Dev.pls_flag, Dev.pls_plUpd_ne _ _ h]

theorem Dev.regsBut_staleNoted (d : Dev) (n : Nat) : d.regsBut (d.staleNoted n) [(pf F.pl_PL_FLAGS_FF_STALE n).addr] := by
  intro a ha
  rw [List.mem_singleton] at ha
  rw [Dev.staleNoted, Dev.reg_flag, Dev.reg_p_ne _ _ (Ne.symm ha)]
  rfl

theorem Dev.flag_staleNoted (d : Dev) (n : Nat) : (d.staleNoted n).g (pf F.pl_PL_FLAGS_FF_STALE n) = 1 := Dev.g_flag_same _ rfl (by dsimp only [pf]; omega)

/-- Registers kept by two changes, one after the other. -/
theorem Dev.regsBut_trans {d e f : Dev} {l k : List Nat} (h : d.regsBut e l) (h' : e.regsBut f k) : d.regsBut f (l ++ k) := by
  intro a ha
  rw [List.mem_append, not_or] at ha
  obtain ⟨hl, hk⟩ := ha
  exact (h' a hk).trans (h a hl)

/-- Settles O36, row by row: what notes the slot (`Dev.pinNoted`, `Dev.staleNoted`), then the event with the renewed summaries (`Dev.plRecorded`). -/
theorem powerLoopRecordsPinsAndStaleTerms : Obligations.PowerLoopRecordsPinsAndStaleTerms := by
  unfold Obligations.PowerLoopRecordsPinsAndStaleTerms
  intro n s
  refine ⟨fun hlong hnew hmapped hat => ?_, fun hen haged hnew => ?_⟩
  · obtain ⟨pl, hexec⟩ := exec_pin hlong hnew hmapped hat
    have haddr := pinFld_addr (s.dev.pls n.val) n.val
    have hflag := s.dev.flag_pinNoted n.val
    refine ⟨_, hexec, ⟨rfl, rfl, rfl, rfl, rfl⟩, ?_, fun k hk => ?_, ?_, ?_, ?_, Dev.raw_plRecorded _ _ _ (by decide),
      Dev.summed_plRecorded _ _ n.isLt haddr hflag, ?_⟩
    · exact (Dev.pls_plRecorded _ _ _ _ _).trans (Dev.pls_pinNoted _ _)
    · exact (Dev.pls_plRecorded _ _ _ _ _).trans (Dev.pls_pinNoted_ne _ (Ne.symm hk))
    · exact Dev.onlyEvent_pinNoted_plRecorded _ _ _ _
    · exact (Dev.g_plRecorded _ _ _ _ (haddr ▸ inSlotBlocks_plFlags n.val)).trans hflag
    · exact (Dev.g_plRecorded _ _ _ _ (inSlotBlocks_pinDemand n.val)).trans (Dev.demand_pinNoted _ _)
    · rw [List.append_assoc]
      exact Dev.regsBut_trans (Dev.regsBut_pinNoted _ _) (Dev.regsBut_plRecorded _ _ _ _)
  · have hflag := s.dev.flag_staleNoted n.val
    refine ⟨_, exec_ffStale hen haged hnew, ⟨rfl, rfl, rfl, rfl, rfl⟩, ?_, fun k hk => ?_, ?_, Dev.raw_plRecorded _ _ _ (by decide),
      Dev.summed_plRecorded _ _ n.isLt (f := pf F.pl_PL_FLAGS_FF_STALE n.val) rfl hflag, ?_⟩
    · exact (Dev.pls_plRecorded _ _ _ _ _).trans (Dev.pls_staleNoted _ _)
    · exact (Dev.pls_plRecorded _ _ _ _ _).trans (Dev.pls_staleNoted_ne _ (Ne.symm hk))
    · exact (Dev.g_plRecorded (f := pf F.pl_PL_FLAGS_FF_STALE n.val) _ _ _ _ (inSlotBlocks_plFlags n.val)).trans hflag
    · rw [← List.singleton_append, List.append_assoc]
      exact Dev.regsBut_trans (Dev.regsBut_staleNoted _ _) (Dev.regsBut_plRecorded _ _ _ _)

end Sys2Proof.Machine
end
